-- ==== Sys2Proof/Word.lean ====
section
/-! DEFINITION. The byte of the ports and of the field line, and fixed-size tables: how one entry of a
table is read and written, and how a table is summed or walked. Everything with a meaning of the
manual's own stands in Machine/. -/

namespace Sys2Proof

/-- One byte of a port frame or of a field-line frame. -/
abbrev Byte := BitVec 8

/-- The table whose entry `i` is `f i`. -/
def tab {α : Type} {n : Nat} (f : Fin n → α) : Vector α n := ⟨⟨List.ofFn f⟩, by simp⟩

/-- Entry `i` of a table. -/
def nth {α : Type} {n : Nat} (v : Vector α n) (i : Fin n) : α := v[i.val]

/-- The table with entry `i` replaced. -/
def put {α : Type} {n : Nat} (v : Vector α n) (i : Fin n) (x : α) : Vector α n := v.set i.val x i.isLt

/-- The table with `f` applied to entry `i`. -/
def alter {α : Type} {n : Nat} (v : Vector α n) (i : Fin n) (f : α → α) : Vector α n := put v i (f (nth v i))

/-- The table with every entry `x`. -/
def fill {α : Type} (n : Nat) (x : α) : Vector α n := Vector.replicate n x

/-- Every entry of a table changed by `f`. -/
def each {α β : Type} {n : Nat} (v : Vector α n) (f : α → β) : Vector β n := tab fun i => f (nth v i)

/-- Sum of whole numbers over the indexes below `n`. -/
def sumNat {n : Nat} (f : Fin n → Nat) : Nat := (List.ofFn f).sum

/-- Sum of signed numbers over the indexes below `n`. -/
def sumInt {n : Nat} (f : Fin n → Int) : Int := (List.ofFn f).sum

/-- How many indexes below `n` meet `p`. -/
def countFin {n : Nat} (p : Fin n → Bool) : Nat := sumNat fun i => if p i then 1 else 0

/-- Does some index below `n` meet `p`? -/
def someFin {n : Nat} (p : Fin n → Bool) : Bool := (List.ofFn p).any id

/-- Do all indexes below `n` meet `p`? -/
def allFin {n : Nat} (p : Fin n → Bool) : Bool := (List.ofFn p).all id

/-- The lowest index below `n` that meets `p`. -/
def firstFin {n : Nat} (p : Fin n → Bool) : Option (Fin n) := (List.finRange n).find? p

/-- `f` applied for each index below `n`, lowest first. -/
def overFin {σ : Type} (n : Nat) (f : Fin n → σ → σ) (s : σ) : σ := (List.finRange n).foldl (fun s i => f i s) s

end Sys2Proof
end

