-- ==== Sys2Proof/Config.lean ====
section
/-! DEFINITION. What the manual fixes for every SB440 as plain numbers, and the two values it leaves open,
as constants without a body: nothing in Lean can evaluate them, so a theorem holds whatever they are. -/

namespace Sys2Proof.Config

/-- Largest inventory, space right and gas-in-place, kWh (00_scope.md, Units; R79, R137). -/
def maxInventory : Nat := 4000000000

/-- Largest hourly quantity, rate right, capacity setting and hourly energy (00_scope.md, Units; R55). -/
def maxRate : Nat := 100000000

/-- Number of hours the day numbers span: 24 × 65,536 (R6). -/
def hourSpan : Nat := 1572864

/-- Forward distance above which a set hour lies in or before the last closed hour (R7). -/
def halfSpan : Nat := 786432

/-- Records the hour history holds (R186). -/
def historyLength : Nat := 48

/-- Largest number of field bytes of a frame (R194, R196). -/
def maxFields : Nat := 62

/-- Bytes in one piece of a read image (R199). -/
def pieceLength : Nat := 58

/-- Largest report (R199). -/
def maxReport : Nat := 928

/-- Which of the condition changes that fall together in one event the CDT takes next: R64 lets them be
taken in either order and fixes none. Log entry 4. -/
opaque reportOrder : Nat → Nat

/-- What follows the elapsed time in a report of a channel that the slot does not have: R199 admits the
selector, R39 gives no value. Log entry 5. -/
opaque missingChannelReport : Nat → List Byte

end Sys2Proof.Config
end

