-- ==== Sys2Proof/Syntax.lean ====
section
/-! DEFINITION. The commands: one constructor for each row of spec/opcode_table.json. A request carries the
port it came on and its field bytes as they stand in the frame (R194, R206), so that every frame of the
request's code is a command. An event carries what the plant or the line brings with it: a unit, a
level, the bytes received. -/

namespace Sys2Proof

/-- The two ports (00_scope.md). -/
inductive Port
  | ops   -- Operations
  | com   -- Commercial
  deriving DecidableEq, Repr

/-- The discrete input lines whose levels a reset takes without waiting (R97, R117). -/
structure Lines where
  /-- Running feedback of U1 to U4. -/
  feedback : Vector Bool 4
  /-- Position inputs I0 to I3 of D1 and D2. -/
  inputs : Vector (Vector Bool 4) 2
  deriving DecidableEq, Repr

/-- Why the part is held in reset (R202). -/
inductive HoldCause
  /-- Main power is lost; the mark says that the retention supply had failed, so that retained items are
  lost with it (R201). -/
  | powerLost (retentionFailed : Bool)
  /-- The reset pin is held low. -/
  | pinLow
  deriving DecidableEq, Repr

/-- One command of the part: a request of a port, a port transaction that is no request, a reset, a step
of time, or an event of the field line, of a discrete line or of a timer. -/
inductive Instr
  | setClock (port : Port) (fields : List Byte)
  | trimClock (port : Port) (fields : List Byte)
  | setFieldLine (port : Port) (fields : List Byte)
  | setSlot (port : Port) (fields : List Byte)
  | enableSlot (port : Port) (fields : List Byte)
  | disableSlot (port : Port) (fields : List Byte)
  | writeScript (port : Port) (fields : List Byte)
  | setPoint (port : Port) (fields : List Byte)
  | setBeta (port : Port) (fields : List Byte)
  | setCv (port : Port) (fields : List Byte)
  | ackConditions (port : Port) (fields : List Byte)
  | setDerateTable (port : Port) (fields : List Byte)
  | setAlert (port : Port) (fields : List Byte)
  | readEvents (port : Port) (fields : List Byte)
  | setCavern (port : Port) (fields : List Byte)
  | setCavernInventory (port : Port) (fields : List Byte)
  | setSite (port : Port) (fields : List Byte)
  | setDuty (port : Port) (fields : List Byte)
  | setUnit (port : Port) (fields : List Byte)
  | resetUnit (port : Port) (fields : List Byte)
  | writeStep (port : Port) (fields : List Byte)
  | selectBank (port : Port) (fields : List Byte)
  | setTrain (port : Port) (fields : List Byte)
  | resetTrain (port : Port) (fields : List Byte)
  | openAccount (port : Port) (fields : List Byte)
  | setRights (port : Port) (fields : List Byte)
  | closeAccount (port : Port) (fields : List Byte)
  | transfer (port : Port) (fields : List Byte)
  | settleSuspense (port : Port) (fields : List Byte)
  | nominate (port : Port) (fields : List Byte)
  | nominateDay (port : Port) (fields : List Byte)
  | nominateRest (port : Port) (fields : List Byte)
  | cancelNomination (port : Port) (fields : List Byte)
  | setLead (port : Port) (fields : List Byte)
  | setRatchet (port : Port) (fields : List Byte)
  | setAllocation (port : Port) (fields : List Byte)
  | read (port : Port) (fields : List Byte)
  /-- RESET-PART; `lines` are the levels the reset finds on the discrete inputs. -/
  | resetPart (port : Port) (fields : List Byte) (lines : Lines)
  /-- A request frame whose length byte is `length` and whose field bytes are `fields`. -/
  | unknownRequest (port : Port) (code : Byte) (length : Byte) (fields : List Byte)
  /-- A transaction that is no request and no collect; `spansReset` says that its select was asserted when a
  reset was taken or while the reset pin was held (R193). -/
  | ignoredTransaction (port : Port) (received : List Byte) (spansReset : Bool)
  /-- A collect transaction of `bytes` whole bytes, its first byte 0x00 among them (R196). -/
  | collect (port : Port) (bytes : Nat)
  | heldInReset (cause : HoldCause)
  | powerOn (lines : Lines)
  /-- The reset pin is released after `lowMicros` microseconds. -/
  | pin (lowMicros : Nat) (lines : Lines)
  | timeBaseStep
  | hourBoundary
  | firmPoint
  | lineEngineTake
  | requestTransmitted
  /-- `received` are the bytes taken since the request ended, the deciding frame's last byte the last. -/
  | dataReply (received : List Byte)
  | doneReply (received : List Byte)
  | errorReply (received : List Byte)
  | badReplyFrame (received : List Byte)
  | replyWindowExpiry
  | changeoverMinimumExpiry
  | changeoverLimitExpiry
  | feedbackChange (unit : Fin 4) (level : Bool)
  | startTimeout (unit : Fin 4)
  | stopTimeout (unit : Fin 4)
  | cooldownExpiry (unit : Fin 4)
  | startListExpiry (unit : Fin 4)
  | positionInputChange (train : Fin 2) (input : Fin 4) (level : Bool)
  | stepTimeExpiry (train : Fin 2)
  | dwellExpiry (train : Fin 2)
  | inputTimeout (train : Fin 2)
  | strokeTimeout (train : Fin 2)
  deriving DecidableEq, Repr

end Sys2Proof
end

