-- ==== Sys2Proof/Decode.lean ====
section
/-! DEFINITION. From the bytes of a port transaction to the command they make (R193, R194, R195 check 1, the summary
table of 11_ports_and_requests.md), and back; and how many field bytes each request has (R195 check 2,
R206). No row of spec/opcode_table.json gives bits. -/

namespace Sys2Proof

/-- Byte `i` of the field bytes as a number; 0 past their end. -/
def byteAt (fields : List Byte) (i : Nat) : Nat := (fields.getD i 0).toNat

/-- The number in the `length` bytes from `start`, most significant byte first (R206). -/
def num (fields : List Byte) (start length : Nat) : Nat :=
  (List.range length).foldl (fun acc i => acc * 256 + byteAt fields (start + i)) 0

/-- Bytes of the selector of a READ item class; none for a class outside the table of R200. -/
def selectorLength (itemClass : Nat) : Option Nat :=
  match itemClass with
  | 1 | 2 | 7 | 8 | 10 | 12 | 14 | 19 | 22 | 24 | 25 => some 0
  | 3 | 6 | 11 | 13 | 15 | 17 => some 1
  | 4 | 5 | 9 | 16 => some 2
  | 18 | 21 => some 3
  | 20 => some 4
  | 23 => some 5
  | _ => none

/-- What is known of the field bytes of a request code: that no request has the code, that the request has no layout
for what its own first bytes say, or the number of field bytes it must have. -/
inductive Layout
  | noRequest
  | noLayout
  | length (n : Nat)
  deriving DecidableEq, Repr

/-- The number of field bytes of each request, from the fields its entry names and the encoding of R206; where the
request carries a count byte, the number that count implies (R195 check 2). -/
def layoutOf (code : Nat) (fields : List Byte) : Layout :=
  match code with
  | 0x10 => .length 7
  | 0x11 => .length 1
  | 0x20 => .length 1
  | 0x21 => .length (29 + 3 * byteAt fields 5)
  | 0x22 => .length 1
  | 0x23 => .length 1
  | 0x24 => .length (2 + 4 * byteAt fields 1)
  | 0x30 => .length 11
  | 0x31 => .length 8
  | 0x32 => .length 5
  | 0x40 => .length (1 + 3 * byteAt fields 0)
  | 0x41 => .length 14
  | 0x42 => .length 5
  | 0x43 => .length 0
  | 0x50 => .length 16
  | 0x51 => .length 5
  | 0x52 => .length 28
  | 0x60 => .length 8
  | 0x61 => .length 2
  | 0x62 => .length 1
  | 0x70 => .length 19
  | 0x71 => .length 2
  | 0x72 => .length 12
  | 0x73 => .length 1
  | 0x80 => .length 15
  | 0x81 => .length 13
  | 0x82 => .length 1
  | 0x83 => .length 6
  | 0x84 => .length 7
  | 0x90 => .length 9
  | 0x91 => .length 6
  | 0x92 => .length 5
  | 0x93 => .length 5
  | 0x94 => .length 1
  | 0x95 => .length (2 + 4 * byteAt fields 1)
  | 0xA0 => .length 1
  | 0xB0 =>
    match selectorLength (byteAt fields 0) with
    | some n => .length (2 + n)
    | none => .noLayout
  | 0xB1 => .length 0
  | _ => .noRequest

/-- Do the field bytes have the length their request's layout gives (R195 check 2)? -/
def fits (code : Nat) (fields : List Byte) : Bool := layoutOf code fields = .length fields.length

/-- The request a code names, by the summary of requests; `lines` are the levels a reset finds. -/
def requestOf (port : Port) (code : Nat) (fields : List Byte) (lines : Lines) : Option Instr :=
  match code with
  | 0x10 => some (.setClock port fields)
  | 0x11 => some (.trimClock port fields)
  | 0x20 => some (.setFieldLine port fields)
  | 0x21 => some (.setSlot port fields)
  | 0x22 => some (.enableSlot port fields)
  | 0x23 => some (.disableSlot port fields)
  | 0x24 => some (.writeScript port fields)
  | 0x30 => some (.setPoint port fields)
  | 0x31 => some (.setBeta port fields)
  | 0x32 => some (.setCv port fields)
  | 0x40 => some (.ackConditions port fields)
  | 0x41 => some (.setDerateTable port fields)
  | 0x42 => some (.setAlert port fields)
  | 0x43 => some (.readEvents port fields)
  | 0x50 => some (.setCavern port fields)
  | 0x51 => some (.setCavernInventory port fields)
  | 0x52 => some (.setSite port fields)
  | 0x60 => some (.setDuty port fields)
  | 0x61 => some (.setUnit port fields)
  | 0x62 => some (.resetUnit port fields)
  | 0x70 => some (.writeStep port fields)
  | 0x71 => some (.selectBank port fields)
  | 0x72 => some (.setTrain port fields)
  | 0x73 => some (.resetTrain port fields)
  | 0x80 => some (.openAccount port fields)
  | 0x81 => some (.setRights port fields)
  | 0x82 => some (.closeAccount port fields)
  | 0x83 => some (.transfer port fields)
  | 0x84 => some (.settleSuspense port fields)
  | 0x90 => some (.nominate port fields)
  | 0x91 => some (.nominateDay port fields)
  | 0x92 => some (.nominateRest port fields)
  | 0x93 => some (.cancelNomination port fields)
  | 0x94 => some (.setLead port fields)
  | 0x95 => some (.setRatchet port fields)
  | 0xA0 => some (.setAllocation port fields)
  | 0xB0 => some (.read port fields)
  | 0xB1 => some (.resetPart port fields lines)
  | _ => none

/-- The command that a whole port transaction makes, from the bytes received in it (R193, R194). -/
def transactionOf (port : Port) (received : List Byte) (lines : Lines) : Instr :=
  match received with
  | [] => .ignoredTransaction port [] false
  | first :: rest =>
    if first = 0 then .collect port (rest.length + 1)
    else
      match rest with
      | [] => .ignoredTransaction port [first] false
      | length :: fields =>
        if length.toNat ≤ Config.maxFields ∧ fields.length = length.toNat then
          (requestOf port first.toNat fields lines).getD (.unknownRequest port first length fields)
        else .unknownRequest port first length fields

/-- The port, code and fields of a request command. -/
def requestParts : Instr → Option (Port × Byte × List Byte)
  | .setClock p fs => some (p, 0x10, fs)
  | .trimClock p fs => some (p, 0x11, fs)
  | .setFieldLine p fs => some (p, 0x20, fs)
  | .setSlot p fs => some (p, 0x21, fs)
  | .enableSlot p fs => some (p, 0x22, fs)
  | .disableSlot p fs => some (p, 0x23, fs)
  | .writeScript p fs => some (p, 0x24, fs)
  | .setPoint p fs => some (p, 0x30, fs)
  | .setBeta p fs => some (p, 0x31, fs)
  | .setCv p fs => some (p, 0x32, fs)
  | .ackConditions p fs => some (p, 0x40, fs)
  | .setDerateTable p fs => some (p, 0x41, fs)
  | .setAlert p fs => some (p, 0x42, fs)
  | .readEvents p fs => some (p, 0x43, fs)
  | .setCavern p fs => some (p, 0x50, fs)
  | .setCavernInventory p fs => some (p, 0x51, fs)
  | .setSite p fs => some (p, 0x52, fs)
  | .setDuty p fs => some (p, 0x60, fs)
  | .setUnit p fs => some (p, 0x61, fs)
  | .resetUnit p fs => some (p, 0x62, fs)
  | .writeStep p fs => some (p, 0x70, fs)
  | .selectBank p fs => some (p, 0x71, fs)
  | .setTrain p fs => some (p, 0x72, fs)
  | .resetTrain p fs => some (p, 0x73, fs)
  | .openAccount p fs => some (p, 0x80, fs)
  | .setRights p fs => some (p, 0x81, fs)
  | .closeAccount p fs => some (p, 0x82, fs)
  | .transfer p fs => some (p, 0x83, fs)
  | .settleSuspense p fs => some (p, 0x84, fs)
  | .nominate p fs => some (p, 0x90, fs)
  | .nominateDay p fs => some (p, 0x91, fs)
  | .nominateRest p fs => some (p, 0x92, fs)
  | .cancelNomination p fs => some (p, 0x93, fs)
  | .setLead p fs => some (p, 0x94, fs)
  | .setRatchet p fs => some (p, 0x95, fs)
  | .setAllocation p fs => some (p, 0xA0, fs)
  | .read p fs => some (p, 0xB0, fs)
  | .resetPart p fs _ => some (p, 0xB1, fs)
  | _ => none

/-- The bytes a master sends for a request or an unknown request: code, length, fields (R206). -/
def transactionBytes (i : Instr) : Option (Port × List Byte) :=
  match i with
  | .unknownRequest p code length fields => some (p, code :: length :: fields)
  | .ignoredTransaction p received false => some (p, received)
  | i => (requestParts i).map fun (p, code, fields) => (p, code :: BitVec.ofNat 8 fields.length :: fields)

/-- The command that a word spells by the table's bits: no row of spec/opcode_table.json gives any. -/
def decodeTableWord (_nbits _w : Nat) : Option Instr := none

end Sys2Proof
end

