-- ==== Sys2Proof/Machine/State.lean ====
section
/-! DEFINITION. The state of the part as plain data, block by block in the order of the manual's block overview
(00_scope.md), and the state right after the first power-on. An output line is no field: each follows the
state at once, and Machine/Outputs.lean computes it. -/

namespace Sys2Proof.Machine

/-! ### Gas-day clock (01_the_gas_day_clock.md) -/

/-- A (day, hour) pair (00_scope.md, Gas day and hours). -/
structure HourId where
  day : Nat
  hour : Nat
  deriving DecidableEq, Repr

/-- R2. -/
inductive ClockState
  | unset
  | running
  deriving DecidableEq, Repr

/-- What the GDC holds beside the counts (R2, R6, R12). -/
structure Clock where
  state : ClockState
  day : Nat
  seconds : Nat
  tenths : Nat
  lastClosed : Option HourId
  trimmed : Bool
  deriving DecidableEq, Repr

/-! ### Field scan unit (02_field_line_and_device_slots.md) -/

/-- Channel format (R19, R32). -/
inductive Format
  | u16
  | s16
  | u8
  | u32
  deriving DecidableEq, Repr

/-- How one channel is decoded from the read block (R19, R32). -/
structure ChannelSetting where
  offset : Nat
  format : Format
  swap : Bool
  deriving DecidableEq, Repr

/-- R34. -/
inductive Zone
  | outside
  | inside
  deriving DecidableEq, Repr

/-- R19, R34. -/
structure Threshold where
  channel : Nat
  upper : Int
  lower : Int
  zone : Zone
  deriving DecidableEq, Repr

/-- R19. -/
inductive PollMode
  | periodic
  | readyGated
  | reinitEach
  deriving DecidableEq, Repr

/-- The settings of R19 other than the enabled flag, in the table's order. -/
structure SlotSettings where
  address : Nat
  startRegister : Nat
  wordCount : Nat
  channels : List ChannelSetting
  pollMode : PollMode
  statusRegister : Nat
  readyBit : Nat
  readyLimit : Nat
  period : Nat
  settle : Nat
  retries : Nat
  absentLimit : Nat
  scriptStart : Nat
  scriptCount : Nat
  threshold : Option Threshold
  deriving DecidableEq, Repr

/-- R24. -/
inductive SlotState
  | disabled
  | init
  | settling
  | active
  | absent
  | faulted
  deriving DecidableEq, Repr

/-- Quality of a channel value (R33): NONE, GOOD, HELD. -/
inductive Quality
  | noReading
  | good
  | held
  deriving DecidableEq, Repr

/-- A channel record (R33); `lastGood` is on the fine count. -/
structure Channel where
  value : Int
  quality : Quality
  lastGood : Option Nat
  deriving DecidableEq, Repr

/-- Phase of a visit (R24, R30). -/
inductive Phase
  | initWrite (k : Nat)
  | readyCheck
  | read
  deriving DecidableEq, Repr

/-- A device slot (R19, R24, R28, R31, R33, R34). `recovered` says that the visit under way began while the slot
was ABSENT, `firstReading` that no good reading has been taken since ENABLE-SLOT or SET-SLOT: a reading
carries the recovered mark of R28 when either holds. -/
structure Slot where
  enabled : Bool
  settings : SlotSettings
  state : SlotState
  failed : Nat
  overruns : Nat
  lastError : Nat
  recovered : Bool
  firstReading : Bool
  scheduled : Option Nat
  channels : Vector Channel 4
  thresholdOn : Bool
  deriving DecidableEq, Repr

/-- An entry of the poll queue (R30); `due` is on the fine count. -/
structure Entry where
  slot : Fin 16
  due : Nat
  phase : Phase
  tries : Nat
  checks : Nat
  deriving DecidableEq, Repr

/-- What the engine sent: the fields of a READ or a WRITE frame (R14, R16). -/
inductive LineRequest
  | read (address start count : Nat)
  | write (address register value : Nat)
  deriving DecidableEq, Repr

/-- The transaction in flight (R15, R16, R17, R18). `windowEnd` is absent while the request is still being
transmitted. -/
structure InFlight where
  entry : Entry
  request : LineRequest
  window : Nat
  windowEnd : Option Nat
  discarded : Bool
  deriving DecidableEq, Repr

/-- State of the line engine (R16). -/
inductive Engine
  | idle
  | awaitReply (flight : InFlight)
  deriving DecidableEq, Repr

/-- An entry of the script store (R23). -/
structure ScriptEntry where
  register : Nat
  value : Nat
  deriving DecidableEq, Repr

/-- What the FSU owns. `quietAt` is the deadline of the 2 ms quiet test (R1, R16). -/
structure Fsu where
  window : Nat
  slots : Vector Slot 16
  script : Vector ScriptEntry 64
  queue : List Entry
  engine : Engine
  quietAt : Nat
  deriving DecidableEq, Repr

/-! ### Metering unit (03_metering_points_and_base_volume.md) -/

/-- One direction of a metering point (R44). -/
structure Direction where
  baseline : Option Nat
  rate : Nat
  fresh : Bool
  implausible : Bool
  hourVolume : Nat
  unclocked : Nat
  deriving DecidableEq, Repr

/-- A metering point (R41, R44). M3 has no reverse direction (R40): its `reverse` record is never used. -/
structure Point where
  slot : Option (Fin 16)
  weight : Nat
  ceiling : Nat
  capacity : Nat
  forward : Direction
  reverse : Direction
  readingTime : Option Nat
  gap : Option Nat
  estimatedTenths : Nat
  deriving DecidableEq, Repr

/-- Flags of an hour kept by the MTU (R57). -/
structure MeterFlags where
  estimated : Bool
  cvHeld : Bool
  clamped : Bool
  rebased : Bool
  restart : Bool
  deriving DecidableEq, Repr

/-- A channel of a device slot named by a binding (R37). -/
structure Binding where
  slot : Fin 16
  channel : Nat
  deriving DecidableEq, Repr

/-- What the MTU owns (R41, R43, R44, R56). -/
structure Mtu where
  points : Vector Point 7
  beta : Vector Nat 4
  cvDefault : Nat
  cvSource : Option Binding
  flags : MeterFlags
  unclockedFlags : MeterFlags
  latchedCv : Nat
  startTime : Option Nat
  deriving DecidableEq, Repr

/-! ### Condition table and derate unit (04_conditions_and_derating.md) -/

/-- An entry of the condition table (R63). -/
structure Condition where
  level : Nat
  active : Bool
  pendingOps : Bool
  pendingCom : Bool
  deriving DecidableEq, Repr

/-- One port's alert settings and event flags, the flags in the order of R74 (R73, R74). -/
structure Alert where
  threshold : Nat
  mask : Vector Bool 4
  flags : Vector Bool 4
  deriving DecidableEq, Repr

/-- The percentages of one derate class (R71). -/
structure Percent where
  injection : Nat
  withdrawal : Nat
  deriving DecidableEq, Repr

/-- What the CDT owns; `derate` holds classes 1 to 7 (R63, R69, R71, R73, R74). -/
structure Cdt where
  conditions : Vector Condition 56
  derate : Vector Percent 7
  derateClass : Nat
  lead : Option (Fin 56)
  ops : Alert
  com : Alert
  deriving DecidableEq, Repr

/-! ### Cavern table and direction controller (05_caverns_and_flow_direction.md) -/

/-- R82. -/
inductive Band
  | normal
  | high
  | low
  deriving DecidableEq, Repr

/-- A cavern record (R79). -/
structure Cavern where
  inService : Bool
  pmin : Nat
  pmax : Nat
  hysteresis : Nat
  injectionRate : Nat
  withdrawalRate : Nat
  gas : Nat
  band : Band
  deriving DecidableEq, Repr

/-- The site settings (R87). -/
structure SiteSettings where
  injectionCapacity : Nat
  withdrawalCapacity : Nat
  quietThreshold : Nat
  changeoverMinimum : Nat
  changeoverLimit : Nat
  unitRate : Nat
  trainRate : Nat
  tolerance : Nat
  deriving DecidableEq, Repr

/-- A direction in which gas flows. -/
inductive Flow
  | injecting
  | withdrawing
  deriving DecidableEq, Repr

/-- What the DIR holds in CHANGEOVER; the old direction is the other of the two (R88). -/
structure Changeover where
  target : Flow
  start : Nat
  overrun : Bool
  deriving DecidableEq, Repr

/-- The site direction (R88). -/
inductive SiteDirection
  | standby
  | injecting
  | withdrawing
  | changeover (record : Changeover)
  deriving DecidableEq, Repr

/-- What the DIR owns. -/
structure Dir where
  caverns : Vector Cavern 4
  site : SiteSettings
  direction : SiteDirection
  deriving DecidableEq, Repr

/-! ### Compressor duty unit (06_compressor_duty.md) -/

/-- Stop destination (R95). -/
inductive StopDestination
  | cooldown
  | out
  deriving DecidableEq, Repr

/-- State of a compressor unit, with the stop destination that STOPPING holds (R95, R96). The faulted mark is set
exactly in FAULTED. -/
inductive UnitState
  | out
  | faulted
  | cooldown
  | ready
  | starting
  | running
  | stopping (destination : StopDestination)
  deriving DecidableEq, Repr

/-- R102. -/
inductive UnitCause
  | noCause
  | startFailed
  | trip
  | stopFailed
  | unexpectedRun
  deriving DecidableEq, Repr

/-- A unit record (R95). `cutStart` is the model's own: the fine count at which a change of direction last stopped the unit out of
STARTING with its feedback false, so that the last paragraph of R108 can be told from R97. Log entry 43. -/
structure UnitRecord where
  inService : Bool
  state : UnitState
  cause : UnitCause
  runSeconds : Nat
  totalStarts : Nat
  attempts : Nat
  startList : List Nat
  deadline : Option Nat
  runTenths : Nat
  feedback : Bool
  cutStart : Option Nat
  deriving DecidableEq, Repr

/-- The duty settings (R109). -/
structure DutySettings where
  maxStarts : Nat
  cooldown : Nat
  startTimeout : Nat
  stopTimeout : Nat
  startRetries : Nat
  deriving DecidableEq, Repr

/-- Reason of a shortfall (R106). -/
inductive ShortfallReason
  | noShortfall
  | startInProgress
  | noEligibleUnit
  deriving DecidableEq, Repr

/-- What the CPD owns (R95, R106, R109). -/
structure Cpd where
  units : Vector UnitRecord 4
  settings : DutySettings
  demand : Nat
  shortfall : Nat
  reason : ShortfallReason
  deriving DecidableEq, Repr

/-! ### Dryer sequencer (07_dryer_trains.md) -/

/-- State of a train (R116). -/
inductive TrainState
  | off
  | parked
  | running
  | waitInput
  | faulted
  deriving DecidableEq, Repr

/-- R115, R126. -/
inductive TrainCause
  | noCause
  | inputTimeout
  | strokeTimeout
  deriving DecidableEq, Repr

/-- R115. -/
inductive Tower
  | a
  | b
  deriving DecidableEq, Repr

/-- Valves of one tower in a step: open or closed (R118). -/
structure Pattern where
  inlet : Bool
  outlet : Bool
  regeneration : Bool
  deriving DecidableEq, Repr

/-- How a step ends (R118). -/
inductive Advance
  | time
  | input
  | timeThenInput
  deriving DecidableEq, Repr

/-- A step record (R118); `longUnit` is the 16 s unit. -/
structure StepRecord where
  onStream : Pattern
  offStream : Pattern
  heater : Bool
  cooler : Bool
  advance : Advance
  input : Fin 4
  sense : Bool
  duration : Nat
  longUnit : Bool
  swap : Bool
  adsorbExit : Bool
  deriving DecidableEq, Repr

/-- An entry of a step bank (R118): EMPTY, WRITTEN or END. -/
inductive BankEntry
  | empty
  | written (step : StepRecord)
  | endMark
  deriving DecidableEq, Repr

/-- A train (R115 to R133). The faulted mark is set exactly in FAULTED. Bank 1 is bank 0 here, Bank 2 is bank 1. -/
structure Train where
  enabled : Bool
  binding : Option Binding
  breakthrough : Int
  specLimit : Int
  hysteresis : Nat
  standby : Bool
  bank : Fin 2
  pendingBank : Option (Fin 2)
  tower : Tower
  cause : TrainCause
  faultStep : Nat
  state : TrainState
  stepIndex : Nat
  timeDeadline : Option Nat
  dwellDeadline : Option Nat
  timeoutDeadline : Option Nat
  strokeDeadline : Option Nat
  parkRequest : Bool
  inputs : Vector Bool 4
  offSpec : Bool
  cycles : Nat
  earlyAdvances : Nat
  offSpecTenths : Nat
  deriving DecidableEq, Repr

/-- What the DSQ owns. -/
structure Dsq where
  trains : Vector Train 2
  banks : Vector (Vector BankEntry 24) 2
  deriving DecidableEq, Repr

/-! ### Account table (08_shipper_accounts.md) -/

/-- R138. -/
inductive AccountState
  | vacant
  | active
  | closing
  deriving DecidableEq, Repr

/-- A shipper slot (R137). -/
structure Account where
  state : AccountState
  code : Option Nat
  space : Nat
  injectionRight : Nat
  withdrawalRight : Nat
  inventory : Int
  deriving DecidableEq, Repr

/-- What the ACT owns (R137, R139). -/
structure Act where
  slots : Vector Account 16
  book : Int
  suspense : Int
  deriving DecidableEq, Repr

/-! ### Nomination and firming unit (09_nominations_and_firming.md) -/

/-- A shipper's hour entry (R153). -/
structure HourEntry where
  requested : Option Int
  confirmed : Option Int
  allocated : Option Int
  fuel : Option Int
  reduced : Bool
  curtailed : Bool
  refirmed : Bool
  deriving DecidableEq, Repr

/-- Direction of an hour's confirmed net (R154). -/
inductive NetDirection
  | injecting
  | withdrawing
  | standby
  deriving DecidableEq, Repr

/-- A record of the site hour table (R154). -/
structure SiteHour where
  firmed : Bool
  injectionCapacity : Nat
  withdrawalCapacity : Nat
  net : Int
  direction : NetDirection
  curtailed : Bool
  refirmed : Bool
  closed : Bool
  deriving DecidableEq, Repr

/-- One hour of the three rows: its site record and the sixteen shippers' entries. -/
structure HourCell where
  site : SiteHour
  entries : Vector HourEntry 16
  deriving DecidableEq, Repr

/-- A point of a ratchet table (R162). -/
structure RatchetPoint where
  fill : Nat
  rate : Nat
  deriving DecidableEq, Repr

/-- What the NFU owns. The three rows are one table of 72 hours: yesterday 0..23, today 24..47, tomorrow 48..71
(R153, R154, R155). -/
structure Nfu where
  hours : Vector HourCell 72
  todayDay : Option Nat
  lead : Nat
  pendingLead : Option Nat
  injectionRatchet : List RatchetPoint
  withdrawalRatchet : List RatchetPoint
  deriving DecidableEq, Repr

/-! ### Close and allocation unit (10_hour_close_and_allocation.md) -/

/-- R189. -/
inductive AllocationMode
  | asNominated
  | proRata
  deriving DecidableEq, Repr

/-- A record of the hour history (R185). -/
structure HourRecord where
  hour : HourId
  energyIn : Nat
  energyOut : Nat
  energyFuel : Nat
  net : Int
  cavernNets : Vector Int 4
  difference : Int
  cv : Nat
  mode : AllocationMode
  suspensePosting : Int
  fuelToSuspense : Int
  estimatedSeconds : Nat
  offSpecSeconds : Vector Nat 2
  flags : MeterFlags
  offSpec : Bool
  curtailed : Bool
  refirmed : Bool
  trimmed : Bool
  outage : Bool
  deriving DecidableEq, Repr

/-- What the CAU owns; the history is oldest first (R186, R189). -/
structure Cau where
  mode : AllocationMode
  history : List HourRecord
  deriving DecidableEq, Repr

/-! ### Port interface (11_ports_and_requests.md) -/

/-- Status of a response (R197). PARTIAL is written `part`. -/
inductive Status
  | ok
  | part
  | malformed
  | unknown
  | owner
  | state
  | range
  | late
  | clock
  | inUse
  | limit
  deriving DecidableEq, Repr

/-- A response frame: a status and its field bytes; the length byte is their number (R196). -/
structure Response where
  status : Status
  fields : List Byte
  deriving DecidableEq, Repr

/-- A read image (R199). -/
structure ReadImage where
  itemClass : Nat
  selector : List Byte
  report : List Byte
  deriving DecidableEq, Repr

/-- One port: its response buffer (EMPTY when absent), its read image, and the bytes that the part drove on
data out in the port's latest transaction (R193, R196, R200). The last is the model's own record. -/
structure PortState where
  response : Option Response
  image : Option ReadImage
  dataOut : List Byte
  deriving DecidableEq, Repr

/-- R204. -/
inductive ResetKind
  | powerOn
  | pin
  | command
  deriving DecidableEq, Repr

/-- What the PIF owns (R196, R200, R204), whether the part is held in reset (R202), and whether retained
memory still holds what was last written (R201). -/
structure Pif where
  ops : PortState
  com : PortState
  resetKind : ResetKind
  retentionLost : Bool
  resetCount : Nat
  powerLost : Bool
  pinLow : Bool
  retainedIntact : Bool
  deriving DecidableEq, Repr

/-! ### The whole part -/

/-- The part. `fine` is the 1 ms count of R1; the elapsed time base is `fine / 100`. `freeReads` counts the
uses of `Config.reportOrder` and `Config.missingChannelReport`, and `pending` holds the commands that wait,
first in first out: both are the model's own. -/
structure State where
  fine : Nat
  clock : Clock
  fsu : Fsu
  mtu : Mtu
  cdt : Cdt
  dir : Dir
  cpd : Cpd
  dsq : Dsq
  act : Act
  nfu : Nfu
  cau : Cau
  pif : Pif
  freeReads : Nat
  pending : List Instr
  deriving DecidableEq, Repr

/-- No rule of the manual stops the part: a command it does not take is answered with a status or changes
nothing. No meaning raises a fault. -/
inductive Fault
  deriving DecidableEq, Repr

/-- Why a command has no meaning. -/
inductive Refusal
  /-- Raised by exec alone, for a row that has no meaning yet (safe: the machine stops). No arm raises it. -/
  | notModelled (mnemonic : String)
  deriving DecidableEq, Repr

/-! ### After a reset that finds retained memory lost -/

/-- R19, last column. -/
def SlotSettings.initial (n : Fin 16) : SlotSettings :=
  { address := n.val + 1, startRegister := 0, wordCount := 1, channels := [⟨0, .u16, false⟩], pollMode := .periodic,
    statusRegister := 0, readyBit := 0, readyLimit := 5, period := 10, settle := 0, retries := 1, absentLimit := 3,
    scriptStart := 0, scriptCount := 0, threshold := none }

/-- R33: NONE, value 0, no time of last good reading. -/
def Channel.initial : Channel := ⟨0, .noReading, none⟩

/-- R19, R38. -/
def Slot.initial (n : Fin 16) : Slot :=
  { enabled := false, settings := SlotSettings.initial n, state := .disabled, failed := 0, overruns := 0, lastError := 0,
    recovered := false, firstReading := false, scheduled := none, channels := fill 4 Channel.initial, thresholdOn := false }

/-- R15, R23, R38. -/
def Fsu.initial : Fsu :=
  { window := 50, slots := tab Slot.initial, script := fill 64 ⟨0, 0⟩, queue := [], engine := .idle, quietAt := 0 }

/-- R44, last column. -/
def Direction.initial : Direction := ⟨none, 0, false, false, 0, 0⟩

/-- R41, R44. -/
def Point.initial : Point :=
  { slot := none, weight := 1000, ceiling := 65535, capacity := 0, forward := Direction.initial, reverse := Direction.initial,
    readingTime := none, gap := none, estimatedTenths := 0 }

/-- No flag set. -/
def MeterFlags.clear : MeterFlags := ⟨false, false, false, false, false⟩

/-- R43, R61. -/
def Mtu.initial : Mtu :=
  { points := fill 7 Point.initial, beta := ⟨#[262, 230, 201, 176], rfl⟩, cvDefault := 11000, cvSource := none,
    flags := MeterFlags.clear, unclockedFlags := MeterFlags.clear, latchedCv := 11000, startTime := none }

/-- R73, R74. -/
def Alert.initial : Alert := ⟨1, fill 4 true, fill 4 false⟩

/-- The condition table after retention loss: condition 53 Active and pending at level 7, condition 54 Active at
level 0, the others inactive at level 0 (R63, R77, R2). -/
def Condition.initial (n : Fin 56) : Condition :=
  if n = 53 then ⟨7, true, true, true⟩ else ⟨0, n = 54, false, false⟩

/-- R77, after retention loss. -/
def Cdt.initial : Cdt :=
  { conditions := tab Condition.initial, derate := put (fill 7 ⟨100, 100⟩) 6 ⟨0, 0⟩, derateClass := 7, lead := some 53,
    ops := Alert.initial, com := Alert.initial }

/-- R79, R82, R85. -/
def Cavern.initial : Cavern := ⟨false, 5000, 20000, 200, 0, 0, 0, .normal⟩

/-- R87, R93. -/
def Dir.initial : Dir :=
  { caverns := fill 4 Cavern.initial, site := ⟨0, 0, 500, 600, 1800, 1000000, 0, 1000⟩, direction := .standby }

/-- R95, R113; the feedback line is taken as false. -/
def UnitRecord.initial : UnitRecord :=
  { inService := false, state := .out, cause := .noCause, runSeconds := 0, totalStarts := 0, attempts := 0, startList := [],
    deadline := none, runTenths := 0, feedback := false, cutStart := none }

/-- R109, R113. -/
def Cpd.initial : Cpd :=
  { units := fill 4 UnitRecord.initial, settings := ⟨3, 600, 120, 120, 1⟩, demand := 0, shortfall := 0, reason := .noShortfall }

/-- R115, R135; the position inputs are taken as false. -/
def Train.initial : Train :=
  { enabled := false, binding := none, breakthrough := -1500, specLimit := -800, hysteresis := 100, standby := false,
    bank := 0, pendingBank := none, tower := .a, cause := .noCause, faultStep := 0, state := .off, stepIndex := 0,
    timeDeadline := none, dwellDeadline := none, timeoutDeadline := none, strokeDeadline := none, parkRequest := false,
    inputs := fill 4 false, offSpec := false, cycles := 0, earlyAdvances := 0, offSpecTenths := 0 }

/-- R118, R135. -/
def Dsq.initial : Dsq := ⟨fill 2 Train.initial, fill 2 (fill 24 .empty)⟩

/-- A VACANT slot (R137, R138). -/
def Account.vacant : Account := ⟨.vacant, none, 0, 0, 0, 0⟩

/-- R137, R139. -/
def Act.initial : Act := ⟨fill 16 Account.vacant, 0, 0⟩

/-- A cleared hour entry (R153). -/
def HourEntry.clear : HourEntry := ⟨none, none, none, none, false, false, false⟩

/-- A cleared site record (R154). -/
def SiteHour.clear : SiteHour := ⟨false, 0, 0, 0, .standby, false, false, false⟩

/-- A cleared hour: the site record and every entry clear. -/
def HourCell.clear : HourCell := ⟨SiteHour.clear, fill 16 HourEntry.clear⟩

/-- R173, after retention loss. -/
def Nfu.initial : Nfu :=
  { hours := fill 72 HourCell.clear, todayDay := none, lead := 2, pendingLead := none,
    injectionRatchet := [⟨0, 1000⟩, ⟨1000, 1000⟩], withdrawalRatchet := [⟨0, 1000⟩, ⟨1000, 1000⟩] }

/-- R186, R189. -/
def Cau.initial : Cau := ⟨.asNominated, []⟩

/-- R205: buffer EMPTY, no image. -/
def PortState.initial : PortState := ⟨none, none, []⟩

/-- R204, R205. -/
def Pif.initial : Pif :=
  { ops := PortState.initial, com := PortState.initial, resetKind := .powerOn, retentionLost := true, resetCount := 1,
    powerLost := false, pinLow := false, retainedIntact := true }

/-- The part right after a power-on that found retained memory lost, as the first power-on of a part must
(R201), with every discrete input line low. Log entry 6. -/
def State.reset : State :=
  { fine := 0, clock := ⟨.unset, 0, 0, 0, none, false⟩, fsu := Fsu.initial, mtu := Mtu.initial, cdt := Cdt.initial,
    dir := Dir.initial, cpd := Cpd.initial, dsq := Dsq.initial, act := Act.initial, nfu := Nfu.initial, cau := Cau.initial,
    pif := Pif.initial, freeReads := 0, pending := [] }

end Sys2Proof.Machine
end

