-- ==== Sys2Proof/Machine/Ops.lean ====
section
/-! DEFINITION. The operations every block uses: rounding and holding counts, the two counts of time, the hour index
and the open hour, access to one record of a block, what a channel reads, and whether the part is held in
reset. -/

namespace Sys2Proof.Machine

/-! ### Numbers (00_scope.md, Rounding) -/

/-- Quotient rounded half up. -/
def roundDiv (a b : Nat) : Nat := (2 * a + b) / (2 * b)

/-- Quotient rounded up. -/
def ceilDiv (a b : Nat) : Nat := (a + b - 1) / b

/-- A count that holds at `limit` once it gets there. -/
def holdAdd (limit count n : Nat) : Nat := min limit (count + n)

/-- Largest value of a 64-bit unsigned accumulator (R44). -/
def maxVolume : Nat := 2 ^ 64 - 1

/-- Largest value of a 32-bit unsigned count (R44, R95). -/
def maxCount32 : Nat := 2 ^ 32 - 1

/-- Smallest and largest book inventory and suspense balance (R139). -/
def minTotal : Int := -(2 ^ 47)

@[inherit_doc minTotal]
def maxTotal : Int := 2 ^ 47 - 1

/-- A total carried past an end of its range goes round to the other end (R139). -/
def wrapTotal (z : Int) : Int := (z - minTotal) % (2 ^ 48 : Int) + minTotal

/-! ### The block a rule changes -/

def State.withClock (s : State) (x : Clock) : State := { s with clock := x }
def State.withFsu (s : State) (x : Fsu) : State := { s with fsu := x }
def State.withMtu (s : State) (x : Mtu) : State := { s with mtu := x }
def State.withCdt (s : State) (x : Cdt) : State := { s with cdt := x }
def State.withDir (s : State) (x : Dir) : State := { s with dir := x }
def State.withCpd (s : State) (x : Cpd) : State := { s with cpd := x }
def State.withDsq (s : State) (x : Dsq) : State := { s with dsq := x }
def State.withAct (s : State) (x : Act) : State := { s with act := x }
def State.withNfu (s : State) (x : Nfu) : State := { s with nfu := x }
def State.withCau (s : State) (x : Cau) : State := { s with cau := x }
def State.withPif (s : State) (x : Pif) : State := { s with pif := x }
def State.withFine (s : State) (x : Nat) : State := { s with fine := x }
def State.withFreeReads (s : State) (x : Nat) : State := { s with freeReads := x }
def State.withPending (s : State) (x : List Instr) : State := { s with pending := x }

/-- Device slot `n`. -/
def slotOf (s : State) (n : Fin 16) : Slot := nth s.fsu.slots n

/-- Device slot `n` changed by `f`. -/
def alterSlot (n : Fin 16) (f : Slot → Slot) (s : State) : State :=
  s.withFsu { s.fsu with slots := alter s.fsu.slots n f }

/-- Metering point `k`; M1 is point 0. -/
def pointOf (s : State) (k : Fin 7) : Point := nth s.mtu.points k

/-- Metering point `k` changed by `f`. -/
def alterPoint (k : Fin 7) (f : Point → Point) (s : State) : State :=
  s.withMtu { s.mtu with points := alter s.mtu.points k f }

/-- Cavern `k`; C1 is cavern 0. -/
def cavernOf (s : State) (k : Fin 4) : Cavern := nth s.dir.caverns k

/-- Cavern `k` changed by `f`. -/
def alterCavern (k : Fin 4) (f : Cavern → Cavern) (s : State) : State :=
  s.withDir { s.dir with caverns := alter s.dir.caverns k f }

/-- Compressor unit `u`; U1 is unit 0. -/
def unitOf (s : State) (u : Fin 4) : UnitRecord := nth s.cpd.units u

/-- Compressor unit `u` changed by `f`. -/
def alterUnit (u : Fin 4) (f : UnitRecord → UnitRecord) (s : State) : State :=
  s.withCpd { s.cpd with units := alter s.cpd.units u f }

/-- Dryer train `t`; D1 is train 0. -/
def trainOf (s : State) (t : Fin 2) : Train := nth s.dsq.trains t

/-- Dryer train `t` changed by `f`. -/
def alterTrain (t : Fin 2) (f : Train → Train) (s : State) : State :=
  s.withDsq { s.dsq with trains := alter s.dsq.trains t f }

/-- Shipper slot `a`. -/
def accountOf (s : State) (a : Fin 16) : Account := nth s.act.slots a

/-- Shipper slot `a` changed by `f`. -/
def alterAccount (a : Fin 16) (f : Account → Account) (s : State) : State :=
  s.withAct { s.act with slots := alter s.act.slots a f }

/-- The hour at position `p` of the three rows. -/
def hourOf (s : State) (p : Fin 72) : HourCell := nth s.nfu.hours p

/-- The hour at position `p` changed by `f`. -/
def alterHour (p : Fin 72) (f : HourCell → HourCell) (s : State) : State :=
  s.withNfu { s.nfu with hours := alter s.nfu.hours p f }

/-! ### Time (R1, R2, R6) -/

/-- The elapsed time base: the fine count divided by 100 and floored (R1). -/
def timeBase (s : State) : Nat := s.fine / 100

/-- Is the clock RUNNING (R2)? -/
def clockRunning (s : State) : Bool := s.clock.state = .running

/-- The hour after; from 65,535 the day goes to 0 (R3). -/
def HourId.next (h : HourId) : HourId :=
  if h.hour = 23 then ⟨(h.day + 1) % 65536, 0⟩ else ⟨h.day, h.hour + 1⟩

/-- The hour before, counting back across the day boundary. -/
def HourId.previous (h : HourId) : HourId :=
  if h.hour = 0 then ⟨(h.day + 65535) % 65536, 23⟩ else ⟨h.day, h.hour - 1⟩

/-- The hour index of R6. -/
def HourId.index (h : HourId) : Nat := 24 * h.day + h.hour

/-- The forward distance from one hour to another (R6). -/
def forwardDistance (a b : HourId) : Nat := (b.index + Config.hourSpan - a.index) % Config.hourSpan

/-- The hour in which gas-day time stands. -/
def clockHour (s : State) : HourId := ⟨s.clock.day, s.clock.seconds / 3600⟩

/-- The open hour while the clock is RUNNING: the hour after the last closed hour, to which the rows are aligned (R6).
It is the hour in which gas-day time stands, but for the instant in which time has reached an hour boundary
whose event is not yet taken. Log entry 7. -/
def openHour (s : State) : Option HourId :=
  if clockRunning s then
    match s.clock.lastClosed with
    | some h => some h.next
    | none => some (clockHour s)
  else none

/-- Has gas-day time passed into a later hour than the open one, so that an hour boundary is due (R4)? -/
def boundaryDue (s : State) : Bool :=
  match openHour s with
  | some h => decide (0 < forwardDistance h (clockHour s)) && decide (forwardDistance h (clockHour s) ≤ Config.halfSpan)
  | none => false

/-- Has the firm point that lies in the open hour been reached (R3, R5)? -/
def firmPointReached (s : State) : Bool := boundaryDue s || decide (1800 ≤ s.clock.seconds % 3600)

/-- Position of an hour of the today row. -/
def todayPosition (hour : Nat) : Fin 72 := ⟨24 + hour % 24, by omega⟩

/-- Position of the open hour in the rows; it lies in the today row (R6, R155). -/
def openPosition (s : State) : Option (Fin 72) := (openHour s).map fun h => todayPosition h.hour

/-! ### Channels (R33, R37) -/

/-- The setting of channel `c` of a slot, if the slot has it. -/
def channelSetting? (sl : Slot) (c : Nat) : Option ChannelSetting := sl.settings.channels[c]?

/-- Channel record `c` of a slot. -/
def channelAt (sl : Slot) (c : Nat) : Channel := if h : c < 4 then nth sl.channels ⟨c, h⟩ else Channel.initial

/-- The channel a binding names; without a binding its quality is NONE (R81, R132). -/
def boundChannel (s : State) (b : Option Binding) : Channel :=
  match b with
  | some b => channelAt (slotOf s b.slot) b.channel
  | none => Channel.initial

/-- Has the point a reverse direction (R40)? -/
def hasReverse (k : Fin 7) : Bool := decide (k ≠ 2)

/-- Channel index of the pressure of point `k` (R40). -/
def pressureIndex (k : Fin 7) : Nat := if hasReverse k then 2 else 1

/-- Channel index of the temperature of point `k` (R40). -/
def temperatureIndex (k : Fin 7) : Nat := if hasReverse k then 3 else 2

/-- The point bound to a device slot, if any; a slot serves at most one (R42). -/
def pointBoundTo (s : State) (n : Fin 16) : Option (Fin 7) := firstFin fun k => decide ((pointOf s k).slot = some n)

/-- The wellhead point of cavern `k` (R81). -/
def wellhead (k : Fin 4) : Fin 7 := ⟨k.val + 3, by omega⟩

/-- The pressure of a cavern as the DIR takes it (R81). -/
def cavernPressure (s : State) (k : Fin 4) : Channel :=
  match (pointOf s (wellhead k)).slot with
  | some n => channelAt (slotOf s n) 2
  | none => Channel.initial

/-! ### Reset (R202) -/

/-- Is the part held in reset: main power absent or the reset pin low? -/
def heldInReset (s : State) : Bool := s.pif.powerLost || s.pif.pinLow

/-- What an event does to the part, which takes none while it is held in reset (R202). -/
def unlessHeld (f : State → State) (s : State) : Host.Outcome State Fault Refusal :=
  if heldInReset s then .next s else .next (f s)

/-- An event whose occasion does not hold is no event: it changes nothing. Log entry 2. -/
def onlyIf (occasion : Bool) (f : State → State) (s : State) : State := if occasion then f s else s

end Sys2Proof.Machine
end

