-- ==== Sys2Proof/Machine/Operands.lean ====
section
/-! DEFINITION. The encodings of R206 in both directions: numbers, marks, enumerations, items that may be absent and lists,
as request fields are read and as response fields and reports are written. -/

namespace Sys2Proof.Machine

/-! ### Reading request fields -/

/-- The signed number in two's complement in the `length` bytes from `start` (R206). -/
def snum (fields : List Byte) (start length : Nat) : Int :=
  let n := num fields start length
  if 2 * n < 256 ^ length then (n : Int) else (n : Int) - (256 ^ length : Nat)

/-- A mark, flag or presence byte: 0 clear, 1 set; none for another value, which R206 refuses. -/
def mark (fields : List Byte) (i : Nat) : Option Bool :=
  match byteAt fields i with
  | 0 => some false
  | 1 => some true
  | _ => none

/-- Four marks in consecutive bytes. -/
def fourMarks (fields : List Byte) (i : Nat) : Option (Vector Bool 4) := do
  let a ← mark fields i
  let b ← mark fields (i + 1)
  let c ← mark fields (i + 2)
  let d ← mark fields (i + 3)
  return ⟨#[a, b, c, d], rfl⟩

/-- A number below `n`, as an index. -/
def index? (n x : Nat) : Option (Fin n) := if h : x < n then some ⟨x, h⟩ else none

/-- A number 1..n, as an index from 0: points, caverns, units, trains and banks are numbered from 1. -/
def ordinal? (n x : Nat) : Option (Fin n) := if x = 0 then none else index? n (x - 1)

/-- Channel format in the order of R32. -/
def Format.ofByte? : Nat → Option Format
  | 0 => some .u16
  | 1 => some .s16
  | 2 => some .u8
  | 3 => some .u32
  | _ => none

/-- Poll mode in the order of R19. -/
def PollMode.ofByte? : Nat → Option PollMode
  | 0 => some .periodic
  | 1 => some .readyGated
  | 2 => some .reinitEach
  | _ => none

/-- Zone in the order of R19. -/
def Zone.ofByte? : Nat → Option Zone
  | 0 => some .outside
  | 1 => some .inside
  | _ => none

/-- Advance in the order of R118. -/
def Advance.ofByte? : Nat → Option Advance
  | 0 => some .time
  | 1 => some .input
  | 2 => some .timeThenInput
  | _ => none

/-- Allocation mode in the order of R189. -/
def AllocationMode.ofByte? : Nat → Option AllocationMode
  | 0 => some .asNominated
  | 1 => some .proRata
  | _ => none

/-- Service setting IN_SERVICE 0, the other 1, in the order of R79 and R95. -/
def service? : Nat → Option Bool
  | 0 => some true
  | 1 => some false
  | _ => none

/-! ### Writing response fields -/

/-- The lowest `length` bytes of a number, most significant byte first (R206). -/
def ubytes : Nat → Nat → List Byte
  | 0, _ => []
  | length + 1, n => ubytes length (n / 256) ++ [BitVec.ofNat 8 n]

/-- A signed number in two's complement in `length` bytes (R206). -/
def sbytes (length : Nat) (z : Int) : List Byte := ubytes length (z % (256 ^ length : Nat)).toNat

/-- A mark or flag (R206). -/
def markByte (b : Bool) : List Byte := [if b then 1 else 0]

/-- Marks one after another. -/
def markBytes {n : Nat} (v : Vector Bool n) : List Byte := v.toList.flatMap markByte

/-- An item that may be absent: a presence byte, then its `length` bytes, which are 0 when it is absent (R206). -/
def optionBytes {α : Type} (length : Nat) (enc : α → List Byte) (x : Option α) : List Byte :=
  match x with
  | some x => 1 :: enc x
  | none => 0 :: List.replicate length 0

/-- A list of varying length: a count byte, then the entries (R206). -/
def listBytes {α : Type} (enc : α → List Byte) (l : List α) : List Byte := ubytes 1 l.length ++ l.flatMap enc

/-- An elapsed time in steps of the time base: 5 bytes (R206). -/
def timeBytes (t : Nat) : List Byte := ubytes 5 t

/-- A time on the fine count: 6 bytes (R206). -/
def fineBytes (t : Nat) : List Byte := ubytes 6 t

/-- A (day, hour): day 2 bytes, hour 1 byte (R206). -/
def hourIdBytes (h : HourId) : List Byte := ubytes 2 h.day ++ ubytes 1 h.hour

/-- Condition marks: a 56-bit number whose bit n marks condition n (R206). -/
def conditionMarks (p : Fin 56 → Bool) : List Byte := ubytes 7 (sumNat fun n : Fin 56 => if p n then 2 ^ n.val else 0)

def Format.byte : Format → Nat
  | .u16 => 0
  | .s16 => 1
  | .u8 => 2
  | .u32 => 3

/-- Bytes of a channel value: the least that hold its format's range (R32, R206). -/
def Format.width : Format → Nat
  | .u16 => 2
  | .s16 => 2
  | .u8 => 1
  | .u32 => 4

def PollMode.byte : PollMode → Nat
  | .periodic => 0
  | .readyGated => 1
  | .reinitEach => 2

def Zone.byte : Zone → Nat
  | .outside => 0
  | .inside => 1

/-- In the order of R24. -/
def SlotState.byte : SlotState → Nat
  | .disabled => 0
  | .init => 1
  | .settling => 2
  | .active => 3
  | .absent => 4
  | .faulted => 5

/-- In the order of R33. -/
def Quality.byte : Quality → Nat
  | .noReading => 0
  | .good => 1
  | .held => 2

/-- A phase in the order of R24, and the k of INIT_WRITE. Log entry 9. -/
def Phase.bytes : Phase → List Byte
  | .initWrite k => [0] ++ ubytes 1 k
  | .readyCheck => [1, 0]
  | .read => [2, 0]

/-- In the order of R82. -/
def Band.byte : Band → Nat
  | .normal => 0
  | .high => 1
  | .low => 2

/-- In the order in which R88 names the two. -/
def Flow.byte : Flow → Nat
  | .injecting => 0
  | .withdrawing => 1

/-- In the order of R88. -/
def SiteDirection.byte : SiteDirection → Nat
  | .standby => 0
  | .injecting => 1
  | .withdrawing => 2
  | .changeover _ => 3

/-- In the order of R95. -/
def UnitState.byte : UnitState → Nat
  | .out => 0
  | .faulted => 1
  | .cooldown => 2
  | .ready => 3
  | .starting => 4
  | .running => 5
  | .stopping _ => 6

/-- In the order of R95. -/
def UnitCause.byte : UnitCause → Nat
  | .noCause => 0
  | .startFailed => 1
  | .trip => 2
  | .stopFailed => 3
  | .unexpectedRun => 4

/-- In the order of R95. -/
def StopDestination.byte : StopDestination → Nat
  | .cooldown => 0
  | .out => 1

/-- In the order of R106. -/
def ShortfallReason.byte : ShortfallReason → Nat
  | .noShortfall => 0
  | .startInProgress => 1
  | .noEligibleUnit => 2

/-- In the order of R116. -/
def TrainState.byte : TrainState → Nat
  | .off => 0
  | .parked => 1
  | .running => 2
  | .waitInput => 3
  | .faulted => 4

/-- In the order of R115. -/
def TrainCause.byte : TrainCause → Nat
  | .noCause => 0
  | .inputTimeout => 1
  | .strokeTimeout => 2

/-- In the order of R115. -/
def Tower.byte : Tower → Nat
  | .a => 0
  | .b => 1

/-- In the order of R118. -/
def Advance.byte : Advance → Nat
  | .time => 0
  | .input => 1
  | .timeThenInput => 2

/-- In the order of R137. -/
def AccountState.byte : AccountState → Nat
  | .vacant => 0
  | .active => 1
  | .closing => 2

/-- In the order of R154. -/
def NetDirection.byte : NetDirection → Nat
  | .injecting => 0
  | .withdrawing => 1
  | .standby => 2

/-- In the order of R189. -/
def AllocationMode.byte : AllocationMode → Nat
  | .asNominated => 0
  | .proRata => 1

/-- In the order of R204. -/
def ResetKind.byte : ResetKind → Nat
  | .powerOn => 0
  | .pin => 1
  | .command => 2

/-- IN_SERVICE 0, the other setting 1. -/
def serviceByte (inService : Bool) : List Byte := ubytes 1 (if inService then 0 else 1)

/-- The value of a status (R197). -/
def Status.byte : Status → Byte
  | .ok => 0x00
  | .part => 0x01
  | .malformed => 0x10
  | .unknown => 0x11
  | .owner => 0x12
  | .state => 0x20
  | .range => 0x21
  | .late => 0x22
  | .clock => 0x23
  | .inUse => 0x24
  | .limit => 0x25

/-- A response frame as it is shifted out: status, length, fields (R196, R206). -/
def Response.frame (r : Response) : List Byte := r.status.byte :: BitVec.ofNat 8 r.fields.length :: r.fields

end Sys2Proof.Machine
end

