-- ==== Sys2Proof/Machine/Flags.lean ====
section
/-! DEFINITION. The CDT's own computations, without the re-firm it raises: pendings, the lead condition and the derate class
(R63 to R69), the event flags (R74) and the alert lines (R76). -/

namespace Sys2Proof.Machine

/-! ### Condition numbers (R64) -/

def condThreshold (n : Fin 16) : Fin 56 := ⟨n.val, by omega⟩
def condDevice (n : Fin 16) : Fin 56 := ⟨16 + n.val, by omega⟩
def condCounter (k : Fin 7) : Fin 56 := ⟨32 + k.val, by omega⟩
def condCv : Fin 56 := 39
def condBand (k : Fin 4) : Fin 56 := ⟨40 + k.val, by omega⟩
def condUnit (u : Fin 4) : Fin 56 := ⟨44 + u.val, by omega⟩
def condTrain (t : Fin 2) : Fin 56 := ⟨48 + t.val, by omega⟩
def condOffSpec (t : Fin 2) : Fin 56 := ⟨50 + t.val, by omega⟩
def condMeterDiff : Fin 56 := 52
def condRetainedLost : Fin 56 := 53
def condClockUnset : Fin 56 := 54
def condOverrun : Fin 56 := 55

/-! ### Derate class and lead condition (R69) -/

/-- Of a condition and the lead found so far among lower numbers, the one that leads: a higher level leads, a lower number
leads among equal levels, and level 0 never leads. -/
def betterLead (table : Vector Condition 56) (n : Fin 56) (best : Option (Fin 56)) : Option (Fin 56) :=
  let c := nth table n
  if c.active && decide (1 ≤ c.level) then
    match best with
    | none => some n
    | some b => if (nth table b).level < c.level then some n else some b
  else best

/-- The Active condition with the highest level, the lowest number among equals; none when no Active condition has a
level of at least 1 (R69). -/
def formLead (table : Vector Condition 56) : Option (Fin 56) := overFin 56 (betterLead table) none

/-- The highest level among Active conditions, or 0 (R69). -/
def formClass (table : Vector Condition 56) : Nat :=
  match formLead table with
  | some n => (nth table n).level
  | none => 0

/-- The class and the lead condition formed again (R69). -/
def Cdt.formAgain (c : Cdt) : Cdt :=
  { c with derateClass := formClass c.conditions, lead := formLead c.conditions }

/-- What a rise does to its entry: both pendings are set when the level is 1 or more (R65). -/
def Condition.rise (c : Condition) : Condition :=
  { c with active := true, pendingOps := c.pendingOps || decide (1 ≤ c.level), pendingCom := c.pendingCom || decide (1 ≤ c.level) }

/-- What a fall does to its entry: the pendings stay (R65). -/
def Condition.fall (c : Condition) : Condition := { c with active := false }

/-- Is the condition Active in the table? -/
def conditionActive (s : State) (n : Fin 56) : Bool := (nth s.cdt.conditions n).active

/-- The Active item follows a source's report; a report that changes nothing is no event (R64). -/
def Cdt.follow (c : Cdt) (n : Fin 56) (active : Bool) : Cdt :=
  if (nth c.conditions n).active = active then c
  else
    Cdt.formAgain { c with
      conditions := alter c.conditions n fun e => if active then e.rise else e.fall }

/-! ### Event flags (R74) -/

def evHourFirmed : Fin 4 := 0
def evHourClosedCom : Fin 4 := 1
def evRefirmed : Fin 4 := 2
def evDayRolled : Fin 4 := 3
def evHourClosedOps : Fin 4 := 0
def evDirectionChanged : Fin 4 := 1
def evUnitTripped : Fin 4 := 2
def evTrainFaulted : Fin 4 := 3

/-- A Commercial event flag is set, whether or not the mask enables it (R74). -/
def setEventCom (e : Fin 4) (s : State) : State :=
  s.withCdt { s.cdt with com := { s.cdt.com with flags := put s.cdt.com.flags e true } }

/-- An Operations event flag is set, whether or not the mask enables it (R74). -/
def setEventOps (e : Fin 4) (s : State) : State :=
  s.withCdt { s.cdt with ops := { s.cdt.ops with flags := put s.cdt.ops.flags e true } }

/-! ### The ports' views -/

/-- A port's alert settings and event flags. -/
def Cdt.alertOf (c : Cdt) : Port → Alert
  | .ops => c.ops
  | .com => c.com

/-- A port's alert settings and event flags changed. -/
def Cdt.alterAlert (c : Cdt) (p : Port) (f : Alert → Alert) : Cdt :=
  match p with
  | .ops => { c with ops := f c.ops }
  | .com => { c with com := f c.com }

/-- A port's pending mark of a condition. -/
def Condition.pendingOf (c : Condition) : Port → Bool
  | .ops => c.pendingOps
  | .com => c.pendingCom

/-- A port's pending cleared; the other port's stays (R67). -/
def Condition.acknowledge (c : Condition) : Port → Condition
  | .ops => { c with pendingOps := false }
  | .com => { c with pendingCom := false }

/-- What would assert a port's alert line: a pending on a condition at or above the threshold, or an enabled event flag
(R76). -/
def alertCause (c : Cdt) (p : Port) : Bool :=
  (someFin fun n : Fin 56 =>
      (nth c.conditions n).pendingOf p && decide ((c.alertOf p).threshold ≤ (nth c.conditions n).level))
    || someFin fun e : Fin 4 => nth (c.alertOf p).flags e && nth (c.alertOf p).mask e

end Sys2Proof.Machine
end

