-- ==== Sys2Proof/Machine/Capacity.lean ====
section
/-! DEFINITION. What the blocks hand to a firm or a re-firm: the four capacity contributions (R60, R84, R112, R134), the derate
percentages (R71), the hour's capacities (R166), and the reserves, free inventory and free space of a
shipper (R140). -/

namespace Sys2Proof.Machine

/-! ### Contributions -/

/-- A boundary point counts while it is bound and its slot is ACTIVE (R60). -/
def pointCapacity (s : State) (k : Fin 7) : Nat :=
  match (pointOf s k).slot with
  | some n => if (slotOf s n).state = .active then (pointOf s k).capacity else 0
  | none => 0

/-- Boundary metering capacity: M1 and M2 (R60). -/
def boundaryCapacity (s : State) : Nat := pointCapacity s 0 + pointCapacity s 1

/-- What a cavern offers to injection (R84). -/
def cavernInjection (s : State) (k : Fin 4) : Nat :=
  let c := cavernOf s k
  if c.inService ∧ c.band ≠ .high ∧ (cavernPressure s k).quality ≠ .noReading then c.injectionRate else 0

/-- What a cavern offers to withdrawal (R84). -/
def cavernWithdrawal (s : State) (k : Fin 4) : Nat :=
  let c := cavernOf s k
  if c.inService ∧ c.band ≠ .low ∧ (cavernPressure s k).quality ≠ .noReading then c.withdrawalRate else 0

/-- Cavern injection availability (R84). -/
def cavernInjectionSum (s : State) : Nat := sumNat (cavernInjection s)

/-- Cavern withdrawal availability (R84). -/
def cavernWithdrawalSum (s : State) : Nat := sumNat (cavernWithdrawal s)

/-- Does a unit count toward injection capacity (R112)? -/
def unitAvailable (u : UnitRecord) : Bool := decide (u.state ≠ .out) && decide (u.state ≠ .faulted)

/-- Compressor contribution (R112). -/
def compressorContribution (s : State) : Nat :=
  countFin (fun u : Fin 4 => unitAvailable (unitOf s u)) * s.dir.site.unitRate

/-- Is a bank's first entry that is not WRITTEN an END at index 1 or above (R119)? `steps` counts the WRITTEN entries
before the ones still to be looked at. -/
def cycleLengthFrom : Nat → List BankEntry → Option Nat
  | steps, .written _ :: rest => cycleLengthFrom (steps + 1) rest
  | 0, .endMark :: _ => none
  | steps + 1, .endMark :: _ => some (steps + 1)
  | _, .empty :: _ => none
  | _, [] => none

/-- Cycle length of a valid bank; none for an invalid one (R119). -/
def cycleLength (bank : Vector BankEntry 24) : Option Nat := cycleLengthFrom 0 bank.toList

/-- Is a bank valid (R119)? -/
def bankValid (bank : Vector BankEntry 24) : Bool := (cycleLength bank).isSome

/-- The bank a train selects. -/
def selectedBank (s : State) (t : Train) : Vector BankEntry 24 := nth s.dsq.banks t.bank

/-- Does a train count toward withdrawal capacity (R134)? -/
def trainAvailable (s : State) (t : Train) : Bool :=
  t.enabled && decide (t.state ≠ .faulted) && !t.offSpec && bankValid (selectedBank s t)

/-- What one train contributes to withdrawal (R134, R136). -/
def trainContribution (s : State) (t : Fin 2) : Nat := if trainAvailable s (trainOf s t) then s.dir.site.trainRate else 0

/-- Dryer contribution (R134). -/
def dryerContribution (s : State) : Nat := sumNat (trainContribution s)

/-- The percentages of a derate class; class 0 is 100 and 100 (R71). -/
def percentOf (c : Cdt) (derateClass : Nat) : Percent :=
  match index? 7 (derateClass - 1) with
  | some i => if derateClass = 0 then ⟨100, 100⟩ else nth c.derate i
  | none => ⟨100, 100⟩

/-- The hour's injection capacity (R166). -/
def injectionCapacity (s : State) : Nat :=
  min (min (compressorContribution s) (cavernInjectionSum s)) (min (boundaryCapacity s) s.dir.site.injectionCapacity)
    * (percentOf s.cdt s.cdt.derateClass).injection / 100

/-- The hour's withdrawal capacity (R166). -/
def withdrawalCapacity (s : State) : Nat :=
  min (min (dryerContribution s) (cavernWithdrawalSum s)) (min (boundaryCapacity s) s.dir.site.withdrawalCapacity)
    * (percentOf s.cdt s.cdt.derateClass).withdrawal / 100

/-! ### Reserves (R140) -/

/-- A shipper's entry of an hour. -/
def entryOf (s : State) (p : Fin 72) (a : Fin 16) : HourEntry := nth (hourOf s p).entries a

/-- A confirmation; an absent one counts as 0. -/
def confirmedOf (s : State) (p : Fin 72) (a : Fin 16) : Int := (entryOf s p a).confirmed.getD 0

/-- Does the hour count in the reserves: firmed and not yet closed? -/
def firmedUnclosed (s : State) (p : Fin 72) : Bool := (hourOf s p).site.firmed && !(hourOf s p).site.closed

/-- Sum of the magnitudes of a shipper's withdrawals in firmed, unclosed hours. -/
def withdrawalReserve (s : State) (a : Fin 16) : Int :=
  sumInt fun p : Fin 72 => if firmedUnclosed s p then max 0 (-(confirmedOf s p a)) else 0

/-- Sum of a shipper's injections in firmed, unclosed hours. -/
def injectionReserve (s : State) (a : Fin 16) : Int :=
  sumInt fun p : Fin 72 => if firmedUnclosed s p then max 0 (confirmedOf s p a) else 0

/-- Free inventory F. -/
def freeInventory (s : State) (a : Fin 16) : Int := (accountOf s a).inventory - withdrawalReserve s a

/-- Free space H. -/
def freeSpace (s : State) (a : Fin 16) : Int :=
  (accountOf s a).space - (accountOf s a).inventory - injectionReserve s a

/-- Is a slot ACTIVE or CLOSING? -/
def Account.held (a : Account) : Bool := decide (a.state ≠ .vacant)

end Sys2Proof.Machine
end

