-- ==== Sys2Proof/Machine/Firming.lean ====
section
/-! DEFINITION. Fixing an hour's confirmations: largest remainder (R168), the ratchet (R163), the firm in its four steps (R164 to
R169), the firm at zero (R8) and the re-firm (R170, R171). -/

namespace Sys2Proof.Machine

/-! ### Largest remainder (R168) -/

/-- Does participant `j` stand before participant `i` in the order of remainders: a larger remainder first, the lower
slot among equals? -/
def remainderBefore (remainder : Vector Nat 16) (j i : Fin 16) : Bool :=
  decide (nth remainder i < nth remainder j) || (decide (nth remainder j = nth remainder i) && decide (j < i))

/-- How many participants stand before `i`. -/
def remainderRank (basis remainder : Vector Nat 16) (i : Fin 16) : Nat :=
  countFin fun j : Fin 16 => decide (0 < nth basis j) && remainderBefore remainder j i

/-- The shares of the whole target `total` on the basis `basis`: each participant's first share, and one unit of the rest
for as many participants as the rest has units, the largest remainders first. -/
def largestRemainder (total : Nat) (basis : Vector Nat 16) : Vector Nat 16 :=
  let weight := sumNat (nth basis)
  let first := each basis fun b => total * b / weight
  let remainder := each basis fun b => total * b % weight
  let rest := total - sumNat (nth first)
  tab fun i =>
    if nth basis i = 0 then 0
    else nth first i + if remainderRank basis remainder i < rest then 1 else 0

/-! ### The rights step (R163, R165) -/

/-- The rate of a ratchet table at a fill (R163). -/
def ratchetRate (fill : Nat) : List RatchetPoint → Int
  | a :: b :: rest =>
    if fill = a.fill then a.rate
    else if fill < b.fill then
      a.rate + Int.fdiv (((b.rate : Int) - a.rate) * ((fill : Int) - a.fill)) ((b.fill : Int) - a.fill)
    else ratchetRate fill (b :: rest)
  | [a] => a.rate
  | [] => 0

/-- A shipper's fill in thousandths; 1,000 when the space right is 0 (R163). -/
def fillOf (a : Account) : Nat := if a.space = 0 then 1000 else (Int.fdiv (a.inventory * 1000) a.space).toNat

/-- Injection rate right of the hour (R163). -/
def injectionLimit (s : State) (a : Fin 16) : Int :=
  Int.fdiv ((accountOf s a).injectionRight * ratchetRate (fillOf (accountOf s a)) s.nfu.injectionRatchet) 1000

/-- Withdrawal rate right of the hour (R163). -/
def withdrawalLimit (s : State) (a : Fin 16) : Int :=
  Int.fdiv ((accountOf s a).withdrawalRight * ratchetRate (fillOf (accountOf s a)) s.nfu.withdrawalRatchet) 1000

/-- The quantity q′ to which the rights step cuts a request q (R165); a VACANT slot takes no part. -/
def rightsQuantity (s : State) (a : Fin 16) (q : Int) : Int :=
  match (accountOf s a).state with
  | .vacant => 0
  | .active =>
    if q = 0 then 0
    else if 0 < q then min (min q (injectionLimit s a)) (freeSpace s a)
    else -min (min (-q) (withdrawalLimit s a)) (freeInventory s a)
  | .closing =>
    if 0 ≤ q then 0 else -min (min (-q) (withdrawalLimit s a)) (freeInventory s a)

/-- A shipper's request for an hour; an absent one counts as 0. -/
def requestedOf (s : State) (p : Fin 72) (a : Fin 16) : Int := (entryOf s p a).requested.getD 0

/-! ### Curtailment (R167, R171) -/

/-- The parts of the quantities above 0. -/
def positives (q : Vector Int 16) : Vector Nat 16 := each q Int.toNat

/-- The magnitudes of the quantities below 0. -/
def negatives (q : Vector Int 16) : Vector Nat 16 := each q fun x => (-x).toNat

/-- The quantities after the sum has been brought within the capacities: when it lies above the injection capacity the
injectors share their total less the excess, when it lies below minus the withdrawal capacity the withdrawers
do, and those against the net keep theirs (R167). -/
def curtail (q : Vector Int 16) (injection withdrawal : Nat) : Vector Int 16 :=
  let net := sumInt (nth q)
  if (injection : Int) < net then
    let shares := largestRemainder (sumNat (nth (positives q)) - (net - injection).toNat) (positives q)
    tab fun a => if 0 < nth q a then ((nth shares a : Nat) : Int) else nth q a
  else if net < -(withdrawal : Int) then
    let shares := largestRemainder (sumNat (nth (negatives q)) - (-net - withdrawal).toNat) (negatives q)
    tab fun a => if nth q a < 0 then -((nth shares a : Nat) : Int) else nth q a
  else q

/-- Direction of a net (R154). -/
def directionOf (net : Int) : NetDirection :=
  if 0 < net then .injecting else if net < 0 then .withdrawing else .standby

/-! ### The firm (R164, R169) -/

/-- Did a cut lower the magnitude of a quantity? -/
def lowered (before after : Int) : Bool := decide (after.natAbs < before.natAbs)

/-- The hour as a firm records it, from the requests, the quantities of the rights step and the confirmations
(R165, R167, R169). The entries of VACANT slots stay. -/
def firmedCell (s : State) (cell : HourCell) (rights confirmed : Vector Int 16) (injection withdrawal : Nat) : HourCell :=
  { site :=
      { cell.site with
        firmed := true
        injectionCapacity := injection
        withdrawalCapacity := withdrawal
        net := sumInt (nth confirmed)
        direction := directionOf (sumInt (nth confirmed))
        curtailed := someFin fun a : Fin 16 => lowered (nth rights a) (nth confirmed a) }
    entries := tab fun a =>
      let e := nth cell.entries a
      if (accountOf s a).held then
        { e with
          confirmed := some (nth confirmed a)
          reduced := decide (nth rights a ≠ e.requested.getD 0)
          curtailed := lowered (nth rights a) (nth confirmed a) }
      else e }

/-- The firm of an hour; of an hour already firmed it does nothing (R164). -/
def firm (p : Fin 72) (s : State) : State :=
  if (hourOf s p).site.firmed then s
  else
    let rights : Vector Int 16 := tab fun a => rightsQuantity s a (requestedOf s p a)
    let confirmed := curtail rights (injectionCapacity s) (withdrawalCapacity s)
    setEventCom evHourFirmed
      (alterHour p (fun c => firmedCell s c rights confirmed (injectionCapacity s) (withdrawalCapacity s)) s)

/-- The firm at zero of a missed hour: capacities 0, net 0, STANDBY and confirmations of 0, with no entry flag set; of an
hour already firmed it does nothing (R8). -/
def firmAtZero (p : Fin 72) (s : State) : State :=
  if (hourOf s p).site.firmed then s
  else
    setEventCom evHourFirmed
      (alterHour p
        (fun c =>
          { site := { c.site with firmed := true, injectionCapacity := 0, withdrawalCapacity := 0, net := 0, direction := .standby }
            entries := tab fun a =>
              if (accountOf s a).held then { nth c.entries a with confirmed := some 0 } else nth c.entries a })
        s)

/-- The firms, in time order, of the unfirmed hours among the `count` hours that begin at position `start` (R10, R161). -/
def firmRun : Nat → Nat → State → State
  | _, 0, s => s
  | start, count + 1, s =>
    match index? 72 start with
    | some p => firmRun (start + 1) count (firm p s)
    | none => s

/-- How many hours after the open hour have had their firm point under lead `lead` (R10, R161): the firm point of the open
hour itself is among those passed once it is reached. -/
def overdueCount (s : State) (lead : Nat) : Nat := if firmPointReached s then lead else lead - 1

/-! ### The re-firm (R170, R171) -/

/-- One hour re-firmed to the capacities of the instant: each recorded capacity takes the lower of the two, the
confirmations are curtailed to them, and what was lowered is marked REFIRMED. -/
def refirmCell (injection withdrawal : Nat) (cell : HourCell) : HourCell :=
  let inj := min cell.site.injectionCapacity injection
  let wd := min cell.site.withdrawalCapacity withdrawal
  let before : Vector Int 16 := each cell.entries fun e => e.confirmed.getD 0
  let after := curtail before inj wd
  { site :=
      { cell.site with
        injectionCapacity := inj
        withdrawalCapacity := wd
        net := sumInt (nth after)
        direction := directionOf (sumInt (nth after))
        refirmed := cell.site.refirmed || decide (inj < cell.site.injectionCapacity) || decide (wd < cell.site.withdrawalCapacity) }
    entries := tab fun a =>
      let e := nth cell.entries a
      if lowered (nth before a) (nth after a) then { e with confirmed := some (nth after a), refirmed := true } else e }

/-- Has the hour not started: any hour while the clock is UNSET, else the hours after the open one (R170)? -/
def notStarted (s : State) (p : Fin 72) : Bool :=
  match openPosition s with
  | some o => decide (o < p)
  | none => true

/-- Does a re-firm reach the hour: firmed, not closed and not started (R170)? -/
def refirmReaches (s : State) (p : Fin 72) : Bool := firmedUnclosed s p && notStarted s p

/-- Does a re-firm at this instant lower a recorded capacity of the hour, and so mark it REFIRMED (R170)? -/
def refirmMarks (s : State) (p : Fin 72) : Bool :=
  refirmReaches s p &&
    (decide (injectionCapacity s < (hourOf s p).site.injectionCapacity)
      || decide (withdrawalCapacity s < (hourOf s p).site.withdrawalCapacity))

/-- The re-firm raised by a rise of the derate class (R70, R170, R171). -/
def refirm (s : State) : State :=
  let after := s.withNfu { s.nfu with
    hours := tab fun p =>
      if refirmReaches s p then refirmCell (injectionCapacity s) (withdrawalCapacity s) (hourOf s p) else hourOf s p }
  if someFin (refirmMarks s) then setEventCom evRefirmed after else after

end Sys2Proof.Machine
end

