-- ==== Sys2Proof/Machine/Ports.lean ====
section
/-! DEFINITION. The PIF's handling of a request frame: the checks of R195 that stand before the request's own, the response buffer
(R196), the read image (R200) and what the port drives on data out (R193). -/

namespace Sys2Proof.Machine

/-- One port's state. -/
def Pif.portOf (f : Pif) : Port → PortState
  | .ops => f.ops
  | .com => f.com

/-- One port's state changed by `g`. -/
def Pif.alterPort (f : Pif) (p : Port) (g : PortState → PortState) : Pif :=
  match p with
  | .ops => { f with ops := g f.ops }
  | .com => { f with com := g f.com }

/-- A port's state changed, in the whole part. -/
def alterPort (p : Port) (g : PortState → PortState) (s : State) : State := s.withPif (s.pif.alterPort p g)

/-- What a request comes to: a refusal with its status, or the state it leaves and the fields its response carries after the
echoed code (R197). -/
inductive Answer
  | refuse (status : Status)
  | taken (after : State) (payload : List Byte)

/-- A response is placed in the port's buffer, replacing any held there (R196). -/
def place (p : Port) (status : Status) (fields : List Byte) (s : State) : State :=
  alterPort p (fun x => { x with response := some ⟨status, fields⟩ }) s

/-- The port's read image is discarded (R200). -/
def discardImage (p : Port) (s : State) : State := alterPort p (fun x => { x with image := none }) s

/-- Throughout a request transaction of `bytes` bytes the port shifts out 0xFF (R193). -/
def driveIdle (p : Port) (bytes : Nat) (s : State) : State :=
  alterPort p (fun x => { x with dataOut := List.replicate bytes 0xFF }) s

/-- The answer of a request with code `code` put into the part: a refused request changes nothing in any block (R195), and in
every case the response is placed and the read image discarded. -/
def conclude (p : Port) (code : Nat) (s : State) : Answer → State
  | .refuse status => place p status (ubytes 1 code) (discardImage p s)
  | .taken after payload => place p .ok (ubytes 1 code ++ payload) (discardImage p after)

/-- Is the request one that the port may send (R198)? -/
def mayOwn (owner : Option Port) (p : Port) : Bool :=
  match owner with
  | none => true
  | some o => decide (o = p)

/-- The checks of R195 in their order: layout, owner, then the request's own. -/
def judged (owner : Option Port) (code : Nat) (p : Port) (fields : List Byte) (own : State → Answer) (s : State) : Answer :=
  if !fits code fields then .refuse .malformed
  else if !mayOwn owner p then .refuse .owner
  else own s

/-- A request transaction: ignored while the part is held in reset (R202), else judged and answered. `owner` is the port that
owns the request, none for either. -/
def serve (owner : Option Port) (code : Nat) (p : Port) (fields : List Byte) (own : State → Answer) (s : State) :
    Host.Outcome State Fault Refusal :=
  unlessHeld (fun s => driveIdle p (fields.length + 2) (conclude p code s (judged owner code p fields own s))) s

end Sys2Proof.Machine
end

