-- ==== Sys2Proof/Machine/Accounts.lean ====
section
/-! DEFINITION. The ACT's requests: OPEN-ACCOUNT (R141, R142), SET-RIGHTS (R143), CLOSE-ACCOUNT (R144), TRANSFER (R146, R147) and
SETTLE-SUSPENSE (R148). -/

namespace Sys2Proof.Machine

/-- Are a space right and two rate rights in their ranges (R137)? -/
def rightsValid (space injection withdrawal : Nat) : Bool :=
  decide (space ≤ Config.maxInventory) && decide (injection ≤ Config.maxRate) && decide (withdrawal ≤ Config.maxRate)

/-- Does another slot that is not VACANT carry the code (R141 check 4)? -/
def codeInUse (s : State) (a : Fin 16) (code : Nat) : Bool :=
  someFin fun b : Fin 16 => decide (b ≠ a) && (accountOf s b).held && decide ((accountOf s b).code = some code)

/-- OPEN-ACCOUNT past the checks that every request has. -/
def openAccount (fields : List Byte) (s : State) : Answer :=
  match index? 16 (byteAt fields 0) with
  | none => .refuse .malformed
  | some a =>
    let code := num fields 1 2
    let space := num fields 3 4
    let injection := num fields 7 4
    let withdrawal := num fields 11 4
    if code = 0 ∨ rightsValid space injection withdrawal = false then .refuse .range
    else if (accountOf s a).held then .refuse .state
    else if codeInUse s a code then .refuse .inUse
    else .taken (alterAccount a (fun _ => ⟨.active, some code, space, injection, withdrawal, 0⟩) s) []

/-- OPEN_ACCOUNT. -/
def execOpenAccount (port : Port) (fields : List Byte) (s : State) : Host.Outcome State Fault Refusal :=
  serve (some .com) 0x80 port fields (openAccount fields) s

/-- SET-RIGHTS past the checks that every request has. -/
def setRights (fields : List Byte) (s : State) : Answer :=
  match index? 16 (byteAt fields 0) with
  | none => .refuse .malformed
  | some a =>
    let space := num fields 1 4
    let injection := num fields 5 4
    let withdrawal := num fields 9 4
    if rightsValid space injection withdrawal = false then .refuse .range
    else if (accountOf s a).held = false then .refuse .state
    else if (space : Int) < (accountOf s a).inventory + injectionReserve s a then .refuse .limit
    else
      .taken
        (alterAccount a (fun r => { r with space := space, injectionRight := injection, withdrawalRight := withdrawal }) s) []

/-- SET_RIGHTS. -/
def execSetRights (port : Port) (fields : List Byte) (s : State) : Host.Outcome State Fault Refusal :=
  serve (some .com) 0x81 port fields (setRights fields) s

/-- CLOSE-ACCOUNT past the checks that every request has (R144). -/
def closeAccount (fields : List Byte) (s : State) : Answer :=
  match index? 16 (byteAt fields 0) with
  | none => .refuse .malformed
  | some a =>
    if (accountOf s a).state ≠ .active then .refuse .state
    else .taken (alterAccount a (fun r => { r with state := .closing }) s) []

/-- CLOSE_ACCOUNT. -/
def execCloseAccount (port : Port) (fields : List Byte) (s : State) : Host.Outcome State Fault Refusal :=
  serve (some .com) 0x82 port fields (closeAccount fields) s

/-- Inventory moved from one shipper to another, in one event (R147). -/
def moveInventory (giver receiver : Fin 16) (quantity : Nat) (s : State) : State :=
  alterAccount receiver (fun r => { r with inventory := r.inventory + quantity })
    (alterAccount giver (fun r => { r with inventory := r.inventory - quantity }) s)

/-- TRANSFER past the checks that every request has (R146). -/
def transfer (fields : List Byte) (s : State) : Answer :=
  match index? 16 (byteAt fields 0), index? 16 (byteAt fields 1) with
  | some giver, some receiver =>
    let quantity := num fields 2 4
    if giver = receiver then .refuse .malformed
    else if quantity = 0 ∨ Config.maxInventory < quantity then .refuse .range
    else if (accountOf s giver).held = false ∨ (accountOf s receiver).state ≠ .active then .refuse .state
    else if freeInventory s giver < quantity ∨ freeSpace s receiver < quantity then .refuse .limit
    else
      let moved := moveInventory giver receiver quantity s
      .taken moved
        (sbytes 4 (accountOf moved giver).inventory ++ sbytes 4 (accountOf moved receiver).inventory
          ++ sbytes 4 (freeInventory moved giver) ++ sbytes 4 (freeSpace moved receiver))
  | _, _ => .refuse .malformed

/-- TRANSFER. -/
def execTransfer (port : Port) (fields : List Byte) (s : State) : Host.Outcome State Fault Refusal :=
  serve (some .com) 0x83 port fields (transfer fields) s

/-- Inventory moved between a shipper and suspense, in one event (R148). -/
def settle (a : Fin 16) (quantity : Int) (s : State) : State :=
  let moved := alterAccount a (fun r => { r with inventory := r.inventory + quantity }) s
  moved.withAct { moved.act with suspense := s.act.suspense - quantity }

/-- Check 4 of R148. -/
def settlementExceeds (s : State) (a : Fin 16) (quantity : Int) : Bool :=
  (if 0 < quantity then decide (freeSpace s a < quantity) else decide (freeInventory s a < -quantity))
    || decide (s.act.suspense - quantity < minTotal) || decide (maxTotal < s.act.suspense - quantity)

/-- SETTLE-SUSPENSE past the checks that every request has. -/
def settleSuspense (fields : List Byte) (s : State) : Answer :=
  match index? 16 (byteAt fields 0) with
  | none => .refuse .malformed
  | some a =>
    let quantity := snum fields 1 6
    if quantity = 0 ∨ Config.maxInventory < quantity.natAbs then .refuse .range
    else if (accountOf s a).held = false then .refuse .state
    else if settlementExceeds s a quantity then .refuse .limit
    else
      let settled := settle a quantity s
      .taken settled
        (sbytes 4 (accountOf settled a).inventory ++ sbytes 4 (freeInventory settled a) ++ sbytes 4 (freeSpace settled a)
          ++ sbytes 6 settled.act.suspense)

/-- SETTLE_SUSPENSE. -/
def execSettleSuspense (port : Port) (fields : List Byte) (s : State) : Host.Outcome State Fault Refusal :=
  serve (some .com) 0x84 port fields (settleSuspense fields) s

end Sys2Proof.Machine
end

