-- ==== Sys2Proof/Machine/Conditions.lean ====
section
/-! DEFINITION. How a source's report of a condition is taken: the table, the class and the re-firm of a rising class (R64, R65,
R69, R70), and several reports that fall together in one event. -/

namespace Sys2Proof.Machine

/-- A source reports a condition Active or inactive. When the derate class rises, a re-firm is raised at that instant
(R70). -/
def report (n : Fin 56) (active : Bool) (s : State) : State :=
  let after := s.withCdt (s.cdt.follow n active)
  if s.cdt.derateClass < after.cdt.derateClass then refirm after else after

/-- Of the reports, those that change the Active item: only they are events at the CDT (R64). -/
def realChanges (s : State) (l : List (Fin 56 × Bool)) : List (Fin 56 × Bool) :=
  l.filter fun r => conditionActive s r.1 != r.2

/-- Changes of different conditions that fall together are taken in either order (R64): while two or more are left, the free
`Config.reportOrder` says which comes next. `fuel` is their number. -/
def takeReports : Nat → List (Fin 56 × Bool) → State → State
  | 0, _, s => s
  | _ + 1, [], s => s
  | _ + 1, [r], s => report r.1 r.2 s
  | fuel + 1, l, s =>
    let k := Config.reportOrder s.freeReads % l.length
    let rest := l.eraseIdx k
    match l[k]? with
    | some r => takeReports fuel rest (report r.1 r.2 (s.withFreeReads (s.freeReads + 1)))
    | none => s

/-- The reports of one event of a source (R64). -/
def reportAll (l : List (Fin 56 × Bool)) (s : State) : State :=
  takeReports (realChanges s l).length (realChanges s l) s

end Sys2Proof.Machine
end

