-- ==== Sys2Proof/Machine/Alerts.lean ====
section
/-! DEFINITION. The CDT's requests: ACK-CONDITIONS (R66 to R68), SET-DERATE-TABLE (R72), SET-ALERT (R73) and READ-EVENTS (R75). -/

namespace Sys2Proof.Machine

/-! ### ACK-CONDITIONS -/

/-- An entry of ACK-CONDITIONS. -/
structure AckEntry where
  condition : Fin 56
  level : Option Nat
  deriving DecidableEq, Repr

/-- The `count` entries from byte `start`; none when a condition is above 55 or a presence byte is out of its list. -/
def readAckEntries (fields : List Byte) : Nat → Nat → Option (List AckEntry)
  | _, 0 => some []
  | start, count + 1 => do
    let condition ← index? 56 (byteAt fields start)
    let present ← mark fields (start + 1)
    let rest ← readAckEntries fields (start + 3) count
    return ⟨condition, if present then some (byteAt fields (start + 2)) else none⟩ :: rest

/-- One entry applied: the port's pending cleared, then the level; and condition 53 falls when Operations acknowledges it
(R67, R68). The class is not formed here. -/
def applyAck (p : Port) (e : AckEntry) (c : Cdt) : Cdt :=
  { c with
    conditions := alter c.conditions e.condition fun x =>
      let levelled := { x.acknowledge p with level := e.level.getD x.level }
      if e.condition = condRetainedLost ∧ p = .ops then levelled.fall else levelled }

/-- All entries applied in order, and the class and the lead condition formed once (R67). -/
def acknowledge (p : Port) (entries : List AckEntry) (s : State) : State :=
  let after := s.withCdt (entries.foldl (fun c e => applyAck p e c) s.cdt).formAgain
  if s.cdt.derateClass < after.cdt.derateClass then refirm after else after

/-- The lead condition as a response carries it. -/
def leadBytes (c : Cdt) : List Byte := optionBytes 1 (fun n : Fin 56 => ubytes 1 n.val) c.lead

/-- ACK-CONDITIONS past the checks that every request has. -/
def ackConditions (p : Port) (fields : List Byte) (s : State) : Answer :=
  let count := byteAt fields 0
  if count = 0 ∨ 8 < count then .refuse .malformed
  else
    match readAckEntries fields 1 count with
    | none => .refuse .malformed
    | some entries =>
      if p = .com ∧ entries.any (fun e => e.level.isSome) then .refuse .owner
      else if entries.any (fun e => decide (7 < e.level.getD 0)) then .refuse .range
      else
        let after := acknowledge p entries s
        .taken after (ubytes 1 after.cdt.derateClass ++ leadBytes after.cdt)

/-- ACK_CONDITIONS. -/
def execAckConditions (port : Port) (fields : List Byte) (s : State) : Host.Outcome State Fault Refusal :=
  serve none 0x40 port fields (ackConditions port fields) s

/-! ### SET-DERATE-TABLE -/

/-- The seven pairs a SET-DERATE-TABLE carries. -/
def readDerate (fields : List Byte) : Vector Percent 7 := tab fun i => ⟨byteAt fields (2 * i.val), byteAt fields (2 * i.val + 1)⟩

/-- Does no column rise as the class rises, class 0 counting as 100 (R71, R72)? -/
def fallsWithClass (table : Vector Percent 7) : Bool :=
  allFin fun i : Fin 7 =>
    let above : Percent :=
      match index? 7 (i.val - 1) with
      | some j => if i = 0 then ⟨100, 100⟩ else nth table j
      | none => ⟨100, 100⟩
    decide ((nth table i).injection ≤ above.injection) && decide ((nth table i).withdrawal ≤ above.withdrawal)

/-- SET-DERATE-TABLE past the checks that every request has; class 1 is held to 100, and with it every class. -/
def setDerateTable (fields : List Byte) (s : State) : Answer :=
  if !fallsWithClass (readDerate fields) then .refuse .range
  else .taken (s.withCdt { s.cdt with derate := readDerate fields }) []

/-- SET_DERATE_TABLE. -/
def execSetDerateTable (port : Port) (fields : List Byte) (s : State) : Host.Outcome State Fault Refusal :=
  serve (some .ops) 0x41 port fields (setDerateTable fields) s

/-! ### SET-ALERT -/

/-- SET-ALERT past the checks that every request has. -/
def setAlert (p : Port) (fields : List Byte) (s : State) : Answer :=
  match fourMarks fields 1 with
  | none => .refuse .malformed
  | some mask =>
    let threshold := byteAt fields 0
    if threshold = 0 ∨ 7 < threshold then .refuse .range
    else .taken (s.withCdt (s.cdt.alterAlert p fun a => { a with threshold := threshold, mask := mask })) []

/-- SET_ALERT. -/
def execSetAlert (port : Port) (fields : List Byte) (s : State) : Host.Outcome State Fault Refusal :=
  serve none 0x42 port fields (setAlert port fields) s

/-! ### READ-EVENTS -/

/-- What READ-EVENTS reports to a port (R75, R206). -/
def eventsReport (p : Port) (c : Cdt) : List Byte :=
  markBytes (c.alertOf p).flags ++ conditionMarks (fun n => (nth c.conditions n).pendingOf p) ++ ubytes 1 c.derateClass ++ leadBytes c

/-- READ-EVENTS past the checks that every request has: the flags are reported, then cleared. -/
def readEvents (p : Port) (s : State) : Answer :=
  .taken (s.withCdt (s.cdt.alterAlert p fun a => { a with flags := fill 4 false })) (eventsReport p s.cdt)

/-- READ_EVENTS. -/
def execReadEvents (port : Port) (fields : List Byte) (s : State) : Host.Outcome State Fault Refusal :=
  serve none 0x43 port fields (readEvents port) s

end Sys2Proof.Machine
end

