-- ==== Sys2Proof/Machine/Dryer.lean ====
section
/-! DEFINITION. The DSQ: stepping (R122 to R125), faulting (R126), breakthrough (R127), parking and resuming (R128, R129) and the
off-spec state (R132). -/

namespace Sys2Proof.Machine

/-! ### Stepping -/

/-- The entry at a train's step index in a bank; EMPTY past the bank's end. -/
def entryAt (bank : Vector BankEntry 24) (i : Nat) : BankEntry :=
  match index? 24 i with
  | some i => nth bank i
  | none => .empty

/-- A step's time in steps of the time base: its duration in units of 1 s or 16 s (R118). -/
def StepRecord.tenths (r : StepRecord) : Nat := r.duration * (if r.longUnit then 16 else 1) * 10

/-- A train without any deadline. -/
def Train.noDeadlines (t : Train) : Train :=
  { t with timeDeadline := none, dwellDeadline := none, timeoutDeadline := none, strokeDeadline := none }

/-- The other tower. -/
def Tower.other : Tower → Tower
  | .a => .b
  | .b => .a

/-- A WRITTEN step is entered: SWAP, and the timing of its advance (R122, R123, R124, R125). The patterns follow from the
step (Machine/Outputs.lean). -/
def enterWritten (now : Nat) (r : StepRecord) (t : Train) : Train :=
  let t := { t.noDeadlines with tower := if r.swap then t.tower.other else t.tower }
  match r.advance with
  | .time | .timeThenInput => { t with state := .running, timeDeadline := some (now + r.tenths) }
  | .input =>
    { t with state := .waitInput, dwellDeadline := some (now + 10), timeoutDeadline := some (now + r.tenths) }

/-- The end of a cycle: the count, the pending bank, and step index 0 (R122). -/
def endCycle (t : Train) : Train :=
  { t with
    cycles := holdAdd 65535 t.cycles 1
    bank := t.pendingBank.getD t.bank
    pendingBank := none
    stepIndex := 0 }

/-- The entry at the step index is entered; an END entry ends the cycle and passes on to entry 0, which is a WRITTEN step of
a valid bank (R122). -/
def enterStep (banks : Vector (Vector BankEntry 24) 2) (now : Nat) (t : Train) : Train :=
  match entryAt (nth banks t.bank) t.stepIndex with
  | .written r => enterWritten now r t
  | .endMark =>
    let t := endCycle t
    match entryAt (nth banks t.bank) 0 with
    | .written r => enterWritten now r t
    | _ => t
  | .empty => t

/-- The parked pattern, with the step index at the next entry to enter (R128). -/
def park (t : Train) : Train := { t.noDeadlines with state := .parked, parkRequest := false }

/-- The current step ends other than by a fault (R122, R128). -/
def endStep (banks : Vector (Vector BankEntry 24) 2) (now : Nat) (t : Train) : Train :=
  let t := { t with stepIndex := t.stepIndex + 1 }
  if t.parkRequest then park t else enterStep banks now t

/-- The step record a train is in, if it is in one. -/
def currentStep (banks : Vector (Vector BankEntry 24) 2) (t : Train) : Option StepRecord :=
  if t.state = .running ∨ t.state = .waitInput then
    match entryAt (nth banks t.bank) t.stepIndex with
    | .written r => some r
    | _ => none
  else none

/-- Does the named input stand at the named sense (R124)? -/
def atSense (t : Train) (r : StepRecord) : Bool := nth t.inputs r.input == r.sense

/-- The step of train `t` ends now. -/
def endStepOf (t : Fin 2) (s : State) : State := alterTrain t (endStep s.dsq.banks (timeBase s)) s

/-- A train enters FAULTED (R126): outputs off, the cause and the step recorded, deadlines and park request cleared,
condition TRAIN Dk and TRAIN_FAULTED. -/
def faultTrain (cause : TrainCause) (t : Fin 2) (s : State) : State :=
  setEventOps evTrainFaulted
    (report (condTrain t) true
      (alterTrain t
        (fun r => { r.noDeadlines with state := .faulted, cause := cause, faultStep := r.stepIndex, parkRequest := false }) s))

/-- A breakthrough: a reading at or above the breakthrough level ends a step that has ADSORB_EXIT at once (R127). -/
def breakthrough (value : Int) (t : Fin 2) (s : State) : State :=
  match currentStep s.dsq.banks (trainOf s t) with
  | some r =>
    if r.adsorbExit ∧ (trainOf s t).breakthrough ≤ value then
      endStepOf t (alterTrain t (fun x => { x with earlyAdvances := holdAdd 65535 x.earlyAdvances 1 }) s)
    else s
  | none => s

/-! ### Parking and resuming (R128, R129) -/

/-- Is a train's running allowed under a site direction? -/
def runningAllowed (d : SiteDirection) (t : Train) : Bool := decide (d = .withdrawing) || t.standby

/-- A PARKED train whose running is allowed and whose bank is valid enters the entry at its step index (R129). -/
def resume (d : SiteDirection) (banks : Vector (Vector BankEntry 24) 2) (now : Nat) (t : Train) : Train :=
  if t.state = .parked ∧ runningAllowed d t ∧ bankValid (nth banks t.bank) then enterStep banks now t else t

/-- What a change of whether running is allowed does to a train: a park request when it is no longer allowed, and when it is
allowed again the request's end and the resume of a PARKED train (R128, R129). -/
def followAllowed (was is : Bool) (d : SiteDirection) (banks : Vector (Vector BankEntry 24) 2) (now : Nat) (t : Train) : Train :=
  if was && !is then
    if t.state = .running ∨ t.state = .waitInput then { t with parkRequest := true } else t
  else if !was && is then resume d banks now { t with parkRequest := false }
  else t

/-- The DSQ takes a change of the site direction (R92, R128). -/
def dryersFollow (old new : SiteDirection) (s : State) : State :=
  s.withDsq { s.dsq with
    trains := each s.dsq.trains fun t =>
      followAllowed (runningAllowed old t) (runningAllowed new t) new s.dsq.banks (timeBase s) t }

/-- Train `t` resumes if it may. -/
def resumeTrain (t : Fin 2) (s : State) : State :=
  alterTrain t (resume s.dir.direction s.dsq.banks (timeBase s)) s

/-! ### Off-spec gas (R132) -/

/-- The off-spec state after a good reading, from the state before. -/
def offSpecAfterReading (before : Bool) (t : Train) (value : Int) : Bool :=
  if before then !decide (value ≤ t.specLimit - t.hysteresis) else decide (t.specLimit ≤ value)

/-- The off-spec state judged afresh on a channel. -/
def offSpecFresh (t : Train) (ch : Channel) : Bool :=
  decide (ch.quality = .noReading) || decide (t.specLimit ≤ ch.value)

/-- Train `t` takes a good reading of its dew point; an OFF train judges nothing. -/
def judgeReading (t : Fin 2) (value : Int) (s : State) : State :=
  alterTrain t (fun r => if r.state = .off then r else { r with offSpec := offSpecAfterReading r.offSpec r value }) s

/-- Train `t` judges its off-spec state afresh; an OFF train is not off-spec. -/
def judgeFresh (t : Fin 2) (s : State) : State :=
  alterTrain t
    (fun r => { r with offSpec := decide (r.state ≠ .off) && offSpecFresh r (boundChannel s r.binding) }) s

/-- The quality of train `t`'s dew point becomes NONE. -/
def judgeNoReading (t : Fin 2) (s : State) : State :=
  alterTrain t (fun r => { r with offSpec := decide (r.state ≠ .off) }) s

/-- Does train `t` read channel `c`-anything of slot `n`? -/
def trainReads (s : State) (n : Fin 16) (t : Fin 2) : Bool :=
  match (trainOf s t).binding with
  | some b => decide (b.slot = n)
  | none => false

/-- The report of OFFSPEC Dk. -/
def offSpecReport (s : State) (t : Fin 2) : Fin 56 × Bool := (condOffSpec t, (trainOf s t).offSpec)

end Sys2Proof.Machine
end

