-- ==== Sys2Proof/Machine/Duty.lean ====
section
/-! DEFINITION. The CPD's own work, before the direction controller hears of it: entering the states of a unit (R96 to R103), the
start and stop choices (R107), the duty evaluation (R105, R106) and the stops on leaving INJECTING (R108). -/

namespace Sys2Proof.Machine

/-! ### Entering states -/

/-- STARTING (R98). -/
def startUnit (now : Nat) (d : DutySettings) (u : UnitRecord) : UnitRecord :=
  { u with
    state := .starting
    startList := u.startList ++ [now]
    attempts := holdAdd 255 u.attempts 1
    deadline := some (now + d.startTimeout * 10) }

/-- COOLDOWN, with the cooldown in force (R100, R101, R111). -/
def enterCooldown (now : Nat) (d : DutySettings) (u : UnitRecord) : UnitRecord :=
  { u with state := .cooldown, deadline := some (now + d.cooldown * 10), cutStart := none }

/-- OUT (R101, R110). -/
def enterOut (u : UnitRecord) : UnitRecord := { u with state := .out, deadline := none, attempts := 0 }

/-- A unit leaves STOPPING for its stop destination (R101). -/
def arrive (now : Nat) (d : DutySettings) (destination : StopDestination) (u : UnitRecord) : UnitRecord :=
  match destination with
  | .cooldown => enterCooldown now d u
  | .out => enterOut u

/-- STOPPING, with the stop timeout in force (R101). -/
def enterStopping (now : Nat) (d : DutySettings) (destination : StopDestination) (u : UnitRecord) : UnitRecord :=
  { u with state := .stopping destination, deadline := some (now + d.stopTimeout * 10), cutStart := none }

/-- A stop is decided: STOPPING, left at once when the feedback level is already false (R101). -/
def stopUnit (now : Nat) (d : DutySettings) (destination : StopDestination) (u : UnitRecord) : UnitRecord :=
  if u.feedback then enterStopping now d destination u else arrive now d destination u

/-- The stop of a unit as the site leaves INJECTING, at fine count `fine` (R108). A STARTING unit whose feedback is false leaves
STOPPING at once for COOLDOWN, as R101 and R108 say; the instant is kept, since R108 has the unit in STOPPING when its feedback
rises at that same instant. Log entry 43. -/
def stopLeaving (fine : Nat) (d : DutySettings) (u : UnitRecord) : UnitRecord :=
  { stopUnit (fine / 100) d .cooldown u with
    cutStart := if u.state = .starting ∧ u.feedback = false then some fine else none }

/-! ### Counting and choosing -/

/-- Is a unit active: STARTING or RUNNING (R96)? -/
def UnitRecord.isActive (u : UnitRecord) : Bool := decide (u.state = .starting) || decide (u.state = .running)

/-- Is a unit in motion: STARTING, RUNNING or STOPPING (R96)? -/
def UnitRecord.inMotion (u : UnitRecord) : Bool :=
  match u.state with
  | .starting | .running | .stopping _ => true
  | _ => false

/-- Number of active units A (R106). -/
def activeUnits (c : Cpd) : Nat := countFin fun u : Fin 4 => (nth c.units u).isActive

/-- The STARTING unit, if one is (R107). -/
def startingUnit (c : Cpd) : Option (Fin 4) := firstFin fun u => decide ((nth c.units u).state = .starting)

/-- Is a unit eligible to start (R107)? -/
def eligible (c : Cpd) (u : Fin 4) : Bool :=
  decide ((nth c.units u).state = .ready) && decide ((nth c.units u).startList.length < c.settings.maxStarts)

/-- The eligible unit with the fewest run seconds, the lowest number among equals (R107). -/
def startChoice (c : Cpd) : Option (Fin 4) :=
  overFin 4
    (fun u best =>
      if eligible c u then
        match best with
        | none => some u
        | some b => if (nth c.units u).runSeconds < (nth c.units b).runSeconds then some u else some b
      else best)
    none

/-- The RUNNING unit with the most run seconds, the highest number among equals (R107). -/
def stopChoice (c : Cpd) : Option (Fin 4) :=
  overFin 4
    (fun u best =>
      if (nth c.units u).state = .running then
        match best with
        | none => some u
        | some b => if (nth c.units b).runSeconds ≤ (nth c.units u).runSeconds then some u else some b
      else best)
    none

/-! ### The duty evaluation (R105, R106) -/

/-- Confirmed net of the open hour. -/
def openNet (s : State) : Int :=
  match openPosition s with
  | some p => (hourOf s p).site.net
  | none => 0

/-- The duty demand k: the units the open hour's net needs while the site is INJECTING, at most 4 (R105). -/
def demandOf (s : State) : Nat :=
  match s.dir.direction with
  | .injecting => min 4 (ceilDiv (openNet s).toNat s.dir.site.unitRate)
  | _ => 0

/-- Stops RUNNING units by the stop choice until at most k are active, or none is RUNNING; `fuel` bounds them by the four
units there are. -/
def stopSurplus (now demand : Nat) : Nat → Cpd → Cpd
  | 0, c => c
  | fuel + 1, c =>
    if demand < activeUnits c then
      match stopChoice c with
      | some u => stopSurplus now demand fuel { c with units := alter c.units u (stopUnit now c.settings .cooldown) }
      | none => c
    else c

/-- Starts one unit by the start choice when fewer than k are active and none is STARTING. -/
def startOne (now demand : Nat) (c : Cpd) : Cpd :=
  if activeUnits c < demand ∧ startingUnit c = none then
    match startChoice c with
    | some u => { c with units := alter c.units u (startUnit now c.settings) }
    | none => c
  else c

/-- The shortfall and its reason, with the units now counted. -/
def formShortfall (demand : Nat) (c : Cpd) : Cpd :=
  let short := demand - activeUnits c
  { c with
    demand := demand
    shortfall := short
    reason :=
      if short = 0 then .noShortfall
      else if (startingUnit c).isSome then .startInProgress
      else .noEligibleUnit }

/-- The evaluation (R106), before the direction controller hears of the states it changed. -/
def evaluate (s : State) : State :=
  let k := demandOf s
  let now := timeBase s
  s.withCpd (formShortfall k (startOne now k (stopSurplus now k 4 s.cpd)))

/-- Leaving INJECTING: every STARTING and RUNNING unit is stopped, and k and the shortfall become 0 (R108). -/
def leaveInjecting (s : State) : State :=
  s.withCpd { s.cpd with
    units := each s.cpd.units fun u => if u.isActive then stopLeaving s.fine s.cpd.settings u else u
    demand := 0
    shortfall := 0
    reason := .noShortfall }

/-- The states of the four units, as the CPD reports them to the direction controller (R96). -/
def unitStates (s : State) : List UnitState := s.cpd.units.toList.map UnitRecord.state

/-- Are no units STARTING, RUNNING or STOPPING (R90)? -/
def unitsAtRest (s : State) : Bool := allFin fun u : Fin 4 => !(unitOf s u).inMotion

end Sys2Proof.Machine
end

