-- ==== Sys2Proof/Machine/Metering.lean ====
section
/-! DEFINITION. The MTU: base-volume conversion (R48), the processing of a good reading (R45 to R49), gaps (R50 to R54), the CV
latch (R56), the hour's energies (R55), the COUNTER conditions (R58) and the quiet answer (R59). -/

namespace Sys2Proof.Machine

/-! ### Conversion (R48) -/

/-- Pressure limited to 0..25,000 kPa. -/
def clampPressure (p : Int) : Nat := min 25000 p.toNat

/-- Temperature limited to −4,000..+8,000. -/
def clampTemperature (t : Int) : Int := max (-4000) (min 8000 t)

/-- Did the clamp change the pressure or the temperature? -/
def clamps (p t : Int) : Bool := decide ((clampPressure p : Int) ≠ p) || decide (clampTemperature t ≠ t)

/-- The β band of a clamped temperature; each edge belongs to the band above it (R43). -/
def betaBand (t : Int) : Fin 4 := if t < 0 then 0 else if t < 2000 then 1 else if t < 4000 then 2 else 3

/-- Volume at base conditions of `pulses` pulses, stage by stage. -/
def baseVolume (beta : Vector Nat 4) (weight : Nat) (pressure temperature : Int) (pulses : Nat) : Nat :=
  let p := clampPressure pressure
  let t := clampTemperature temperature
  let va := pulses * weight
  let fp := roundDiv (p * 65536000) 101325
  let tk := (t + 27315).toNat
  let ft := roundDiv 1790115840 tk
  let fz := 65536 + roundDiv (p * nth beta (betaBand t)) 256
  let fc := roundDiv (fp * ft) 65536
  let fcz := roundDiv (fc * fz) 65536
  roundDiv (va * fcz) 65536

/-! ### Booking -/

/-- Volume added to the hour accumulator, or to the unclocked accumulator; an addition past 2⁶⁴ − 1 leaves it there (R44). -/
def Direction.book (toHour : Bool) (volume : Nat) (d : Direction) : Direction :=
  if toHour then { d with hourVolume := holdAdd maxVolume d.hourVolume volume }
  else { d with unclocked := holdAdd maxVolume d.unclocked volume }

/-- What a direction books for `tenths` steps at its stored rate (R47, R52, R53). -/
def Direction.substitute (d : Direction) (tenths : Nat) : Nat := d.rate * tenths / 10

/-- A point's directions changed; M3 has the forward one alone (R40). -/
def Point.eachDirection (k : Fin 7) (f : Direction → Direction) (p : Point) : Point :=
  { p with forward := f p.forward, reverse := if hasReverse k then f p.reverse else p.reverse }

/-- Estimated tenths hold at 2³² − 1 (R44). -/
def Point.estimate (tenths : Nat) (p : Point) : Point :=
  { p with estimatedTenths := holdAdd maxCount32 p.estimatedTenths tenths }

/-- A flag set set when either is. -/
def MeterFlags.merge (a b : MeterFlags) : MeterFlags :=
  ⟨a.estimated || b.estimated, a.cvHeld || b.cvHeld, a.clamped || b.clamped, a.rebased || b.rebased, a.restart || b.restart⟩

/-- Flags set on the receiving hour: the open hour, or the unclocked set while the clock is UNSET (R45, R54). -/
def setMeterFlags (toHour : Bool) (f : MeterFlags) (s : State) : State :=
  if toHour then s.withMtu { s.mtu with flags := s.mtu.flags.merge f }
  else s.withMtu { s.mtu with unclockedFlags := s.mtu.unclockedFlags.merge f }

/-- The flag set that holds ESTIMATED alone. -/
def estimatedFlag : MeterFlags := { MeterFlags.clear with estimated := true }

/-! ### Gaps (R51 to R54) -/

/-- An open gap books each direction's substitution from the booked-to time to now, and counts the time as estimated; the
booked-to time becomes now (R52, R54). -/
def bookGap (toHour : Bool) (k : Fin 7) (s : State) : State :=
  match (pointOf s k).gap with
  | none => s
  | some booked =>
    let tenths := timeBase s - booked
    setMeterFlags toHour estimatedFlag
      (alterPoint k
        (fun p => { (p.eachDirection k fun d => d.book toHour (d.substitute tenths)).estimate tenths with gap := some (timeBase s) }) s)

/-- An open gap closes with its final booking into the open hour, or into the unclocked accumulator while the clock is UNSET
(R53). -/
def closeGap (k : Fin 7) (s : State) : State :=
  alterPoint k (fun p => { p with gap := none }) (bookGap (clockRunning s) k s)

/-- The gap of a point opens when its bound slot enters ABSENT or FAULTED: from the slot's time of last good reading, or
from now when it has none (R51). FSU times are taken divided by 100 and floored (R1). -/
def openGap (k : Fin 7) (n : Fin 16) (s : State) : State :=
  alterPoint k
    (fun p =>
      { p with gap := some (match (channelAt (slotOf s n) 0).lastGood with
                            | some t => t / 100
                            | none => timeBase s) }) s

/-- The gap of the point bound to slot `n`, if one is, opens. -/
def openGapOf (n : Fin 16) (s : State) : State :=
  match pointBoundTo s n with
  | some k => openGap k n s
  | none => s

/-- DISABLE-SLOT of a bound slot closes the gap and takes the baselines, rates and fresh marks of its point (R53). -/
def disablePoint (n : Fin 16) (s : State) : State :=
  match pointBoundTo s n with
  | some k =>
    alterPoint k (fun p => p.eachDirection k fun d => { d with baseline := none, rate := 0, fresh := false }) (closeGap k s)
  | none => s

/-- A point leaves its old binding: the gap closes, and what was taken from the old slot's counters goes (R42). -/
def unbindPoint (k : Fin 7) (s : State) : State :=
  alterPoint k
    (fun p =>
      { p.eachDirection k fun d => { d with baseline := none, rate := 0, fresh := false, implausible := false } with
        readingTime := none })
    (closeGap k s)

/-! ### A good reading (R45 to R49) -/

/-- What the reading brings to every direction of its point. -/
structure Reading where
  pressure : Int
  temperature : Int
  recovered : Bool
  interval : Nat
  toHour : Bool

/-- What the processing of one direction leaves: the direction, the flags it sets on the receiving hour, and the tenths it
adds to the estimated ones. -/
structure DirectionResult where
  direction : Direction
  flags : MeterFlags
  estimated : Nat

/-- The delta of a counter, modulo its modulus (R47). -/
def counterDelta (modulus baseline value : Nat) : Nat := (((value : Int) - baseline) % (modulus : Int)).toNat

/-- One direction at a good reading: it rebases (R46), or books a plausible delta (R48, R49) or the substitution of an
implausible one (R47). -/
def takeDirection (beta : Vector Nat 4) (p : Point) (r : Reading) (modulus value : Nat) (d : Direction) : DirectionResult :=
  match d.baseline, r.recovered with
  | some baseline, false =>
    let pulses := counterDelta modulus baseline value
    if pulses ≤ p.ceiling then
      let volume := baseVolume beta p.weight r.pressure r.temperature pulses
      { direction :=
          { d.book r.toHour volume with
            baseline := some value, rate := volume * 10 / r.interval, fresh := true, implausible := false }
        flags := { MeterFlags.clear with clamped := clamps r.pressure r.temperature }
        estimated := 0 }
    else
      { direction := { d.book r.toHour (d.substitute r.interval) with baseline := some value, implausible := true }
        flags := estimatedFlag
        estimated := r.interval }
  | _, _ =>
    { direction := { d with baseline := some value, fresh := false }
      flags := { MeterFlags.clear with rebased := true }
      estimated := 0 }

/-- A counter's modulus, from its channel's format (R40). -/
def counterModulus (sl : Slot) (c : Nat) : Nat :=
  match (channelSetting? sl c).map ChannelSetting.format with
  | some .u32 => 4294967296
  | _ => 65536

/-- The interval of a reading in tenths, at least 1 (R45). -/
def readingInterval (s : State) (p : Point) : Nat :=
  match p.readingTime with
  | some t => max 1 (timeBase s - t)
  | none => 1

/-- The point's directions processed, forward first, and its reading time set (R45). -/
def processDirections (k : Fin 7) (sl : Slot) (recovered : Bool) (s : State) : State :=
  let p := pointOf s k
  let r : Reading :=
    { pressure := (channelAt sl (pressureIndex k)).value
      temperature := (channelAt sl (temperatureIndex k)).value
      recovered := recovered
      interval := readingInterval s p
      toHour := clockRunning s }
  let take := fun (c : Nat) (d : Direction) =>
    takeDirection s.mtu.beta p r (counterModulus sl c) (channelAt sl c).value.toNat d
  let fwd := take 0 p.forward
  let rev := if hasReverse k then take 1 p.reverse else ⟨p.reverse, MeterFlags.clear, 0⟩
  setMeterFlags (clockRunning s) (fwd.flags.merge rev.flags)
    (alterPoint k
      (fun p =>
        { (p.estimate fwd.estimated).estimate rev.estimated with
          forward := fwd.direction, reverse := rev.direction, readingTime := some (timeBase s) }) s)

/-- A good reading of the slot bound to point `k`: a recovered reading first closes an open gap, then the directions are
processed (R45, R53). -/
def goodReading (k : Fin 7) (n : Fin 16) (recovered : Bool) (s : State) : State :=
  processDirections k (slotOf s n) recovered (if recovered then closeGap k s else s)

/-- The COUNTER condition of a point follows its implausible marks (R58). -/
def counterActive (p : Point) : Bool := p.forward.implausible || p.reverse.implausible

/-! ### Hour start and hour close -/

/-- The CV of the hour that starts, with the open hour's start time and condition 39 (R56). -/
def latchCv (s : State) : State :=
  let started := s.withMtu { s.mtu with startTime := some (timeBase s) }
  match s.mtu.cvSource with
  | none => report condCv false (started.withMtu { started.mtu with latchedCv := s.mtu.cvDefault })
  | some b =>
    let ch := boundChannel s (some b)
    if ch.quality = .good ∧ 8000 ≤ ch.value ∧ ch.value ≤ 13500 then
      report condCv false (started.withMtu { started.mtu with latchedCv := ch.value.toNat })
    else
      report condCv true (setMeterFlags true { MeterFlags.clear with cvHeld := true } started)

/-- The unclocked measurement of R54, taken by SET-CLOCK: open gaps are booked to the set instant, the unclocked
accumulators and flags pass to the set hour, and RESTART is set on it. -/
def mergeUnclocked (s : State) : State :=
  let booked := overFin 7 (fun k s => bookGap false k s) s
  let moved := booked.withMtu { booked.mtu with
    points := tab fun k => (nth booked.mtu.points k).eachDirection k fun d =>
      { d.book true d.unclocked with unclocked := 0 }
    flags := (booked.mtu.flags.merge booked.mtu.unclockedFlags)
    unclockedFlags := MeterFlags.clear }
  setMeterFlags true { MeterFlags.clear with restart := true } moved

/-- What the MTU hands to the CAU at a close (R55). -/
structure HourMetering where
  forward : Vector Nat 7
  reverse : Vector Nat 7
  cv : Nat
  flags : MeterFlags
  estimatedSeconds : Nat

/-- What it hands at the close of a missed hour (R55, R188). -/
def HourMetering.zero : HourMetering := ⟨fill 7 0, fill 7 0, 0, MeterFlags.clear, 0⟩

/-- Energy of a volume before its limit (R55). -/
def rawEnergy (cv volume : Nat) : Nat := roundDiv (volume * cv) 1000000000

/-- Hourly energy of a volume: round(volume × CV / 10⁹), handed as at most 100,000,000 (R55). -/
def energyOf (cv volume : Nat) : Nat := min Config.maxRate (rawEnergy cv volume)

/-- The metering of the closing hour, once its open gaps are booked (R55 steps 2 and 3). -/
def hourMetering (m : Mtu) : HourMetering :=
  { forward := each m.points fun p => energyOf m.latchedCv p.forward.hourVolume
    reverse := tab fun k => if hasReverse k then energyOf m.latchedCv (nth m.points k).reverse.hourVolume else 0
    cv := m.latchedCv
    flags :=
      { m.flags with
        clamped := m.flags.clamped || someFin fun k : Fin 7 =>
          decide (Config.maxRate < rawEnergy m.latchedCv (nth m.points k).forward.hourVolume)
            || (hasReverse k && decide (Config.maxRate < rawEnergy m.latchedCv (nth m.points k).reverse.hourVolume)) }
    estimatedSeconds := min 3600 ((m.points.toList.map fun p => p.estimatedTenths / 10).foldl max 0) }

/-- Accumulators, flags and estimated tenths after a close (R55 step 4). -/
def clearHour (m : Mtu) : Mtu :=
  { m with
    points := tab fun k =>
      { (nth m.points k).eachDirection k fun d => { d with hourVolume := 0 } with estimatedTenths := 0 }
    flags := MeterFlags.clear }

/-! ### The quiet answer (R59) -/

/-- A direction of a point. -/
def Point.directionOf (p : Point) : Flow → Direction
  | .injecting => p.forward
  | .withdrawing => p.reverse

/-- Counter channel of a direction: forward 0, reverse 1 (R40). -/
def counterIndex : Flow → Nat
  | .injecting => 0
  | .withdrawing => 1

/-- Is a direction of a boundary point quiet: bound to nothing, or read GOOD with a fresh rate below the threshold? -/
def quiet (s : State) (k : Fin 7) (flow : Flow) : Bool :=
  match (pointOf s k).slot with
  | none => true
  | some n =>
    let good := fun c => decide ((channelAt (slotOf s n) c).quality = .good)
    let d := (pointOf s k).directionOf flow
    good (counterIndex flow) && good (pressureIndex k) && good (temperatureIndex k) && d.fresh
      && decide (d.rate * 36 / 10000 < s.dir.site.quietThreshold)

/-- Are both boundary points quiet in a direction (R90)? -/
def boundaryQuiet (s : State) (flow : Flow) : Bool := quiet s 0 flow && quiet s 1 flow

/-- The four quiet answers of M1 and M2. -/
def quietAnswers (s : State) : List Bool :=
  [quiet s 0 .injecting, quiet s 0 .withdrawing, quiet s 1 .injecting, quiet s 1 .withdrawing]

end Sys2Proof.Machine
end

