-- ==== Sys2Proof/Machine/Direction.lean ====
section
/-! DEFINITION. The DIR: bands (R82), a change of direction and what it hands on (R92, R108), the hour's target (R89), the completion
and the overrun of a changeover (R90, R91); and the CPD's events together with what the DIR makes of them
(R96, R102, R106). -/

namespace Sys2Proof.Machine

/-! ### Bands (R82, R83) -/

/-- The new band from the pressure channel and the band before. -/
def nextBand (c : Cavern) (pressure : Channel) : Band :=
  let p := pressure.value
  if pressure.quality = .noReading then .normal
  else
    match c.band with
    | .normal => if (c.pmax : Int) ≤ p then .high else if p ≤ c.pmin then .low else .normal
    | .high =>
      if p ≤ c.pmin then .low else if p ≤ (c.pmax : Int) - c.hysteresis then .normal else .high
    | .low =>
      if (c.pmax : Int) ≤ p then .high else if (c.pmin : Int) + c.hysteresis ≤ p then .normal else .low

/-- The band of a cavern is evaluated from its pressure. -/
def evaluateBand (k : Fin 4) (s : State) : State :=
  alterCavern k (fun c => { c with band := nextBand c (cavernPressure s k) }) s

/-- The report of BAND Ck: Active while the band is HIGH or LOW. -/
def bandReport (s : State) (k : Fin 4) : Fin 56 × Bool := (condBand k, decide ((cavernOf s k).band ≠ .normal))

/-! ### Changes of direction -/

/-- The state that flow in a direction stands for. -/
def Flow.direction : Flow → SiteDirection
  | .injecting => .injecting
  | .withdrawing => .withdrawing

/-- The other of the two directions. -/
def Flow.other : Flow → Flow
  | .injecting => .withdrawing
  | .withdrawing => .injecting

/-- A change of the direction state, with its effects in the order of R92; condition 55 falls when a changeover ends
(R91). -/
def changeDirection (new : SiteDirection) (s : State) : State :=
  let old := s.dir.direction
  let entered := setEventOps evDirectionChanged (s.withDir { s.dir with direction := new })
  let left := if old = .injecting then leaveInjecting entered else entered
  let duty := if new = .injecting then evaluate left else left
  report condOverrun false (dryersFollow old new duty)

/-- Has the changeover minimum in force passed since the start (R90 test 1)? -/
def minimumPassed (s : State) (c : Changeover) : Bool :=
  decide (c.start + s.dir.site.changeoverMinimum * 10 ≤ timeBase s)

/-- Has the changeover limit in force passed since the start (R91)? -/
def limitPassed (s : State) (c : Changeover) : Bool :=
  decide (c.start + s.dir.site.changeoverLimit * 10 ≤ timeBase s)

/-- R90 test 3: the units are at rest when the old direction is INJECTING. -/
def unitsClear (s : State) (c : Changeover) : Bool :=
  match c.target with
  | .withdrawing => unitsAtRest s
  | .injecting => true

/-- The three tests of R90. -/
def changeoverComplete (s : State) (c : Changeover) : Bool :=
  minimumPassed s c && boundaryQuiet s c.target.other && unitsClear s c

/-- A changeover whose three tests hold completes: the state becomes the target direction (R90). -/
def testCompletion (s : State) : State :=
  match s.dir.direction with
  | .changeover c => if changeoverComplete s c then changeDirection c.target.direction s else s
  | _ => s

/-- The overrun mark is set and condition 55 becomes Active (R91). -/
def overrun (c : Changeover) (s : State) : State :=
  report condOverrun true (s.withDir { s.dir with direction := .changeover { c with overrun := true } })

/-- The DIR's test at a change of a unit's state that the CPD has reported (R90, R96). -/
def unitsReported (before after : State) : State :=
  if unitStates before = unitStates after then after else testCompletion after

/-- The DIR's test at a change of a quiet answer (R59, R90). -/
def quietReported (before after : State) : State :=
  if quietAnswers before = quietAnswers after then after else testCompletion after

/-- A duty evaluation, with the report of the states it changed (R106). -/
def dutyEvaluation (s : State) : State := unitsReported s (evaluate s)

/-! ### The hour's target (R89) -/

/-- Target of the hour at position `p`: by its confirmed net; none, for STANDBY, when the net is 0 or the hour is not
firmed. -/
def hourTarget (s : State) (p : Fin 72) : Option Flow :=
  if (hourOf s p).site.firmed then
    if 0 < (hourOf s p).site.net then some .injecting
    else if (hourOf s p).site.net < 0 then some .withdrawing
    else none
  else none

/-- The state after, from the state before and the target, by the table of R89. -/
def nextDirection (now : Nat) (target : Option Flow) : SiteDirection → SiteDirection
  | .standby =>
    match target with
    | none => .standby
    | some f => f.direction
  | .injecting =>
    match target with
    | none => .standby
    | some .injecting => .injecting
    | some .withdrawing => .changeover ⟨.withdrawing, now, false⟩
  | .withdrawing =>
    match target with
    | none => .standby
    | some .withdrawing => .withdrawing
    | some .injecting => .changeover ⟨.injecting, now, false⟩
  | .changeover c =>
    match target with
    | none => .standby
    | some f => if f = c.target then .changeover c else f.direction

/-- The DIR takes the target of the hour at position `p`; a state that stays is no change. Leaving INJECTING changes units,
which the DIR hears of within the event. -/
def takeTarget (p : Fin 72) (s : State) : State :=
  let new := nextDirection (timeBase s) (hourTarget s p) s.dir.direction
  if new = s.dir.direction then s else unitsReported s (changeDirection new s)

/-! ### Unit events -/

/-- A unit enters FAULTED (R102): its record, condition UNIT Uk, UNIT_TRIPPED, the report to the DIR, and a duty evaluation when
it left STARTING, RUNNING or COOLDOWN. -/
def faultUnit (cause : UnitCause) (u : Fin 4) (s : State) : State :=
  let before := (unitOf s u).state
  let marked := alterUnit u (fun r => { r with state := .faulted, cause := cause, deadline := none }) s
  let told := unitsReported s (setEventOps evUnitTripped (report (condUnit u) true marked))
  if before = .starting ∨ before = .running ∨ before = .cooldown then dutyEvaluation told else told

/-- A unit changes its state without a fault: the DIR hears of it, and a duty evaluation follows where R106 raises one. -/
def changeUnit (u : Fin 4) (f : UnitRecord → UnitRecord) (evaluates : Bool) (s : State) : State :=
  let told := unitsReported s (alterUnit u f s)
  if evaluates then dutyEvaluation told else told

end Sys2Proof.Machine
end

