-- ==== Sys2Proof/Machine/Caverns.lean ====
section
/-! DEFINITION. The DIR's commands: SET-CAVERN (R80), SET-CAVERN-INVENTORY (R86), SET-SITE (R87), and the two expiries of a
changeover (R90, R91). -/

namespace Sys2Proof.Machine

/-! ### Cavern requests -/

/-- Checks 2 and 3 of R80. -/
def cavernSettingsValid (pmin pmax hysteresis injection withdrawal : Nat) : Bool :=
  decide (pmin ≤ 25000) && decide (pmax ≤ 25000) && decide (hysteresis ≤ 12500) && decide (injection ≤ Config.maxRate)
    && decide (withdrawal ≤ Config.maxRate) && decide (pmin < pmax) && decide (pmin + 2 * hysteresis ≤ pmax)

/-- The settings are stored, and the band is evaluated and reported (R80, R83). -/
def storeCavern (k : Fin 4) (settings : Cavern → Cavern) (s : State) : State :=
  let judged := evaluateBand k (alterCavern k settings s)
  reportAll [bandReport judged k] judged

/-- SET-CAVERN past the checks that every request has. -/
def setCavern (fields : List Byte) (s : State) : Answer :=
  match ordinal? 4 (byteAt fields 0), service? (byteAt fields 1) with
  | some k, some service =>
    let pmin := num fields 2 2
    let pmax := num fields 4 2
    let hysteresis := num fields 6 2
    let injection := num fields 8 4
    let withdrawal := num fields 12 4
    if !cavernSettingsValid pmin pmax hysteresis injection withdrawal then .refuse .range
    else
      .taken
        (storeCavern k
          (fun c => { c with
            inService := service, pmin := pmin, pmax := pmax, hysteresis := hysteresis
            injectionRate := injection, withdrawalRate := withdrawal }) s)
        []
  | _, _ => .refuse .malformed

/-- SET_CAVERN. -/
def execSetCavern (port : Port) (fields : List Byte) (s : State) : Host.Outcome State Fault Refusal :=
  serve (some .ops) 0x50 port fields (setCavern fields) s

/-- SET-CAVERN-INVENTORY past the checks that every request has (R86). -/
def setCavernInventory (fields : List Byte) (s : State) : Answer :=
  match ordinal? 4 (byteAt fields 0) with
  | none => .refuse .malformed
  | some k =>
    if Config.maxInventory < num fields 1 4 then .refuse .range
    else .taken (alterCavern k (fun c => { c with gas := num fields 1 4 }) s) []

/-- SET_CAVERN_INVENTORY. -/
def execSetCavernInventory (port : Port) (fields : List Byte) (s : State) : Host.Outcome State Fault Refusal :=
  serve (some .ops) 0x51 port fields (setCavernInventory fields) s

/-! ### SET-SITE -/

/-- The settings a SET-SITE carries, in the order of R87. -/
def readSite (fields : List Byte) : SiteSettings :=
  { injectionCapacity := num fields 0 4, withdrawalCapacity := num fields 4 4, quietThreshold := num fields 8 4
    changeoverMinimum := num fields 12 2, changeoverLimit := num fields 14 2, unitRate := num fields 16 4
    trainRate := num fields 20 4, tolerance := num fields 24 4 }

/-- Are all site settings in their ranges, and the minimum not above the limit (R87)? -/
def SiteSettings.valid (c : SiteSettings) : Bool :=
  decide (c.injectionCapacity ≤ Config.maxRate) && decide (c.withdrawalCapacity ≤ Config.maxRate)
    && decide (1 ≤ c.quietThreshold ∧ c.quietThreshold ≤ 10000000) && decide (c.changeoverMinimum ≤ 3600)
    && decide (60 ≤ c.changeoverLimit ∧ c.changeoverLimit ≤ 7200) && decide (1 ≤ c.unitRate ∧ c.unitRate ≤ Config.maxRate)
    && decide (c.trainRate ≤ Config.maxRate) && decide (c.tolerance ≤ Config.maxRate)
    && decide (c.changeoverMinimum ≤ c.changeoverLimit)

/-- The completion test of a SET-SITE that changes the minimum or the quiet threshold (R90). -/
def siteCompletes (old : SiteSettings) (s : State) : State :=
  if old.changeoverMinimum = s.dir.site.changeoverMinimum ∧ old.quietThreshold = s.dir.site.quietThreshold then s
  else testCompletion s

/-- The overrun of a SET-SITE that lowers the limit to or below the time already spent (R91). -/
def siteOverruns (old : SiteSettings) (s : State) : State :=
  match s.dir.direction with
  | .changeover c =>
    if s.dir.site.changeoverLimit < old.changeoverLimit ∧ limitPassed s c ∧ c.overrun = false then overrun c s else s
  | _ => s

/-- The site settings stored, with what a changeover in progress makes of them and the duty evaluation (R87, R106). -/
def storeSite (c : SiteSettings) (s : State) : State :=
  dutyEvaluation (siteOverruns s.dir.site (siteCompletes s.dir.site (s.withDir { s.dir with site := c })))

/-- SET-SITE past the checks that every request has. -/
def setSite (fields : List Byte) (s : State) : Answer :=
  if !(readSite fields).valid then .refuse .range else .taken (storeSite (readSite fields) s) []

/-- SET_SITE. -/
def execSetSite (port : Port) (fields : List Byte) (s : State) : Host.Outcome State Fault Refusal :=
  serve (some .ops) 0x52 port fields (setSite fields) s

/-! ### The expiries of a changeover -/

/-- The changeover minimum has passed, and the completion tests are made (R90). -/
def minimumExpires (s : State) : State :=
  match s.dir.direction with
  | .changeover c => if minimumPassed s c then testCompletion s else s
  | _ => s

/-- The changeover limit has passed, and the changeover has not completed (R91). -/
def limitExpires (s : State) : State :=
  match s.dir.direction with
  | .changeover c => if limitPassed s c ∧ c.overrun = false then overrun c s else s
  | _ => s

/-- CHANGEOVER_MINIMUM_EXPIRY. -/
def execChangeoverMinimumExpiry (s : State) : Host.Outcome State Fault Refusal := unlessHeld minimumExpires s

/-- CHANGEOVER_LIMIT_EXPIRY. -/
def execChangeoverLimitExpiry (s : State) : Host.Outcome State Fault Refusal := unlessHeld limitExpires s

end Sys2Proof.Machine
end

