-- ==== Sys2Proof/Machine/Close.lean ====
section
/-! DEFINITION. The close of an hour by the CAU (R175 to R188), the day rollover (R155), the start of an hour (R4) and the event of
an hour boundary. -/

namespace Sys2Proof.Machine

/-! ### Gathering (R55, R133, R188) -/

/-- What a close has gathered. -/
structure Gathered where
  metering : HourMetering
  offSpecSeconds : Vector Nat 2
  trimmed : Bool
  outage : Bool

/-- The gaps are booked into the closing hour before it is measured (R52). -/
def bookOpenGaps (s : State) : State := overFin 7 (fun k s => bookGap true k s) s

/-- Gathering at a close raised by the clock. -/
def gather (s : State) : Gathered :=
  { metering := hourMetering s.mtu
    offSpecSeconds := tab fun t => min 3600 ((trainOf s t).offSpecTenths / 10)
    trimmed := s.clock.trimmed
    outage := false }

/-- Gathering at the close of a missed hour (R188). -/
def gatherMissed : Gathered := ⟨HourMetering.zero, fill 2 0, false, true⟩

/-- The MTU and the DSQ after a close raised by the clock: accumulators, flags, estimated tenths and off-spec tenths cleared
(R55, R133). -/
def clearGathered (s : State) : State :=
  let metered := s.withMtu (clearHour s.mtu)
  metered.withDsq { metered.dsq with trains := each metered.dsq.trains fun t => { t with offSpecTenths := 0 } }

/-! ### Measured quantities (R176) -/

def energyIn (m : HourMetering) : Nat := nth m.forward 0 + nth m.forward 1
def energyOut (m : HourMetering) : Nat := nth m.reverse 0 + nth m.reverse 1
def energyFuel (m : HourMetering) : Nat := nth m.forward 2

/-- The site's measured net M. -/
def measuredNet (m : HourMetering) : Int := (energyIn m : Int) - energyOut m

/-- The net of each cavern. -/
def cavernNets (m : HourMetering) : Vector Int 4 :=
  tab fun k => ((nth m.forward (wellhead k) : Nat) : Int) - ((nth m.reverse (wellhead k) : Nat) : Int)

/-- The confirmations q_s of the closing hour; a VACANT slot has none, an absent one counts as 0. -/
def closingConfirmed (s : State) (p : Fin 72) : Vector Int 16 :=
  tab fun a => if (accountOf s a).held then confirmedOf s p a else 0

/-! ### Allocation (R177 to R180) -/

/-- Magnitudes of the confirmations that flow in a direction. -/
def flowing (positive : Bool) (q : Vector Int 16) : Vector Nat 16 := if positive then positives q else negatives q

/-- The cap on an over-flow's extra (R180). -/
def extraCap (s : State) (positive : Bool) (a : Fin 16) : Int :=
  if positive then
    match (accountOf s a).state with
    | .active => freeSpace s a
    | _ => 0
  else freeInventory s a

/-- The allocations a_s of PRO_RATA, from the confirmations, the measured net and the accounts before the close. -/
def proRata (s : State) (q : Vector Int 16) (measured : Int) : Vector Int 16 :=
  let net := sumInt (nth q)
  let diff := measured - net
  if diff = 0 ∨ net = 0 then q
  else
    let positive := decide (0 < net)
    let basis := flowing positive q
    let total := sumNat (nth basis)
    let signed := fun n : Int => if positive then n else -n
    if decide (0 < diff) = decide (0 < net) then
      let extra := largestRemainder diff.natAbs basis
      tab fun a =>
        if nth basis a = 0 then nth q a
        else signed (((nth basis a : Nat) : Int) + min ((nth extra a : Nat) : Int) (extraCap s positive a))
    else
      let shares := largestRemainder (total - min diff.natAbs total) basis
      tab fun a => if nth basis a = 0 then nth q a else signed ((nth shares a : Nat) : Int)

/-- The allocations, by the mode in force. -/
def allocate (s : State) (q : Vector Int 16) (measured : Int) : Vector Int 16 :=
  match s.cau.mode with
  | .asNominated => q
  | .proRata => proRata s q measured

/-! ### Fuel (R181) -/

/-- Free inventory after allocation, once the closing hour's withdrawal has left the reserve; 0 when that is negative. -/
def fuelCap (s : State) (q allocated : Vector Int 16) (a : Fin 16) : Int :=
  max 0 ((accountOf s a).inventory + nth allocated a - (withdrawalReserve s a - max 0 (-(nth q a))))

/-- The fuel charged to each shipper: its share on the basis |a_s|, capped. -/
def shareFuel (s : State) (q allocated : Vector Int 16) (fuel : Nat) : Vector Int 16 :=
  let shares := largestRemainder fuel (each allocated Int.natAbs)
  tab fun a => if nth allocated a = 0 then 0 else min ((nth shares a : Nat) : Int) (fuelCap s q allocated a)

/-! ### Posting (R149, R182) -/

/-- The change of U that a close posts: what it does not attribute to shippers. -/
def suspenseChange (m : HourMetering) (allocated fuel : Vector Int 16) : Int :=
  measuredNet m - energyFuel m - sumInt fun a : Fin 16 => nth allocated a - nth fuel a

/-- Inventories, U and B after the posting, applied as one event; VACANT slots receive none. -/
def postAccounts (m : HourMetering) (allocated fuel : Vector Int 16) (act : Act) : Act :=
  { slots := tab fun a =>
      let r := nth act.slots a
      if r.held then { r with inventory := r.inventory + (nth allocated a - nth fuel a) } else r
    book := wrapTotal (act.book + (measuredNet m - energyFuel m))
    suspense := wrapTotal (act.suspense + suspenseChange m allocated fuel) }

/-- The hour's entries and its closed item (R182). -/
def postHour (s : State) (allocated fuel : Vector Int 16) (c : HourCell) : HourCell :=
  { site := { c.site with closed := true }
    entries := tab fun a =>
      if (accountOf s a).held then
        { nth c.entries a with allocated := some (nth allocated a), fuel := some (nth fuel a) }
      else nth c.entries a }

/-! ### Caverns, reconciliation and record (R183 to R186) -/

/-- Gas-in-place after the hour, within 0..4,000,000,000 (R85). -/
def addGas (gas : Nat) (net : Int) : Nat := min Config.maxInventory ((gas : Int) + net).toNat

/-- Every cavern takes its net. -/
def postCaverns (m : HourMetering) (s : State) : State :=
  s.withDir { s.dir with
    caverns := tab fun k => { cavernOf s k with gas := addGas (cavernOf s k).gas (nth (cavernNets m) k) } }

/-- The reconciliation difference (R184). -/
def reconciliation (m : HourMetering) : Int :=
  measuredNet m - energyFuel m - sumInt (nth (cavernNets m))

/-- Is the difference above the tolerance (R184)? -/
def differs (s : State) (m : HourMetering) : Bool := decide (s.dir.site.tolerance < (reconciliation m).natAbs)

/-- The hour record (R185). -/
def hourRecord (s : State) (h : HourId) (p : Fin 72) (g : Gathered) (q allocated fuel : Vector Int 16) : HourRecord :=
  { hour := h
    energyIn := energyIn g.metering
    energyOut := energyOut g.metering
    energyFuel := energyFuel g.metering
    net := sumInt (nth q)
    cavernNets := cavernNets g.metering
    difference := reconciliation g.metering
    cv := g.metering.cv
    mode := s.cau.mode
    suspensePosting := suspenseChange g.metering allocated fuel
    fuelToSuspense := (energyFuel g.metering : Int) - sumInt (nth fuel)
    estimatedSeconds := g.metering.estimatedSeconds
    offSpecSeconds := g.offSpecSeconds
    flags := g.metering.flags
    offSpec := someFin fun t : Fin 2 => decide (0 < nth g.offSpecSeconds t)
    curtailed := (hourOf s p).site.curtailed
    refirmed := (hourOf s p).site.refirmed
    trimmed := g.trimmed
    outage := g.outage }

/-- The record appended at the newest end; of 48 records the oldest goes (R186). -/
def appendRecord (history : List HourRecord) (r : HourRecord) : List HourRecord :=
  if history.length < Config.historyLength then history ++ [r] else history.drop (history.length + 1 - Config.historyLength) ++ [r]

/-! ### Completion (R145, R187) -/

/-- Does a CLOSING slot pass the vacancy test: no inventory, and no confirmation other than 0 in an hour not closed? -/
def vacates (s : State) (a : Fin 16) : Bool :=
  decide ((accountOf s a).state = .closing) && decide ((accountOf s a).inventory = 0)
    && allFin fun p : Fin 72 => (hourOf s p).site.closed || decide (confirmedOf s p a = 0)

/-- Passing slots become VACANT, and their 72 entries are cleared. -/
def vacancy (s : State) : State :=
  let passes : Vector Bool 16 := tab (vacates s)
  let accounts := s.withAct { s.act with
    slots := tab fun a => if nth passes a then Account.vacant else accountOf s a }
  accounts.withNfu { accounts.nfu with
    hours := each accounts.nfu.hours fun c =>
      { c with entries := tab fun a => if nth passes a then HourEntry.clear else nth c.entries a } }

/-- Parts 5 to 7 of the close (R175): the posting, the cavern nets, then the report of condition 52 to the CDT with the
re-firm that its rise may raise (R184, R70). Log entry 10. -/
def postClose (p : Fin 72) (m : HourMetering) (allocated fuel : Vector Int 16) (s : State) : State :=
  let posted := alterHour p (postHour s allocated fuel) (s.withAct (postAccounts m allocated fuel s.act))
  report condMeterDiff (differs s m) (postCaverns m posted)

/-- Part 8: the record goes to the newest end of the history (R185, R186). -/
def keepRecord (r : HourRecord) (s : State) : State :=
  s.withCau { s.cau with history := appendRecord s.cau.history r }

/-- Part 9, the completion of R187: the event flags, the vacancy test, the last closed hour. -/
def finishClose (h : HourId) (s : State) : State :=
  let tested := vacancy (setEventOps evHourClosedOps (setEventCom evHourClosedCom s))
  tested.withClock { tested.clock with lastClosed := some h }

/-- The close once it has gathered: parts 2 to 9 of R175, in their order. The quantities, allocation, fuel and record are
formed from the state `s` that the gathering left. -/
def completeClose (h : HourId) (g : Gathered) (s : State) : State :=
  let p := todayPosition h.hour
  let q := closingConfirmed s p
  let allocated := allocate s q (measuredNet g.metering)
  let fuel := shareFuel s q allocated (energyFuel g.metering)
  finishClose h (keepRecord (hourRecord s h p g q allocated fuel) (postClose p g.metering allocated fuel s))

/-- The close of the open hour `h` at an hour boundary (R175). -/
def closeHour (h : HourId) (s : State) : State :=
  let booked := bookOpenGaps s
  completeClose h (gather booked) (clearGathered booked)

/-- The close of a missed hour (R188); the MTU's accumulators and the off-spec counts stay. -/
def closeMissed (h : HourId) (s : State) : State := completeClose h gatherMissed s

/-! ### Day rollover (R155) -/

/-- Yesterday takes today, today takes tomorrow, tomorrow is cleared, the today-day number advances, DAY_ROLLED is set. -/
def rollover (s : State) : State :=
  setEventCom evDayRolled (s.withNfu { s.nfu with
    hours := tab fun p =>
      match index? 72 (p.val + 24) with
      | some later => hourOf s later
      | none => HourCell.clear
    todayDay := s.nfu.todayDay.map fun d => (d + 1) % 65536 })

/-- The rollover that follows the close of hour 23. -/
def rolloverAfter (h : HourId) (s : State) : State := if h.hour = 23 then rollover s else s

/-! ### Start of an hour (R4, R161) -/

/-- A pending lead comes into effect and fires the firms it has made overdue, in time order (R161). -/
def changeLead (p : Fin 72) (s : State) : State :=
  match s.nfu.pendingLead with
  | none => s
  | some lead =>
    let changed := s.withNfu { s.nfu with lead := lead, pendingLead := none }
    firmRun (p.val + 1) (overdueCount changed lead) changed

/-- The start part of the hour boundary, for the hour at position `p`: the CV latch, the lead, the direction target, the duty
evaluation, and the trimmed mark (R4). -/
def startHour (p : Fin 72) (s : State) : State :=
  let evaluated := dutyEvaluation (takeTarget p (changeLead p (latchCv s)))
  evaluated.withClock { evaluated.clock with trimmed := false }

/-- The event of an hour boundary: close of the open hour, rollover after hour 23, start of the next (R4). -/
def hourBoundaryEvent (s : State) : State :=
  match openHour s with
  | some h => startHour (todayPosition h.next.hour) (rolloverAfter h (closeHour h s))
  | none => s

/-- The event of a firm point: the firm of the hour that lies the lead in effect after the open hour (R5). -/
def firmPointEvent (s : State) : State :=
  match openPosition s with
  | some p => firmRun (p.val + s.nfu.lead) 1 s
  | none => s

end Sys2Proof.Machine
end

