-- ==== Sys2Proof/Machine/Clock.lean ====
section
/-! DEFINITION. The GDC's commands: SET-CLOCK (R7 to R10), TRIM-CLOCK (R11, R12), the step of the time base (R1, R3, R101, R133)
and the marked instants (R4, R5). -/

namespace Sys2Proof.Machine

/-! ### SET-CLOCK -/

/-- Forward distance from the last closed hour to the set hour, when there is a last closed hour (R7). -/
def setDistance (s : State) (set : HourId) : Option Nat := s.clock.lastClosed.map fun h => forwardDistance h set

/-- Checks 3 and 4 of R7. -/
def setTimeRefused (s : State) (set : HourId) (abandon : Bool) : Bool :=
  match setDistance s set with
  | some d => decide (d = 0) || decide (Config.halfSpan < d) || (decide (49 ≤ d) && !abandon)
  | none => false

/-- Does the request take the abandon path of R9? -/
def setAbandons (s : State) (set : HourId) (abandon : Bool) : Bool :=
  match setDistance s set with
  | some d => decide (49 ≤ d) && abandon
  | none => false

/-- Number of missed hours (R8). -/
def missedHours (s : State) (set : HourId) : Nat :=
  match setDistance s set with
  | some d => d - 1
  | none => 0

/-- One missed hour: firm at zero if unfirmed, close with OUTAGE, rollover after hour 23 (R8). -/
def missedHour (h : HourId) (s : State) : State := rolloverAfter h (closeMissed h (firmAtZero (todayPosition h.hour) s))

/-- `count` missed hours in time order, from hour `h` (R8). -/
def closeMissedHours : Nat → HourId → State → State
  | 0, _, s => s
  | count + 1, h, s => closeMissedHours count h.next (missedHour h s)

/-- The last closed hour is written. -/
def writeLastClosed (h : HourId) (s : State) : State := s.withClock { s.clock with lastClosed := some h }

/-- The abandon path: every row and the site hour table cleared, the rows aligned to the set day, and the last closed hour
the one before the set hour (R9). -/
def abandonHours (set : HourId) (s : State) : State :=
  writeLastClosed set.previous (s.withNfu { s.nfu with hours := fill 72 HourCell.clear, todayDay := some set.day })

/-- The first set: no hour is closed, and the last closed hour becomes the one before the set hour (R8, R155). -/
def firstSet (set : HourId) (s : State) : State :=
  writeLastClosed set.previous (s.withNfu { s.nfu with todayDay := some (s.nfu.todayDay.getD set.day) })

/-- The books brought level with the set time (R8, R9). -/
def levelBooks (set : HourId) (abandon : Bool) (s : State) : State :=
  match s.clock.lastClosed with
  | none => firstSet set s
  | some h => if setAbandons s set abandon then abandonHours set s else closeMissedHours (missedHours s set) h.next s

/-- The clock enters RUNNING with tenths phase 0, and condition 54 becomes inactive (R10 step 1). -/
def runClock (day seconds : Nat) (s : State) : State :=
  report condClockUnset false
    (s.withClock { s.clock with state := .running, day := day, seconds := seconds, tenths := 0 })

/-- R10: run, overdue firms from the set hour on, unclocked measurement, start. -/
def completeSet (day seconds : Nat) (s : State) : State :=
  let running := runClock day seconds s
  let p := todayPosition (seconds / 3600)
  startHour p (mergeUnclocked (firmRun p.val (overdueCount running running.nfu.lead + 1) running))

/-- SET-CLOCK past the checks that every request has. -/
def setClock (fields : List Byte) (s : State) : Answer :=
  match mark fields 6 with
  | none => .refuse .malformed
  | some abandon =>
    let day := num fields 0 2
    let seconds := num fields 2 4
    let set : HourId := ⟨day, seconds / 3600⟩
    if clockRunning s then .refuse .state
    else if 86399 < seconds then .refuse .range
    else if setTimeRefused s set abandon then .refuse .range
    else
      let abandoned := setAbandons s set abandon
      .taken (completeSet day seconds (levelBooks set abandon s))
        (ubytes 1 (if abandoned then 0 else missedHours s set) ++ markByte abandoned)

/-- SET_CLOCK. -/
def execSetClock (port : Port) (fields : List Byte) (s : State) : Host.Outcome State Fault Refusal :=
  serve (some .ops) 0x10 port fields (setClock fields) s

/-! ### TRIM-CLOCK -/

/-- The trimmed mark of the open hour is set (R12). -/
def markTrimmed (s : State) : State := s.withClock { s.clock with trimmed := true }

/-- Gas-day time moved to `t` seconds of the day it stands in, carried across the day boundary (R11). -/
def moveTime (t : Int) (s : State) : State :=
  if t < 0 then
    s.withClock { s.clock with day := (s.clock.day + 65535) % 65536, seconds := (t + 86400).toNat }
  else if 86400 ≤ t then
    s.withClock { s.clock with day := (s.clock.day + 1) % 65536, seconds := (t - 86400).toNat }
  else s.withClock { s.clock with seconds := t.toNat }

/-- Would a backward trim to `t` cross or reach a marked instant at or before now (R11)? -/
def trimCrossesBack (s : State) (t : Int) : Bool := decide (t ≤ ((s.clock.seconds / 1800 * 1800 : Nat) : Int))

/-- A forward trim to `t` and the event of the marked instant it crosses, if it crosses one; the trimmed mark is set before
the event, and again after the start of an hour (R11, R12). -/
def trimForward (t : Nat) (s : State) : State :=
  let moved := moveTime t (markTrimmed s)
  if s.clock.seconds / 3600 < t / 3600 then markTrimmed (hourBoundaryEvent moved)
  else if s.clock.seconds / 1800 < t / 1800 then firmPointEvent moved
  else moved

/-- TRIM-CLOCK past the checks that every request has. -/
def trimClock (fields : List Byte) (s : State) : Answer :=
  let shift := snum fields 0 1
  let t : Int := s.clock.seconds + shift
  if !clockRunning s then .refuse .clock
  else if shift < -120 ∨ 120 < shift then .refuse .range
  else if shift = 0 then .taken s []
  else if shift < 0 then
    if trimCrossesBack s t then .refuse .state else .taken (moveTime t (markTrimmed s)) []
  else .taken (trimForward t.toNat s) []

/-- TRIM_CLOCK. -/
def execTrimClock (port : Port) (fields : List Byte) (s : State) : Host.Outcome State Fault Refusal :=
  serve (some .ops) 0x11 port fields (trimClock fields) s

/-! ### The time base -/

/-- Gas-day time after a step of the time base, in RUNNING (R3). -/
def Clock.tick (c : Clock) : Clock :=
  if c.state = .running then
    if c.tenths + 1 < 10 then { c with tenths := c.tenths + 1 }
    else if c.seconds + 1 < 86400 then { c with tenths := 0, seconds := c.seconds + 1 }
    else { c with tenths := 0, seconds := 0, day := (c.day + 1) % 65536 }
  else c

/-- A RUNNING unit's run tenths and run seconds after a step (R101). -/
def UnitRecord.accrue (u : UnitRecord) : UnitRecord :=
  if u.state = .running then
    if u.runTenths + 1 < 10 then { u with runTenths := u.runTenths + 1 }
    else { u with runTenths := 0, runSeconds := holdAdd maxCount32 u.runSeconds 1 }
  else u

/-- An off-spec train's tenths after a step, counted while the clock is RUNNING (R133). -/
def Train.countOffSpec (running : Bool) (t : Train) : Train :=
  if running && t.offSpec then { t with offSpecTenths := t.offSpecTenths + 1 } else t

/-- What one step of the time base does beside the count itself. -/
def countStep (s : State) : State :=
  let clocked := s.withClock s.clock.tick
  let duty := clocked.withCpd { clocked.cpd with units := each clocked.cpd.units UnitRecord.accrue }
  duty.withDsq { duty.dsq with trains := each duty.dsq.trains (Train.countOffSpec (clockRunning s)) }

/-- One step of 0.1 s: the fine count comes to the next whole tenth, so that the time base stays the fine count divided by
100 and floored (R1). -/
def stepTimeBase (s : State) : State := countStep (s.withFine ((timeBase s + 1) * 100))

/-- TIME_BASE_STEP (R1, R3). -/
def execTimeBaseStep (s : State) : Host.Outcome State Fault Refusal := unlessHeld stepTimeBase s

/-- One step of 1 ms of the fine count; at every hundredth it is a step of the time base as well (R1). -/
def stepFine (s : State) : State := if s.fine % 100 = 99 then stepTimeBase s else s.withFine (s.fine + 1)

/-- What the part does while no command waits: 1 ms passes, unless it is held in reset. Log entry 1. -/
def idle (s : State) : State := if heldInReset s then s else stepFine s

/-- HOUR_BOUNDARY (R4): gas-day time has reached the boundary that ends the open hour. -/
def execHourBoundary (s : State) : Host.Outcome State Fault Refusal := unlessHeld (onlyIf (boundaryDue s) hourBoundaryEvent) s

/-- FIRM_POINT (R5): gas-day time has reached minute 30 of the open hour. -/
def execFirmPoint (s : State) : Host.Outcome State Fault Refusal :=
  unlessHeld (onlyIf (clockRunning s && firmPointReached s) firmPointEvent) s

end Sys2Proof.Machine
end

