-- ==== Sys2Proof/Machine/LineFrames.lean ====
section
/-! DEFINITION. The frames of the field line: the CRC (R14), the frames the engine sends (R207), how a received frame is delimited
(R208) and judged (R17), and how channels are decoded from its words (R32). -/

namespace Sys2Proof.Machine

/-! ### CRC (R14) -/

/-- One data bit, most significant first: shift, and add the polynomial 0x1021 when a 1 leaves. -/
def crcShift (c : BitVec 16) : BitVec 16 := if c.msb then (c <<< 1) ^^^ 0x1021#16 else c <<< 1

/-- One byte of the CRC. -/
def crcByte (c : BitVec 16) (b : Byte) : BitVec 16 :=
  crcShift (crcShift (crcShift (crcShift (crcShift (crcShift (crcShift (crcShift (c ^^^ (b.setWidth 16 <<< 8)))))))))

/-- The CRC of the bytes from the address to the last data byte: initial value 0xFFFF, no final value. -/
def crc16 (bytes : List Byte) : BitVec 16 := bytes.foldl crcByte 0xFFFF#16

/-- The CRC as it is sent, high byte first. -/
def crcBytes (bytes : List Byte) : List Byte :=
  [(crc16 bytes >>> 8).setWidth 8, (crc16 bytes).setWidth 8]

/-! ### Frames sent (R207) -/

/-- Start mark, address to last data byte, CRC, end mark. -/
def sealFrame (body : List Byte) : List Byte := 0xC5 :: body ++ crcBytes body ++ [0x5C]

/-- A 16-bit number, high byte first. -/
def word16 (n : Nat) : List Byte := [BitVec.ofNat 8 (n / 256), BitVec.ofNat 8 n]

/-- The frame of a request. -/
def requestFrame : LineRequest → List Byte
  | .read address start count =>
    sealFrame (BitVec.ofNat 8 address :: 0x31 :: word16 start ++ [BitVec.ofNat 8 count])
  | .write address register value =>
    sealFrame (BitVec.ofNat 8 address :: 0x32 :: word16 register ++ word16 value)

/-! ### Frames received (R208) -/

/-- What the bytes received since the request make: no complete frame yet, a frame that fails the length test, or a frame
with the bytes from its address to its CRC. -/
inductive Delimited
  | incomplete
  | broken
  | frame (body : List Byte)
  deriving DecidableEq, Repr

/-- How many bytes follow the kind byte, CRC and end mark among them, by the kind and, for DATA, the word count; `none`
inside says that the count has not arrived, the outer none that the byte completes and fails the frame. -/
def bytesAfterKind (kind : Byte) (more : List Byte) : Option (Option Nat) :=
  if kind = 0x31 then some (some 6)
  else if kind = 0x32 then some (some 7)
  else if kind = 0xB1 then
    match more with
    | [] => some none
    | count :: _ => if 1 ≤ count.toNat ∧ count.toNat ≤ 8 then some (some (4 + 2 * count.toNat)) else none
  else if kind = 0xB2 then some (some 5)
  else if kind = 0xF2 then some (some 6)
  else none

/-- The first frame in the bytes received: bytes before a start mark are discarded, the kind sets the length. -/
def delimit (received : List Byte) : Delimited :=
  match received.dropWhile (fun b => decide (b ≠ 0xC5)) with
  | _ :: address :: kind :: more =>
    match bytesAfterKind kind more with
    | none => .broken
    | some none => .incomplete
    | some (some n) =>
      if more.length < n then .incomplete
      else if more[n - 1]? = some 0x5C then .frame (address :: kind :: more.take (n - 1))
      else .broken
  | _ => .incomplete

/-! ### Judging (R17) -/

/-- A word as its two bytes in order of arrival. -/
structure WordBytes where
  first : Byte
  second : Byte
  deriving DecidableEq, Repr

/-- What the received bytes are to the transaction. -/
inductive Reply
  | incomplete
  | bad
  | data (words : List WordBytes)
  | done
  | error (code : Nat)
  deriving DecidableEq, Repr

/-- The words of a DATA frame. -/
def wordsOf : List Byte → List WordBytes
  | a :: b :: rest => ⟨a, b⟩ :: wordsOf rest
  | _ => []

/-- Does a body end in the CRC of what stands before it? -/
def crcGood (body : List Byte) : Bool :=
  decide (body.drop (body.length - 2) = crcBytes (body.take (body.length - 2)))

/-- The tests of R17 on a complete frame's body, in their order. -/
def judgeBody (request : LineRequest) (body : List Byte) : Reply :=
  if !crcGood body then .bad
  else
    match request, body.take (body.length - 2) with
    | .read address _ count, a :: kind :: n :: data =>
      if a = BitVec.ofNat 8 address ∧ kind = 0xB1 ∧ n.toNat = count ∧ data.length = 2 * count then .data (wordsOf data)
      else .bad
    | .write address register _, [a, kind, r1, r2] =>
      if a = BitVec.ofNat 8 address ∧ kind = 0xB2 ∧ [r1, r2] = word16 register then .done else .bad
    | .write address register _, [a, kind, r1, r2, code] =>
      if a = BitVec.ofNat 8 address ∧ kind = 0xF2 ∧ [r1, r2] = word16 register then .error code.toNat else .bad
    | _, _ => .bad

/-- The first complete frame decides the transaction. -/
def judge (request : LineRequest) (received : List Byte) : Reply :=
  match delimit received with
  | .incomplete => .incomplete
  | .broken => .bad
  | .frame body => judgeBody request body

/-! ### Channels (R32) -/

/-- A word: high byte first, or low byte first with the swap flag. -/
def WordBytes.value (swap : Bool) (w : WordBytes) : Nat :=
  if swap then w.second.toNat * 256 + w.first.toNat else w.first.toNat * 256 + w.second.toNat

/-- Word `j` of a block; 0 past its end. -/
def wordAt (words : List WordBytes) (swap : Bool) (j : Nat) : Nat := ((words[j]?).map (WordBytes.value swap)).getD 0

/-- A channel's value. -/
def decodeChannel (c : ChannelSetting) (words : List WordBytes) : Int :=
  let w := wordAt words c.swap c.offset
  let w2 := wordAt words c.swap (c.offset + 1)
  match c.format with
  | .u16 => w
  | .s16 => if w < 32768 then (w : Int) else (w : Int) - 65536
  | .u8 => (w % 256 : Nat)
  | .u32 => if c.swap then (w2 * 65536 + w : Nat) else (w * 65536 + w2 : Nat)

end Sys2Proof.Machine
end

