-- ==== Sys2Proof/Machine/FieldLine.lean ====
section
/-! DEFINITION. The FSU at work: the poll queue (R30), visits and their schedule (R24 to R31), what a reading and a change of quality
hand to the other blocks (R28, R33, R81, R132), and the events of the field line (R16 to R18, R25 to
R29). -/

namespace Sys2Proof.Machine

/-! ### The poll queue (R30) -/

/-- The order of the queue: due time, then slot number. -/
def Entry.before (a b : Entry) : Bool := decide (a.due < b.due) || (decide (a.due = b.due) && decide (a.slot < b.slot))

/-- An entry takes its place in the queue. -/
def enqueue (e : Entry) : List Entry → List Entry
  | [] => [e]
  | f :: rest => if e.before f then e :: f :: rest else f :: enqueue e rest

/-- A slot's entry leaves the queue. -/
def dequeue (n : Fin 16) (q : List Entry) : List Entry := q.filter fun e => decide (e.slot ≠ n)

/-- An entry is queued. -/
def queueEntry (e : Entry) (s : State) : State := s.withFsu { s.fsu with queue := enqueue e s.fsu.queue }

/-- A slot's entry is removed, and a transaction in flight for it is marked discarded (R18, R20, R22). -/
def withdrawSlot (n : Fin 16) (s : State) : State :=
  s.withFsu { s.fsu with
    queue := dequeue n s.fsu.queue
    engine :=
      match s.fsu.engine with
      | .awaitReply f => if f.entry.slot = n then .awaitReply { f with discarded := true } else .awaitReply f
      | .idle => .idle }

/-! ### Visits (R24, R31) -/

/-- Is a visit scheduled now a script visit (R24)? -/
def scriptVisit (sl : Slot) : Bool :=
  decide (sl.settings.pollMode = .reinitEach) || decide (sl.state = .init) || decide (sl.state = .absent)

/-- The phase after the script, and of a visit without one (R24, R25). -/
def phaseAfterScript (sl : Slot) : Phase := if sl.settings.pollMode = .readyGated then .readyCheck else .read

/-- The first phase of a visit scheduled now (R24). -/
def firstPhase (sl : Slot) : Phase :=
  if scriptVisit sl ∧ 1 ≤ sl.settings.scriptCount then .initWrite 0 else phaseAfterScript sl

/-- A visit of slot `n` is scheduled for the fine count `at_`: its scheduled time, whether it begins ABSENT, and its entry
(R28, R31). -/
def scheduleVisit (n : Fin 16) (at_ : Nat) (s : State) : State :=
  queueEntry ⟨n, at_, firstPhase (slotOf s n), 0, 0⟩
    (alterSlot n (fun sl => { sl with scheduled := some at_, recovered := decide (sl.state = .absent) }) s)

/-- How many whole periods on from the scheduled time the next visit lies: the smallest number of 1 or more that is later
than now (R31). Times are on the fine count, the period in seconds. -/
def periodsOn (scheduled period now : Nat) : Nat :=
  if now < scheduled then 1 else (now - scheduled) / (period * 1000) + 1

/-- A visit has ended: the next is scheduled, and the instants passed over are counted (R31). -/
def scheduleNext (n : Fin 16) (s : State) : State :=
  let sl := slotOf s n
  let ts := sl.scheduled.getD s.fine
  let k := periodsOn ts sl.settings.period s.fine
  scheduleVisit n (ts + k * (sl.settings.period * 1000))
    (alterSlot n (fun sl => { sl with overruns := holdAdd 65535 sl.overruns (k - 1) }) s)

/-! ### Channels and their readers (R26, R29, R33) -/

/-- A GOOD channel becomes HELD. -/
def Channel.hold (c : Channel) : Channel := if c.quality = .good then { c with quality := .held } else c

/-- Every GOOD channel of a slot becomes HELD. -/
def Slot.holdChannels (sl : Slot) : Slot := { sl with channels := each sl.channels Channel.hold }

/-- Every channel of a slot takes NONE, value 0 and no time. -/
def Slot.clearChannels (sl : Slot) : Slot := { sl with channels := fill 4 Channel.initial }

/-- Bands are evaluated for the caverns whose pressure changed its quality (R81). -/
def bandsFollow (before : State) (s : State) : State :=
  overFin 4
    (fun k s => if (cavernPressure before k).quality = (cavernPressure s k).quality then s else evaluateBand k s) s

/-- The caverns that read slot `n`. -/
def cavernReads (s : State) (n : Fin 16) (k : Fin 4) : Bool := decide ((pointOf s (wellhead k)).slot = some n)

/-- The off-spec state of the trains that read slot `n` when its channels take NONE (R132). -/
def dewPointsLost (n : Fin 16) (s : State) : State :=
  overFin 2 (fun t s => if trainReads s n t then judgeNoReading t s else s) s

/-- DEVICE Sn is Active while the slot is ABSENT or FAULTED (R35). -/
def deviceReport (s : State) (n : Fin 16) : Fin 56 × Bool :=
  (condDevice n, decide ((slotOf s n).state = .absent) || decide ((slotOf s n).state = .faulted))

/-- THRESHOLD Sn (R34). -/
def thresholdReport (s : State) (n : Fin 16) : Fin 56 × Bool := (condThreshold n, (slotOf s n).thresholdOn)

/-- The conditions that an event of slot `n` can change, as their sources hold them: DEVICE and THRESHOLD of the slot, COUNTER
of its point, BAND of its caverns and OFFSPEC of its trains. -/
def slotReports (s : State) (n : Fin 16) : List (Fin 56 × Bool) :=
  [deviceReport s n, thresholdReport s n]
    ++ (match pointBoundTo s n with
        | some k => [(condCounter k, counterActive (pointOf s k))]
        | none => [])
    ++ ((List.finRange 4).filter (cavernReads s n)).map (bandReport s)
    ++ ((List.finRange 2).filter (trainReads s n)).map (offSpecReport s)

/-- The CDT takes what an event of slot `n` changed, and the DIR tests a changeover whose quiet answers changed (R59, R64,
R90). -/
def slotEventEnds (before : State) (n : Fin 16) (s : State) : State := quietReported before (reportAll (slotReports s n) s)

/-! ### The end of a visit -/

/-- The state after a failed visit whose count is now `failed` (R29). -/
def stateAfterFailure (sl : Slot) (failed : Nat) : SlotState :=
  match sl.state with
  | .absent => .absent
  | .active => if sl.settings.absentLimit ≤ failed then .absent else .active
  | _ => if sl.settings.absentLimit ≤ failed then .absent else .init

/-- A visit fails (R29). -/
def failVisit (n : Fin 16) (s : State) : State :=
  let failed := holdAdd 255 (slotOf s n).failed 1
  let counted := alterSlot n
    (fun sl => { sl.holdChannels with failed := failed, state := stateAfterFailure sl failed }) s
  let gapped :=
    if (slotOf counted n).state = .absent ∧ (slotOf s n).state ≠ .absent then openGapOf n counted else counted
  slotEventEnds s n (scheduleNext n (bandsFollow s gapped))

/-- The device refused a script write: FAULTED (R26). -/
def faultSlot (n : Fin 16) (code : Nat) (s : State) : State :=
  let marked := alterSlot n (fun sl => { sl.holdChannels with state := .faulted, lastError := code }) s
  let gapped := if (slotOf s n).state = .absent then marked else openGapOf n marked
  slotEventEnds s n (bandsFollow s gapped)

/-- The zone test of a threshold (R34). -/
def Threshold.holds (t : Threshold) (value : Int) : Bool :=
  match t.zone with
  | .outside => decide (t.upper ≤ value) || decide (value ≤ t.lower)
  | .inside => decide (value < t.upper) && decide (t.lower < value)

/-- The threshold evaluated at a good READ (R34). -/
def evaluateThreshold (sl : Slot) : Slot :=
  { sl with
    thresholdOn :=
      match sl.settings.threshold with
      | some t => t.holds (channelAt sl t.channel).value
      | none => false }

/-- A slot's record after a good READ: every channel decoded from the words, GOOD, at the fine count of the reply (R28). -/
def Slot.takeWords (sl : Slot) (fine : Nat) (words : List WordBytes) : Slot :=
  { sl with
    channels := tab fun c =>
      match channelSetting? sl c.val with
      | some setting => ⟨decodeChannel setting words, .good, some fine⟩
      | none => nth sl.channels c
    failed := 0
    state := .active
    firstReading := false }

/-- Does a reading of the slot carry the recovered mark (R28)? -/
def carriesRecovered (sl : Slot) : Bool := sl.recovered || sl.firstReading

/-- The MTU takes the reading for the point bound to the slot. -/
def meterTakes (n : Fin 16) (recovered : Bool) (s : State) : State :=
  match pointBoundTo s n with
  | some k => goodReading k n recovered s
  | none => s

/-- The DIR takes the reading for the caverns that read the slot. -/
def cavernsTake (n : Fin 16) (s : State) : State :=
  overFin 4 (fun k s => if cavernReads s n k then evaluateBand k s else s) s

/-- The DSQ takes the reading for the trains whose dew point the slot carries: off-spec, then breakthrough. -/
def dryersTake (n : Fin 16) (s : State) : State :=
  overFin 2
    (fun t s =>
      if trainReads s n t then
        let value := (boundChannel s (trainOf s t).binding).value
        breakthrough value t (judgeReading t value s)
      else s) s

/-- A visit succeeds (R28): the channels, the blocks bound to the slot, the threshold, and the next visit. -/
def succeedVisit (n : Fin 16) (words : List WordBytes) (s : State) : State :=
  let recovered := carriesRecovered (slotOf s n)
  let read := alterSlot n (fun sl => sl.takeWords s.fine words) s
  let handed := dryersTake n (cavernsTake n (meterTakes n recovered read))
  slotEventEnds s n (scheduleNext n (alterSlot n evaluateThreshold handed))

/-! ### The line engine -/

/-- The request of an entry (R16). -/
def entryRequest (s : State) (e : Entry) : LineRequest :=
  let c := (slotOf s e.slot).settings
  match e.phase with
  | .read => .read c.address c.startRegister c.wordCount
  | .readyCheck => .read c.address c.statusRegister 1
  | .initWrite k =>
    match index? 64 (c.scriptStart + k) with
    | some i => .write c.address (nth s.fsu.script i).register (nth s.fsu.script i).value
    | none => .write c.address 0 0

/-- A slot that is INIT as a visit without a write phase begins enters SETTLING (R24). -/
def beginVisit (e : Entry) (sl : Slot) : Slot :=
  match e.phase with
  | .initWrite _ => sl
  | _ => if sl.state = .init then { sl with state := .settling } else sl

/-- The engine takes the head entry when it is due and the receiver has been quiet (R15, R16). -/
def engineTake (s : State) : State :=
  match s.fsu.engine, s.fsu.queue with
  | .idle, e :: rest =>
    if e.due ≤ s.fine ∧ s.fsu.quietAt ≤ s.fine then
      alterSlot e.slot (beginVisit e)
        (s.withFsu { s.fsu with
          queue := rest
          engine := .awaitReply
            { entry := e, request := entryRequest s e, window := s.fsu.window, windowEnd := none, discarded := false } })
    else s
  | _, _ => s

/-- The request has been sent: the reply window runs from now (R17). -/
def requestSent (s : State) : State :=
  match s.fsu.engine with
  | .awaitReply f =>
    if f.windowEnd = none then
      s.withFsu { s.fsu with engine := .awaitReply { f with windowEnd := some (s.fine + f.window) } }
    else s
  | .idle => s

/-- The transaction whose reply window is running and not yet past (R17). -/
def awaiting (s : State) : Option InFlight :=
  match s.fsu.engine with
  | .awaitReply f =>
    match f.windowEnd with
    | some t => if s.fine ≤ t then some f else none
    | none => none
  | .idle => none

/-- The transaction whose reply window has expired (R17). -/
def expired (s : State) : Option InFlight :=
  match s.fsu.engine with
  | .awaitReply f =>
    match f.windowEnd with
    | some t => if t ≤ s.fine then some f else none
    | none => none
  | .idle => none

/-- The engine returns to IDLE, and passes the outcome to the slot unless the transaction is discarded (R17, R18). -/
def endTransaction (f : InFlight) (outcome : State → State) (s : State) : State :=
  let idle := s.withFsu { s.fsu with engine := .idle }
  if f.discarded then idle else outcome idle

/-- A byte was received now: the 2 ms quiet test begins afresh (R1, R16). -/
def receiverHeard (s : State) : State := s.withFsu { s.fsu with quietAt := s.fine + 2 }

/-- Is a request being transmitted, so that the part does not listen (R14)? -/
def sendingRequest (s : State) : Bool :=
  match s.fsu.engine with
  | .awaitReply f => f.windowEnd.isNone
  | .idle => false

/-- Bytes that end no transaction: those of a frame not yet complete, and those received in IDLE or after the window, which are
discarded. They keep the receiver from being quiet and change nothing else (R16, R17). That they come as any of the four reply
commands, and are not heard while the part transmits, is the model's choice, log entry 18. -/
def bytesHeard (received : List Byte) (s : State) : State :=
  if received = [] ∨ sendingRequest s = true then s else receiverHeard s

/-- After a miss the transaction is queued again 0.1 s later, or its retries are exhausted and the visit fails (R18). -/
def miss (e : Entry) (s : State) : State :=
  if e.tries < (slotOf s e.slot).settings.retries then
    queueEntry { e with tries := e.tries + 1, due := s.fine + 100 } s
  else failVisit e.slot s

/-- A DONE answers the write of phase INIT_WRITE k (R25). -/
def writeDone (e : Entry) (s : State) : State :=
  let sl := slotOf s e.slot
  match e.phase with
  | .initWrite k =>
    if k + 1 < sl.settings.scriptCount then
      queueEntry { e with phase := .initWrite (k + 1), due := s.fine, tries := 0 } s
    else
      queueEntry { e with phase := phaseAfterScript sl, due := s.fine + sl.settings.settle * 100, tries := 0 }
        (alterSlot e.slot (fun sl => if sl.state = .init then { sl with state := .settling } else sl) s)
  | _ => s

/-- A READY_CHECK is answered with a status word (R27). The entry that moves on to READ keeps the count of checks, which R30 gives an
entry for READY_CHECK only: the model's choice, log entry 41. -/
def readyAnswered (e : Entry) (word : Nat) (s : State) : State :=
  let c := (slotOf s e.slot).settings
  if word.testBit c.readyBit then queueEntry { e with phase := .read, due := s.fine, tries := 0, checks := e.checks + 1 } s
  else if e.checks + 1 < c.readyLimit then
    queueEntry { e with due := s.fine + 1000, tries := 0, checks := e.checks + 1 } s
  else failVisit e.slot s

/-- A DATA answers a READ or a READY_CHECK (R27, R28). -/
def dataAnswered (e : Entry) (words : List WordBytes) (s : State) : State :=
  match e.phase with
  | .readyCheck => readyAnswered e (wordAt words false 0) s
  | .read => succeedVisit e.slot words s
  | .initWrite _ => s

/-! ### The commands of the line -/

/-- LINE_ENGINE_TAKE (R16). -/
def execLineEngineTake (s : State) : Host.Outcome State Fault Refusal := unlessHeld engineTake s

/-- REQUEST_TRANSMITTED (R17). -/
def execRequestTransmitted (s : State) : Host.Outcome State Fault Refusal := unlessHeld requestSent s

/-- The bytes received within the window are judged, and `outcome` follows for the replies that are of the command's kind. Bytes that
make no complete frame, and bytes outside a window, are only heard; a good frame of another command's kind is no occasion of this
one (log entry 21). -/
def replyEvent (received : List Byte) (outcome : Reply → Option (Entry → State → State)) (s : State) : State :=
  match awaiting s with
  | some f =>
    if judge f.request received = .incomplete then bytesHeard received s
    else
      match outcome (judge f.request received) with
      | some g => endTransaction f (g f.entry) (receiverHeard s)
      | none => s
  | none => bytesHeard received s

/-- DATA_REPLY (R17, R27, R28); a frame that fails a test of R17 is a miss (R18). Log entry 21. -/
def execDataReply (received : List Byte) (s : State) : Host.Outcome State Fault Refusal :=
  unlessHeld
    (replyEvent received fun r =>
      match r with
      | .data words => some fun e => dataAnswered e words
      | .bad => some miss
      | _ => none) s

/-- DONE_REPLY (R17, R18, R25). Log entry 21. -/
def execDoneReply (received : List Byte) (s : State) : Host.Outcome State Fault Refusal :=
  unlessHeld
    (replyEvent received fun r =>
      match r with
      | .done => some writeDone
      | .bad => some miss
      | _ => none) s

/-- ERROR_REPLY (R17, R18, R26). Log entry 21. -/
def execErrorReply (received : List Byte) (s : State) : Host.Outcome State Fault Refusal :=
  unlessHeld
    (replyEvent received fun r =>
      match r with
      | .error code => some fun e => faultSlot e.slot code
      | .bad => some miss
      | _ => none) s

/-- BAD_REPLY_FRAME: the first complete frame fails a test, and the transaction is a miss (R17, R18, R208). -/
def execBadReplyFrame (received : List Byte) (s : State) : Host.Outcome State Fault Refusal :=
  unlessHeld
    (replyEvent received fun r =>
      match r with
      | .bad => some miss
      | _ => none) s

/-- REPLY_WINDOW_EXPIRY: the window expires and the transaction is a miss (R17, R18). -/
def execReplyWindowExpiry (s : State) : Host.Outcome State Fault Refusal :=
  unlessHeld
    (fun s =>
      match expired s with
      | some f => endTransaction f (miss f.entry) s
      | none => s) s

end Sys2Proof.Machine
end

