-- ==== Sys2Proof/Machine/Nominations.lean ====
section
/-! DEFINITION. The NFU's requests: NOMINATE and its short forms (R157, R158), SET-LEAD (R160), SET-RATCHET (R162); and the CAU's
SET-ALLOCATION (R189). -/

namespace Sys2Proof.Machine

/-! ### Runs of hours -/

/-- A run of hours of one row; `first` and `count` are within the row. -/
structure Run where
  tomorrow : Bool
  first : Nat
  count : Nat
  deriving DecidableEq, Repr

/-- Position of an hour of the today or the tomorrow row. -/
def rowPosition (tomorrow : Bool) (hour : Nat) : Fin 72 := ⟨(if tomorrow then 48 else 24) + hour % 24, by split <;> omega⟩

/-- The marked hours of a mask as a list, lowest first. -/
def markedHours (mask : Nat) : List Nat := (List.range 24).filter fun h => mask.testBit h

/-- The run of a mask: its lowest marked hour and its number of marked hours, when the marked hours are one contiguous run
(R157 check 1). -/
def maskRun (mask : Nat) : Option (Nat × Nat) :=
  match markedHours mask with
  | [] => none
  | first :: rest => if first :: rest = List.range' first (rest.length + 1) then some (first, rest.length + 1) else none

/-- A day byte, TODAY 0 or TOMORROW 1. -/
def dayByte (fields : List Byte) : Option Bool := mark fields 1

/-- Is the hour at position `p` past, or firmed: in the today row at or before the open hour, or firmed (R157 check 5)? -/
def lateHour (s : State) (p : Fin 72) : Bool :=
  (hourOf s p).site.firmed ||
    match openPosition s with
    | some o => decide (p ≤ o)
    | none => false

/-- The requested quantity of every hour of a run written for one slot, no other item changed (R157, R158). -/
def writeRun (a : Fin 16) (r : Run) (quantity : Option Int) (s : State) : State :=
  s.withNfu { s.nfu with
    hours := tab fun p =>
      let start := rowPosition r.tomorrow r.first
      if start ≤ p ∧ p.val < start.val + r.count then
        { hourOf s p with entries := alter (hourOf s p).entries a fun e => { e with requested := quantity } }
      else hourOf s p }

/-- Check 4 of R157; a CANCEL-NOMINATION carries no quantity (R158). -/
def mayNotNominate (s : State) (a : Fin 16) (quantity : Option Int) : Bool :=
  match (accountOf s a).state with
  | .vacant => true
  | .active => false
  | .closing => decide (0 < quantity.getD 0)

/-- Does a quantity lie outside its range (R157 check 2)? -/
def quantityOutOfRange (quantity : Option Int) : Bool := decide (Config.maxRate < (quantity.getD 0).natAbs)

/-- The day, the first hour and the number of hours written (R157, R206). -/
def runBytes (r : Run) : List Byte := markByte r.tomorrow ++ ubytes 1 r.first ++ ubytes 1 r.count

/-- Checks 2 to 5 of R157 on an expanded run, and its writing. -/
def nominateRun (a : Fin 16) (r : Run) (quantity : Option Int) (s : State) : Answer :=
  if quantityOutOfRange quantity then .refuse .range
  else if !clockRunning s then .refuse .clock
  else if mayNotNominate s a quantity then .refuse .state
  else if lateHour s (rowPosition r.tomorrow r.first) then .refuse .late
  else .taken (writeRun a r quantity s) (runBytes r)

/-! ### NOMINATE and its short forms -/

/-- NOMINATE past the checks that every request has. -/
def nominate (fields : List Byte) (s : State) : Answer :=
  match index? 16 (byteAt fields 0), dayByte fields, maskRun (num fields 2 3) with
  | some a, some tomorrow, some (first, count) => nominateRun a ⟨tomorrow, first, count⟩ (some (snum fields 5 4)) s
  | _, _, _ => .refuse .malformed

/-- NOMINATE. -/
def execNominate (port : Port) (fields : List Byte) (s : State) : Host.Outcome State Fault Refusal :=
  serve (some .com) 0x90 port fields (nominate fields) s

/-- NOMINATE-DAY past the checks that every request has: the run is the whole day named (R158). -/
def nominateDay (fields : List Byte) (s : State) : Answer :=
  match index? 16 (byteAt fields 0), dayByte fields with
  | some a, some tomorrow => nominateRun a ⟨tomorrow, 0, 24⟩ (some (snum fields 2 4)) s
  | _, _ => .refuse .malformed

/-- NOMINATE_DAY. -/
def execNominateDay (port : Port) (fields : List Byte) (s : State) : Host.Outcome State Fault Refusal :=
  serve (some .com) 0x91 port fields (nominateDay fields) s

/-- The first nominable hour of the today row, when it has one (R156, R158). -/
def firstToday (s : State) : Option (Fin 24) := firstFin fun h => !lateHour s (todayPosition h.val)

/-- NOMINATE-REST past the checks that every request has: the run goes from the first nominable hour of today to hour 23
(R158). -/
def nominateRest (fields : List Byte) (s : State) : Answer :=
  match index? 16 (byteAt fields 0) with
  | none => .refuse .malformed
  | some a =>
    let quantity := some (snum fields 1 4)
    if quantityOutOfRange quantity then .refuse .range
    else if !clockRunning s then .refuse .clock
    else if mayNotNominate s a quantity then .refuse .state
    else
      match firstToday s with
      | none => .refuse .late
      | some h =>
        let r : Run := ⟨false, h.val, 24 - h.val⟩
        .taken (writeRun a r quantity s) (runBytes r)

/-- NOMINATE_REST. -/
def execNominateRest (port : Port) (fields : List Byte) (s : State) : Host.Outcome State Fault Refusal :=
  serve (some .com) 0x92 port fields (nominateRest fields) s

/-- CANCEL-NOMINATION past the checks that every request has: the requested quantities become absent (R158). -/
def cancelNomination (fields : List Byte) (s : State) : Answer :=
  match index? 16 (byteAt fields 0), dayByte fields, maskRun (num fields 2 3) with
  | some a, some tomorrow, some (first, count) => nominateRun a ⟨tomorrow, first, count⟩ none s
  | _, _, _ => .refuse .malformed

/-- CANCEL_NOMINATION. -/
def execCancelNomination (port : Port) (fields : List Byte) (s : State) : Host.Outcome State Fault Refusal :=
  serve (some .com) 0x93 port fields (cancelNomination fields) s

/-! ### SET-LEAD, SET-RATCHET, SET-ALLOCATION -/

/-- SET-LEAD past the checks that every request has (R160). -/
def setLead (fields : List Byte) (s : State) : Answer :=
  let lead := byteAt fields 0
  if lead = 0 ∨ 4 < lead then .refuse .range
  else .taken (s.withNfu { s.nfu with pendingLead := if lead = s.nfu.lead then none else some lead }) []

/-- SET_LEAD. -/
def execSetLead (port : Port) (fields : List Byte) (s : State) : Host.Outcome State Fault Refusal :=
  serve (some .com) 0x94 port fields (setLead fields) s

/-- The `count` points of a SET-RATCHET. -/
def readPoints (fields : List Byte) (count : Nat) : List RatchetPoint :=
  (List.range count).map fun i => ⟨num fields (2 + 4 * i) 2, num fields (4 + 4 * i) 2⟩

/-- Are the fills strictly ascending, from 0 to 1,000 (R162 check 2)? -/
def fillsValid (points : List RatchetPoint) : Bool :=
  decide ((points.map RatchetPoint.fill).Pairwise (· < ·)) && decide ((points.map RatchetPoint.fill).head? = some 0)
    && decide ((points.map RatchetPoint.fill).getLast? = some 1000)

/-- SET-RATCHET past the checks that every request has: table INJECTION 0, WITHDRAWAL 1 (R162). -/
def setRatchet (fields : List Byte) (s : State) : Answer :=
  let count := byteAt fields 1
  let points := readPoints fields count
  match mark fields 0 with
  | none => .refuse .malformed
  | some withdrawal =>
    if count < 2 ∨ 8 < count then .refuse .malformed
    else if !fillsValid points then .refuse .malformed
    else if points.any (fun p => decide (1000 < p.rate)) then .refuse .range
    else
      .taken
        (s.withNfu (if withdrawal then { s.nfu with withdrawalRatchet := points } else { s.nfu with injectionRatchet := points })) []

/-- SET_RATCHET. -/
def execSetRatchet (port : Port) (fields : List Byte) (s : State) : Host.Outcome State Fault Refusal :=
  serve (some .com) 0x95 port fields (setRatchet fields) s

/-- SET-ALLOCATION past the checks that every request has (R189). -/
def setAllocation (fields : List Byte) (s : State) : Answer :=
  match AllocationMode.ofByte? (byteAt fields 0) with
  | none => .refuse .malformed
  | some mode => .taken (s.withCau { s.cau with mode := mode }) []

/-- SET_ALLOCATION. -/
def execSetAllocation (port : Port) (fields : List Byte) (s : State) : Host.Outcome State Fault Refusal :=
  serve (some .com) 0xA0 port fields (setAllocation fields) s

end Sys2Proof.Machine
end

