-- ==== Sys2Proof/Machine/Slots.lean ====
section
/-! DEFINITION. The FSU's requests: SET-FIELD-LINE (R15), SET-SLOT (R20), ENABLE-SLOT (R21), DISABLE-SLOT (R22), WRITE-SCRIPT
(R23), and the bindings they check (R37). -/

namespace Sys2Proof.Machine

/-! ### Bindings (R37) -/

/-- Has the slot channel `c`, and in a format that `ok` accepts? -/
def channelIs (sl : Slot) (c : Nat) (ok : Format → Bool) : Bool :=
  match channelSetting? sl c with
  | some x => ok x.format
  | none => false

/-- The formats of a counter. -/
def Format.isCounter (f : Format) : Bool := decide (f = .u16) || decide (f = .u32)

/-- Do the slot's channels suit point `k`? -/
def pointFits (k : Fin 7) (sl : Slot) : Bool :=
  channelIs sl 0 Format.isCounter && (!hasReverse k || channelIs sl 1 Format.isCounter)
    && channelIs sl (pressureIndex k) (fun f => decide (f = .u16)) && channelIs sl (temperatureIndex k) (fun f => decide (f = .s16))

/-- Does the slot have channel `c` in format S16, as a dew point needs it? -/
def dewPointFits (sl : Slot) (c : Nat) : Bool := channelIs sl c fun f => decide (f = .s16)

/-- Does the slot have channel `c` in format U16, as the CV source needs it? -/
def cvFits (sl : Slot) (c : Nat) : Bool := channelIs sl c fun f => decide (f = .u16)

/-- The channel of slot `n` that a binding names, if it names one. -/
def channelOn (n : Fin 16) (b : Option Binding) : Option Nat :=
  match b with
  | some b => if b.slot = n then some b.channel else none
  | none => none

/-- Is slot `n` bound? -/
def slotBound (s : State) (n : Fin 16) : Bool :=
  (pointBoundTo s n).isSome || (someFin fun t : Fin 2 => (channelOn n (trainOf s t).binding).isSome)
    || (channelOn n s.mtu.cvSource).isSome

/-- Do the channels of slot `n` suit every binding to it? -/
def bindingsFit (s : State) (n : Fin 16) : Bool :=
  (allFin fun k : Fin 7 => !decide ((pointOf s k).slot = some n) || pointFits k (slotOf s n))
    && (allFin fun t : Fin 2 =>
          match channelOn n (trainOf s t).binding with
          | some c => dewPointFits (slotOf s n) c
          | none => true)
    && (match channelOn n s.mtu.cvSource with
        | some c => cvFits (slotOf s n) c
        | none => true)

/-! ### SET-FIELD-LINE -/

/-- SET-FIELD-LINE past the checks that every request has (R15). -/
def setFieldLine (fields : List Byte) (s : State) : Answer :=
  let window := num fields 0 1
  if window < 5 ∨ 200 < window then .refuse .range
  else .taken (s.withFsu { s.fsu with window := window }) []

/-- SET_FIELD_LINE. -/
def execSetFieldLine (port : Port) (fields : List Byte) (s : State) : Host.Outcome State Fault Refusal :=
  serve (some .ops) 0x20 port fields (setFieldLine fields) s

/-! ### SET-SLOT -/

/-- The `count` channel settings from byte `start`; none when an enumeration or a mark is out of its list. -/
def readChannels (fields : List Byte) : Nat → Nat → Option (List ChannelSetting)
  | _, 0 => some []
  | start, count + 1 => do
    let format ← Format.ofByte? (byteAt fields (start + 1))
    let swap ← mark fields (start + 2)
    let rest ← readChannels fields (start + 3) count
    return ⟨byteAt fields start, format, swap⟩ :: rest

/-- A threshold limit, read by the format of its channel (R206). -/
def readLimit (fields : List Byte) (start : Nat) (format : Option Format) : Int :=
  match format with
  | some .s16 => snum fields start 4
  | _ => num fields start 4

/-- The threshold from byte `start`: presence, channel, upper, lower, zone. -/
def readThreshold (fields : List Byte) (start : Nat) (channels : List ChannelSetting) : Option (Option Threshold) := do
  let present ← mark fields start
  let zone ← Zone.ofByte? (byteAt fields (start + 10))
  let channel := byteAt fields (start + 1)
  let format := (channels[channel]?).map ChannelSetting.format
  return if present then some ⟨channel, readLimit fields (start + 2) format, readLimit fields (start + 6) format, zone⟩ else none

/-- The settings a SET-SLOT carries, with as many channels as its count byte says; none when an enumeration or a mark is out of its
list (R206). -/
def readSlotSettings (fields : List Byte) : Option SlotSettings := do
  let count := byteAt fields 5
  let b := 6 + 3 * count
  let channels ← readChannels fields 6 count
  let pollMode ← PollMode.ofByte? (byteAt fields b)
  let threshold ← readThreshold fields (b + 12) channels
  return {
    address := num fields 1 1, startRegister := num fields 2 2, wordCount := num fields 4 1, channels := channels
    pollMode := pollMode, statusRegister := num fields (b + 1) 2, readyBit := num fields (b + 3) 1
    readyLimit := num fields (b + 4) 1, period := num fields (b + 5) 2, settle := num fields (b + 7) 1
    retries := num fields (b + 8) 1, absentLimit := num fields (b + 9) 1, scriptStart := num fields (b + 10) 1
    scriptCount := num fields (b + 11) 1, threshold := threshold }

/-- Words a channel of a format takes. -/
def Format.words : Format → Nat
  | .u32 => 2
  | _ => 1

/-- Is a number within a format's range (R32)? -/
def Format.holds (f : Format) (z : Int) : Bool :=
  match f with
  | .u16 => decide (0 ≤ z ∧ z ≤ 65535)
  | .s16 => decide (-32768 ≤ z ∧ z ≤ 32767)
  | .u8 => decide (0 ≤ z ∧ z ≤ 255)
  | .u32 => decide (0 ≤ z ∧ z ≤ 4294967295)

/-- Is a threshold one that the slot's channels admit (R20 check 2)? -/
def thresholdInRange (channels : List ChannelSetting) (t : Threshold) : Bool :=
  match channels[t.channel]? with
  | some c => c.format.holds t.upper && c.format.holds t.lower && decide (t.lower < t.upper)
  | none => false

/-- Check 2 of R20: every setting in its range of R19, the 1 to 4 channels among them, and the settings consistent. -/
def SlotSettings.inRange (c : SlotSettings) : Bool :=
  decide (1 ≤ c.address ∧ c.address ≤ 126) && decide (1 ≤ c.wordCount ∧ c.wordCount ≤ 8)
    && decide (1 ≤ c.channels.length ∧ c.channels.length ≤ 4)
    && (c.channels.all fun x => decide (x.offset + x.format.words ≤ c.wordCount))
    && decide (c.readyBit ≤ 15) && decide (1 ≤ c.readyLimit ∧ c.readyLimit ≤ 30)
    && decide (1 ≤ c.period ∧ c.period ≤ 3600) && decide (c.retries ≤ 3)
    && decide (1 ≤ c.absentLimit ∧ c.absentLimit ≤ 8) && decide (c.scriptStart ≤ 63) && decide (c.scriptCount ≤ 8)
    && decide (c.scriptStart + c.scriptCount ≤ 64)
    && (match c.threshold with
        | some t => thresholdInRange c.channels t
        | none => true)

/-- The readers of slot `n` when its channels have taken NONE: bands and off-spec states (R81, R132). -/
def channelsLost (n : Fin 16) (before s : State) : State := dewPointsLost n (bandsFollow before s)

/-- A slot's counters and channels as SET-SLOT on an enabled slot, ENABLE-SLOT and DISABLE-SLOT leave them (R20, R21, R22). -/
def Slot.fresh (sl : Slot) : Slot :=
  { sl.clearChannels with failed := 0, overruns := 0, recovered := false, thresholdOn := false }

/-- An enabled slot restarts: INIT, with its first visit scheduled now (R20). -/
def restartSlot (n : Fin 16) (s : State) : State :=
  let cleared := alterSlot n (fun sl => { sl.fresh with state := .init, firstReading := true }) (withdrawSlot n s)
  slotEventEnds s n (scheduleVisit n s.fine (channelsLost n s cleared))

/-- SET-SLOT past the checks that every request has (R20). -/
def setSlot (fields : List Byte) (s : State) : Answer :=
  match index? 16 (byteAt fields 0), readSlotSettings fields with
  | some n, some settings =>
    if !settings.inRange then .refuse .range
    else if slotBound s n && decide ((slotOf s n).state ≠ .disabled) then .refuse .inUse
    else
      let stored := alterSlot n (fun sl => { sl with settings := settings }) s
      .taken (if (slotOf s n).state = .disabled then stored else restartSlot n stored) []
  | _, _ => .refuse .malformed

/-- SET_SLOT. -/
def execSetSlot (port : Port) (fields : List Byte) (s : State) : Host.Outcome State Fault Refusal :=
  serve (some .ops) 0x21 port fields (setSlot fields) s

/-! ### ENABLE-SLOT and DISABLE-SLOT -/

/-- A slot is enabled: INIT, with its first visit scheduled now (R21). -/
def enable (n : Fin 16) (s : State) : State :=
  let cleared := alterSlot n (fun sl => { sl.fresh with enabled := true, state := .init, firstReading := true }) s
  slotEventEnds s n (scheduleVisit n s.fine (channelsLost n s cleared))

/-- ENABLE-SLOT past the checks that every request has (R21). -/
def enableSlot (fields : List Byte) (s : State) : Answer :=
  match index? 16 (byteAt fields 0) with
  | none => .refuse .malformed
  | some n =>
    if (slotOf s n).state ≠ .disabled then .refuse .state
    else if !bindingsFit s n then .refuse .inUse
    else .taken (enable n s) []

/-- ENABLE_SLOT. -/
def execEnableSlot (port : Port) (fields : List Byte) (s : State) : Host.Outcome State Fault Refusal :=
  serve (some .ops) 0x22 port fields (enableSlot fields) s

/-- A slot is disabled; the point bound to it closes its gap and loses its baselines (R22, R53). -/
def disable (n : Fin 16) (s : State) : State :=
  let cleared := alterSlot n
    (fun sl => { sl.fresh with enabled := false, state := .disabled, firstReading := false, scheduled := none })
    (withdrawSlot n (disablePoint n s))
  slotEventEnds s n (channelsLost n s cleared)

/-- DISABLE-SLOT past the checks that every request has (R22). -/
def disableSlot (fields : List Byte) (s : State) : Answer :=
  match index? 16 (byteAt fields 0) with
  | none => .refuse .malformed
  | some n => if (slotOf s n).state = .disabled then .refuse .state else .taken (disable n s) []

/-- DISABLE_SLOT. -/
def execDisableSlot (port : Port) (fields : List Byte) (s : State) : Host.Outcome State Fault Refusal :=
  serve (some .ops) 0x23 port fields (disableSlot fields) s

/-! ### WRITE-SCRIPT -/

/-- The script store with `count` entries written from index `start`, read from byte `at_` of the fields. -/
def writeEntries (fields : List Byte) : Nat → Nat → Nat → Vector ScriptEntry 64 → Vector ScriptEntry 64
  | 0, _, _, script => script
  | count + 1, start, at_, script =>
    match index? 64 start with
    | some i =>
      writeEntries fields count (start + 1) (at_ + 4) (put script i ⟨num fields at_ 2, num fields (at_ + 2) 2⟩)
    | none => script

/-- WRITE-SCRIPT past the checks that every request has (R23). -/
def writeScript (fields : List Byte) (s : State) : Answer :=
  let start := byteAt fields 0
  let count := byteAt fields 1
  if count = 0 ∨ 8 < count then .refuse .malformed
  else if 64 < start + count then .refuse .range
  else .taken (s.withFsu { s.fsu with script := writeEntries fields count start 2 s.fsu.script }) []

/-- WRITE_SCRIPT. -/
def execWriteScript (port : Port) (fields : List Byte) (s : State) : Host.Outcome State Fault Refusal :=
  serve (some .ops) 0x24 port fields (writeScript fields) s

end Sys2Proof.Machine
end

