-- ==== Sys2Proof/Machine/Points.lean ====
section
/-! DEFINITION. The MTU's requests: SET-POINT (R42), SET-BETA and SET-CV (R43). -/

namespace Sys2Proof.Machine

/-- A device slot number that may be absent, from a presence byte at `i`; the outer none stands for a presence byte that is no mark and
for a number above 15. Which status refuses the latter is the entry's to say. Log entry 13. -/
def readSlotNumber (fields : List Byte) (i : Nat) : Option (Option (Fin 16)) :=
  match mark fields i with
  | some false => some none
  | some true => (index? 16 (byteAt fields (i + 1))).map some
  | none => none

/-- A binding that may be absent: presence byte at `i`, slot and channel (R37). -/
def readBinding (fields : List Byte) (i : Nat) : Option (Option Binding) :=
  (readSlotNumber fields i).map fun slot => slot.map fun n => ⟨n, byteAt fields (i + 2)⟩

/-- Does a binding name a channel index above 3? -/
def channelOutOfRange (b : Option Binding) : Bool :=
  match b with
  | some b => decide (3 < b.channel)
  | none => false

/-! ### SET-POINT -/

/-- Is slot `n` the slot of a metering point other than `k` (R42 check 3)? -/
def servesOther (s : State) (k : Fin 7) (n : Fin 16) : Bool :=
  someFin fun j : Fin 7 => decide (j ≠ k) && decide ((pointOf s j).slot = some n)

/-- Checks 3 and 4 of R42. -/
def pointBindingInUse (s : State) (k : Fin 7) (slot : Option (Fin 16)) : Bool :=
  match slot with
  | some n => servesOther s k n || (decide ((slotOf s n).state ≠ .disabled) && !pointFits k (slotOf s n))
  | none => false

/-- The settings of a point stored. -/
def storePoint (k : Fin 7) (slot : Option (Fin 16)) (weight ceiling capacity : Nat) (s : State) : State :=
  alterPoint k (fun p => { p with slot := slot, weight := weight, ceiling := ceiling, capacity := capacity }) s

/-- The bands of the cavern whose wellhead point is `k`, if one is, evaluated (R81). -/
def bandOfPoint (k : Fin 7) (s : State) : State :=
  overFin 4 (fun c s => if wellhead c = k then evaluateBand c s else s) s

/-- What a changed binding of point `k` changes at the CDT: COUNTER of the point, BAND of its cavern. -/
def pointReports (s : State) (k : Fin 7) : List (Fin 56 × Bool) :=
  (condCounter k, counterActive (pointOf s k)) :: ((List.finRange 4).filter fun c => decide (wellhead c = k)).map (bandReport s)

/-- A point whose binding changes leaves its old slot before it takes the new one (R42), the readers of the pressure follow
(R81), and the DIR tests a changeover whose quiet answers changed (R59, R90). -/
def rebindPoint (k : Fin 7) (slot : Option (Fin 16)) (weight ceiling capacity : Nat) (s : State) : State :=
  let bound := bandOfPoint k (storePoint k slot weight ceiling capacity (unbindPoint k s))
  quietReported s (reportAll (pointReports bound k) bound)

/-- Checks 2 to 4 of R42, and the effect. A bound slot outside S0 to S15 is a setting outside its range (R41). -/
def configurePoint (fields : List Byte) (k : Fin 7) (s : State) : Answer :=
  match readSlotNumber fields 1 with
  | none => .refuse .range
  | some slot =>
    let weight := num fields 3 2
    let ceiling := num fields 5 2
    let capacity := num fields 7 4
    if weight = 0 ∨ ceiling = 0 ∨ Config.maxRate < capacity ∨ (1 < k.val ∧ capacity ≠ 0) then .refuse .range
    else if pointBindingInUse s k slot then .refuse .inUse
    else if (pointOf s k).slot = slot then .taken (storePoint k slot weight ceiling capacity s) []
    else .taken (rebindPoint k slot weight ceiling capacity s) []

/-- SET-POINT past the checks that every request has. -/
def setPoint (fields : List Byte) (s : State) : Answer :=
  match ordinal? 7 (byteAt fields 0), mark fields 1 with
  | some k, some _ => configurePoint fields k s
  | _, _ => .refuse .malformed

/-- SET_POINT. -/
def execSetPoint (port : Port) (fields : List Byte) (s : State) : Host.Outcome State Fault Refusal :=
  serve (some .ops) 0x30 port fields (setPoint fields) s

/-! ### SET-BETA and SET-CV -/

/-- SET-BETA past the checks that every request has (R43). -/
def setBeta (fields : List Byte) (s : State) : Answer :=
  let table : Vector Nat 4 := tab fun i => num fields (2 * i.val) 2
  if someFin fun i : Fin 4 => decide (1023 < nth table i) then .refuse .range
  else .taken (s.withMtu { s.mtu with beta := table }) []

/-- SET_BETA. -/
def execSetBeta (port : Port) (fields : List Byte) (s : State) : Host.Outcome State Fault Refusal :=
  serve (some .ops) 0x31 port fields (setBeta fields) s

/-- Is the named slot enabled with channels that do not suit a CV source (R43)? -/
def cvBindingInUse (s : State) (source : Option Binding) : Bool :=
  match source with
  | some b => decide ((slotOf s b.slot).state ≠ .disabled) && !cvFits (slotOf s b.slot) b.channel
  | none => false

/-- SET-CV past the checks that every request has (R43). Its entry gives no check for a slot number above 15, which R197 counts as
MALFORMED. Log entry 13. -/
def setCv (fields : List Byte) (s : State) : Answer :=
  match readBinding fields 2 with
  | none => .refuse .malformed
  | some source =>
    let cv := num fields 0 2
    if cv < 8000 ∨ 13500 < cv then .refuse .range
    else if channelOutOfRange source then .refuse .range
    else if cvBindingInUse s source then .refuse .inUse
    else .taken (s.withMtu { s.mtu with cvDefault := cv, cvSource := source }) []

/-- SET_CV. -/
def execSetCv (port : Port) (fields : List Byte) (s : State) : Host.Outcome State Fault Refusal :=
  serve (some .ops) 0x32 port fields (setCv fields) s

end Sys2Proof.Machine
end

