-- ==== Sys2Proof/Machine/Outputs.lean ====
section
/-! DEFINITION. The output lines, each a function of the state: alert lines (R76), flow permits (R88), run requests (R96), dryer
outputs L0 to L7 (R116), and the field line's driver enable and transmitted frame (R14, R16, R207). While the
part is held in reset every one is off or released (R202). -/

namespace Sys2Proof.Machine

/-- Is a port's alert line asserted (R76)? -/
def alertAsserted (s : State) (p : Port) : Bool := !heldInReset s && alertCause s.cdt p

/-- Is the injection permit asserted (R88)? -/
def injectionPermit (s : State) : Bool := !heldInReset s && decide (s.dir.direction = .injecting)

/-- Is the withdrawal permit asserted (R88)? -/
def withdrawalPermit (s : State) : Bool := !heldInReset s && decide (s.dir.direction = .withdrawing)

/-- Is a unit's run request asserted: in STARTING and RUNNING (R96)? -/
def runRequest (s : State) (u : Fin 4) : Bool :=
  !heldInReset s && (decide ((unitOf s u).state = .starting) || decide ((unitOf s u).state = .running))

/-- Eight outputs with both towers' patterns placed by the on-stream tower, heater and cooler (R116). -/
def mapOutputs (tower : Tower) (onStream offStream : Pattern) (heater cooler : Bool) : Vector Bool 8 :=
  match tower with
  | .a =>
    ⟨#[onStream.inlet, onStream.outlet, onStream.regeneration, offStream.inlet, offStream.outlet, offStream.regeneration,
        heater, cooler], rfl⟩
  | .b =>
    ⟨#[offStream.inlet, offStream.outlet, offStream.regeneration, onStream.inlet, onStream.outlet, onStream.regeneration,
        heater, cooler], rfl⟩

/-- The outputs of a train by its state: all off, the parked pattern, or the patterns of the step it is in (R116). -/
def Train.outputs (banks : Vector (Vector BankEntry 24) 2) (t : Train) : Vector Bool 8 :=
  match t.state with
  | .off | .faulted => fill 8 false
  | .parked => mapOutputs t.tower ⟨true, true, false⟩ ⟨false, false, false⟩ false false
  | .running | .waitInput =>
    match currentStep banks t with
    | some r => mapOutputs t.tower r.onStream r.offStream r.heater r.cooler
    | none => fill 8 false

/-- L0 to L7 of a train. -/
def dryerOutputs (s : State) (t : Fin 2) : Vector Bool 8 :=
  if heldInReset s then fill 8 false else (trainOf s t).outputs s.dsq.banks

/-- The frame being transmitted: from the take of an entry to the end of its request (R14, R16). -/
def transmitting (s : State) : Option (List Byte) :=
  if heldInReset s then none
  else
    match s.fsu.engine with
    | .awaitReply f => if f.windowEnd = none then some (requestFrame f.request) else none
    | .idle => none

/-- Is the driver enable of the field line asserted (R14)? -/
def driverEnabled (s : State) : Bool := (transmitting s).isSome

end Sys2Proof.Machine
end

