-- ==== Sys2Proof/Machine/Reports.lean ====
section
/-! DEFINITION. What a READ reports of each item class: the items that the owning read rule lists, in its order, encoded as R206
gives (R13, R39, R62, R78, R94, R114, R136, R152, R174, R192, R204). Log entry 15 says how the layouts were
settled where R206 leaves a choice. -/

namespace Sys2Proof.Machine

/-- The items of a report for every index of a table. -/
def flatFin {n : Nat} (f : Fin n → List Byte) : List Byte := (List.ofFn f).flatten

/-- A group of items that a state may lack: one presence byte, then the items, 0 when absent (R206). -/
def groupBytes {α : Type} (length : Nat) (enc : α → List Byte) (x : Option α) : List Byte := optionBytes length enc x

/-! ### Clock and field line (R13, R39) -/

/-- Class 1. -/
def clockItems (s : State) : List Byte :=
  let c := s.clock
  (if clockRunning s then ubytes 1 1 ++ ubytes 2 c.day ++ ubytes 4 c.seconds ++ ubytes 1 c.tenths
    else List.replicate 8 0)
    ++ timeBytes (timeBase s) ++ optionBytes 3 hourIdBytes c.lastClosed ++ markByte c.trimmed

/-- Class 2. -/
def fieldLineItems (s : State) : List Byte :=
  let flight := match s.fsu.engine with
    | .awaitReply f => some f
    | .idle => none
  ubytes 1 s.fsu.window ++ ubytes 1 (if flight.isSome then 1 else 0)
    ++ groupBytes 4
        (fun f : InFlight => ubytes 1 f.entry.slot.val ++ f.entry.phase.bytes ++ markByte f.discarded) flight

/-- The settings of R19 other than the enabled flag. -/
def slotSettingsBytes (c : SlotSettings) : List Byte :=
  ubytes 1 c.address ++ ubytes 2 c.startRegister ++ ubytes 1 c.wordCount
    ++ listBytes (fun x : ChannelSetting => ubytes 1 x.offset ++ ubytes 1 x.format.byte ++ markByte x.swap) c.channels
    ++ ubytes 1 c.pollMode.byte ++ ubytes 2 c.statusRegister ++ ubytes 1 c.readyBit ++ ubytes 1 c.readyLimit
    ++ ubytes 2 c.period ++ ubytes 1 c.settle ++ ubytes 1 c.retries ++ ubytes 1 c.absentLimit
    ++ ubytes 1 c.scriptStart ++ ubytes 1 c.scriptCount
    ++ optionBytes 10
        (fun t : Threshold => ubytes 1 t.channel ++ sbytes 4 t.upper ++ sbytes 4 t.lower ++ ubytes 1 t.zone.byte) c.threshold

/-- A slot's entry and whether it is in flight; none when it has none. An entry in flight whose transaction is discarded is the
slot's no more (R18, R30). -/
def entryOfSlot (s : State) (n : Fin 16) : Option (Entry × Bool) :=
  match s.fsu.queue.find? (fun e => decide (e.slot = n)) with
  | some e => some (e, false)
  | none =>
    match s.fsu.engine with
    | .awaitReply f => if f.entry.slot = n ∧ f.discarded = false then some (f.entry, true) else none
    | .idle => none

/-- Class 3. Log entry 15 names what R39 and R206 leave open here: a DISABLED slot's scheduled time is reported absent, and the mark of an
entry is 0 for queued and 1 for in flight. -/
def deviceSlotItems (s : State) (n : Fin 16) : List Byte :=
  let sl := slotOf s n
  markByte sl.enabled ++ slotSettingsBytes sl.settings ++ ubytes 1 sl.state.byte ++ ubytes 1 sl.failed ++ ubytes 2 sl.overruns
    ++ ubytes 1 sl.lastError ++ optionBytes 6 fineBytes sl.scheduled
    ++ groupBytes 11
        (fun x : Entry × Bool =>
          fineBytes x.1.due ++ x.1.phase.bytes ++ ubytes 1 x.1.tries ++ ubytes 1 x.1.checks ++ markByte x.2)
        (entryOfSlot s n)

/-- Class 4, of a channel that the slot has. -/
def channelItems (sl : Slot) (c : Nat) (setting : ChannelSetting) : List Byte :=
  let ch := channelAt sl c
  let threshold := match sl.settings.threshold with
    | some t => if t.channel = c then some sl.thresholdOn else none
    | none => none
  ubytes 1 setting.format.byte ++ sbytes setting.format.width ch.value ++ ubytes 1 ch.quality.byte
    ++ optionBytes 6 fineBytes ch.lastGood ++ groupBytes 1 markByte threshold

/-- Class 5: `count` entries from index `first`. -/
def scriptItems (s : State) (first count : Nat) : List Byte :=
  ((s.fsu.script.toList.drop first).take count).flatMap fun e => ubytes 2 e.register ++ ubytes 2 e.value

/-! ### Metering (R62) -/

/-- One direction of class 6. -/
def directionBytes (d : Direction) : List Byte :=
  optionBytes 4 (ubytes 4) d.baseline ++ ubytes 8 d.rate ++ markByte d.fresh ++ markByte d.implausible

/-- Class 6. -/
def pointItems (s : State) (k : Fin 7) : List Byte :=
  let p := pointOf s k
  optionBytes 1 (fun n : Fin 16 => ubytes 1 n.val) p.slot ++ ubytes 2 p.weight ++ ubytes 2 p.ceiling ++ ubytes 4 p.capacity
    ++ optionBytes 5 timeBytes p.readingTime ++ ubytes 1 (if p.gap.isSome then 1 else 0) ++ optionBytes 5 timeBytes p.gap
    ++ ubytes 4 p.estimatedTenths ++ directionBytes p.forward ++ (if hasReverse k then directionBytes p.reverse else [])
    ++ (if k.val < 2 then markByte (quiet s k .injecting) ++ markByte (quiet s k .withdrawing) else [])

/-- Both accumulators of a direction. -/
def volumeBytes (d : Direction) : List Byte := ubytes 8 d.hourVolume ++ ubytes 8 d.unclocked

/-- The MTU's flags in the order of R57. -/
def meterFlagBytes (f : MeterFlags) : List Byte :=
  markByte f.estimated ++ markByte f.cvHeld ++ markByte f.clamped ++ markByte f.rebased ++ markByte f.restart

/-- Class 7; the worked example of 11_ports_and_requests.md gives its lengths. -/
def accumulatorItems (s : State) : List Byte :=
  flatFin (fun k : Fin 7 =>
      volumeBytes (pointOf s k).forward ++ if hasReverse k then volumeBytes (pointOf s k).reverse else [])
    ++ meterFlagBytes s.mtu.flags ++ optionBytes 5 timeBytes s.mtu.startTime ++ ubytes 2 s.mtu.latchedCv

/-- A binding. -/
def bindingBytes (b : Binding) : List Byte := ubytes 1 b.slot.val ++ ubytes 1 b.channel

/-- Class 8. -/
def meteringSiteItems (s : State) : List Byte :=
  s.mtu.beta.toList.flatMap (ubytes 2) ++ ubytes 2 s.mtu.cvDefault ++ optionBytes 2 bindingBytes s.mtu.cvSource
    ++ ubytes 2 s.mtu.latchedCv ++ ubytes 4 (boundaryCapacity s)

/-! ### Conditions (R78) -/

/-- Class 9: `count` entries from condition `first`. -/
def conditionItems (s : State) (first count : Nat) : List Byte :=
  ((s.cdt.conditions.toList.drop first).take count).flatMap fun c =>
    ubytes 1 c.level ++ markByte c.active ++ markByte c.pendingOps ++ markByte c.pendingCom

/-- Two percentages. -/
def percentBytes (p : Percent) : List Byte := ubytes 1 p.injection ++ ubytes 1 p.withdrawal

/-- One port's alert settings and the present state of its line. R78 and R206 do not say how that state is coded: it is sent as a mark, 1 for
a line that is asserted, which is driven low, and 0 for one that is released. The model's choice, log entry 15. -/
def alertBytes (s : State) (p : Port) : List Byte :=
  ubytes 1 (s.cdt.alertOf p).threshold ++ markBytes (s.cdt.alertOf p).mask ++ markByte (alertAsserted s p)

/-- Class 10. R78 lists "each port's" threshold, mask and line and gives no order of the ports: Operations' three whole, then
Commercial's. Log entry 15. -/
def derateItems (s : State) : List Byte :=
  ubytes 1 s.cdt.derateClass ++ leadBytes s.cdt ++ percentBytes (percentOf s.cdt s.cdt.derateClass)
    ++ percentBytes (percentOf s.cdt 0) ++ s.cdt.derate.toList.flatMap percentBytes ++ alertBytes s .ops ++ alertBytes s .com

/-! ### Caverns and direction (R94) -/

/-- Class 11. -/
def cavernItems (s : State) (k : Fin 4) : List Byte :=
  let c := cavernOf s k
  serviceByte c.inService ++ ubytes 2 c.pmin ++ ubytes 2 c.pmax ++ ubytes 2 c.hysteresis ++ ubytes 4 c.injectionRate
    ++ ubytes 4 c.withdrawalRate ++ ubytes 4 c.gas ++ ubytes 1 c.band.byte ++ sbytes 2 (cavernPressure s k).value
    ++ ubytes 1 (cavernPressure s k).quality.byte ++ ubytes 4 (cavernInjection s k) ++ ubytes 4 (cavernWithdrawal s k)

/-- The settings of R87. -/
def siteBytes (c : SiteSettings) : List Byte :=
  ubytes 4 c.injectionCapacity ++ ubytes 4 c.withdrawalCapacity ++ ubytes 4 c.quietThreshold ++ ubytes 2 c.changeoverMinimum
    ++ ubytes 2 c.changeoverLimit ++ ubytes 4 c.unitRate ++ ubytes 4 c.trainRate ++ ubytes 4 c.tolerance

/-- What class 12 reports in CHANGEOVER. -/
def changeoverBytes (s : State) (c : Changeover) : List Byte :=
  ubytes 1 c.target.byte ++ ubytes 1 c.target.other.byte ++ timeBytes c.start ++ timeBytes (timeBase s - c.start)
    ++ markByte c.overrun ++ markByte (minimumPassed s c) ++ markByte (boundaryQuiet s c.target.other) ++ markByte (unitsClear s c)

/-- Class 12. -/
def directionItems (s : State) : List Byte :=
  let record := match s.dir.direction with
    | .changeover c => some c
    | _ => none
  ubytes 1 s.dir.direction.byte ++ markByte (injectionPermit s) ++ markByte (withdrawalPermit s) ++ siteBytes s.dir.site
    ++ ubytes 4 (cavernInjectionSum s) ++ ubytes 4 (cavernWithdrawalSum s) ++ groupBytes 16 (changeoverBytes s) record

/-! ### Compressors (R114) -/

/-- A deadline and the time left to it. A time left, or spent, has the 5 bytes of an elapsed time: the model's choice, log entry 15. -/
def deadlineBytes (s : State) (t : Nat) : List Byte := timeBytes t ++ timeBytes (t - timeBase s)

/-- The stop destination, held in STOPPING only. -/
def UnitState.destination : UnitState → Option StopDestination
  | .stopping d => some d
  | _ => none

/-- Class 13. -/
def unitItems (s : State) (u : Fin 4) : List Byte :=
  let r := unitOf s u
  serviceByte r.inService ++ ubytes 1 r.state.byte ++ groupBytes 1 (fun d : StopDestination => ubytes 1 d.byte) r.state.destination
    ++ ubytes 1 r.cause.byte ++ ubytes 1 r.attempts ++ markByte (runRequest s u) ++ markByte r.feedback
    ++ optionBytes 10 (deadlineBytes s) r.deadline ++ listBytes timeBytes r.startList ++ ubytes 4 r.runSeconds
    ++ ubytes 4 r.totalStarts

/-- Class 14. -/
def dutyItems (s : State) : List Byte :=
  let d := s.cpd.settings
  ubytes 1 d.maxStarts ++ ubytes 2 d.cooldown ++ ubytes 2 d.startTimeout ++ ubytes 2 d.stopTimeout ++ ubytes 1 d.startRetries
    ++ ubytes 4 s.dir.site.unitRate ++ ubytes 1 s.cpd.demand ++ ubytes 1 (activeUnits s.cpd)
    ++ optionBytes 1 (fun u : Fin 4 => ubytes 1 (u.val + 1)) (startingUnit s.cpd) ++ ubytes 1 s.cpd.shortfall
    ++ ubytes 1 s.cpd.reason.byte ++ ubytes 4 (compressorContribution s)

/-! ### Dryers (R136) -/

/-- The deadlines of a train with their kinds: time 0, dwell 1, timeout 2, stroke 3. -/
def Train.deadlines (t : Train) : List (Nat × Nat) :=
  ([(t.timeDeadline, 0), (t.dwellDeadline, 1), (t.timeoutDeadline, 2), (t.strokeDeadline, 3)] : List (Option Nat × Nat)).filterMap
    fun x => x.1.map fun d => (d, x.2)

/-- A bank number, 1 or 2. -/
def bankByte (b : Fin 2) : List Byte := ubytes 1 (b.val + 1)

/-- Class 15. -/
def trainItems (s : State) (t : Fin 2) : List Byte :=
  let r := trainOf s t
  let dewPoint := boundChannel s r.binding
  markByte r.enabled ++ optionBytes 2 bindingBytes r.binding ++ sbytes 2 r.breakthrough ++ sbytes 2 r.specLimit
    ++ ubytes 2 r.hysteresis ++ markByte r.standby ++ ubytes 1 r.state.byte ++ bankByte r.bank ++ optionBytes 1 bankByte r.pendingBank
    ++ ubytes 1 r.stepIndex ++ ubytes 1 r.tower.byte ++ markBytes (dryerOutputs s t) ++ markBytes r.inputs
    ++ listBytes (fun d : Nat × Nat => deadlineBytes s d.1 ++ ubytes 1 d.2) r.deadlines
    ++ markByte r.parkRequest ++ ubytes 2 r.cycles ++ ubytes 2 r.earlyAdvances ++ ubytes 1 r.cause.byte ++ ubytes 1 r.faultStep
    ++ sbytes 2 dewPoint.value ++ ubytes 1 dewPoint.quality.byte ++ markByte r.offSpec ++ ubytes 4 r.offSpecTenths
    ++ ubytes 4 (trainContribution s t)

/-- A pattern. -/
def patternBytes (p : Pattern) : List Byte := markByte p.inlet ++ markByte p.outlet ++ markByte p.regeneration

/-- The fields of a step record, in the order of WRITE-STEP. -/
def stepBytes (r : StepRecord) : List Byte :=
  patternBytes r.onStream ++ patternBytes r.offStream ++ markByte r.heater ++ markByte r.cooler ++ ubytes 1 r.advance.byte
    ++ ubytes 1 r.input.val ++ markByte r.sense ++ ubytes 2 r.duration ++ markByte r.longUnit ++ markByte r.swap
    ++ markByte r.adsorbExit

/-- Class 16: kind EMPTY 0, WRITTEN 1, END 2, and the fields of a WRITTEN entry. -/
def stepItems (s : State) (b : Fin 2) (i : Fin 24) : List Byte :=
  match nth (nth s.dsq.banks b) i with
  | .empty => ubytes 1 0 ++ groupBytes 16 stepBytes none
  | .written r => ubytes 1 1 ++ groupBytes 16 stepBytes (some r)
  | .endMark => ubytes 1 2 ++ groupBytes 16 stepBytes none

/-- Class 17. The cycle length of an invalid bank is reported absent: the model's choice, log entry 15. -/
def bankItems (s : State) (b : Fin 2) : List Byte :=
  let bank := nth s.dsq.banks b
  markByte (bankValid bank) ++ optionBytes 1 (ubytes 1) (cycleLength bank)
    ++ flatFin fun t : Fin 2 => markByte (decide ((trainOf s t).bank = b)) ++ markByte (decide ((trainOf s t).pendingBank = some b))

/-! ### Accounts (R152) -/

/-- One slot of class 18. -/
def accountBytes (s : State) (a : Fin 16) : List Byte :=
  let r := accountOf s a
  ubytes 1 a.val ++ ubytes 1 r.state.byte ++ optionBytes 2 (ubytes 2) r.code ++ ubytes 4 r.space ++ ubytes 4 r.injectionRight
    ++ ubytes 4 r.withdrawalRight ++ sbytes 4 r.inventory ++ sbytes 4 (injectionReserve s a) ++ sbytes 4 (withdrawalReserve s a)
    ++ sbytes 4 (freeInventory s a) ++ sbytes 4 (freeSpace s a)

/-- The non-vacant slot that carries a code, if one does. -/
def slotOfCode (s : State) (code : Nat) : Option (Fin 16) :=
  firstFin fun a => (accountOf s a).held && decide ((accountOf s a).code = some code)

/-- Class 18: the slot, or the mark that no slot holds the code. -/
def accountItems (s : State) (a : Option (Fin 16)) : List Byte := groupBytes 37 (accountBytes s) a

/-- Sum of all inventories. -/
def inventorySum (act : Act) : Int := sumInt fun a : Fin 16 => (nth act.slots a).inventory

/-- Number of slots in a state. -/
def slotsIn (s : State) (x : AccountState) : Nat := countFin fun a : Fin 16 => decide ((accountOf s a).state = x)

/-- Class 19. R152 lists "the number of slots in each state" without an order of the three counts: VACANT, ACTIVE, CLOSING here, the
order in which R137 lists the states. The model's choice, log entry 15. -/
def totalsItems (s : State) : List Byte :=
  sbytes 6 s.act.book ++ sbytes 6 s.act.suspense ++ sbytes 6 (inventorySum s.act) ++ ubytes 1 (slotsIn s .vacant)
    ++ ubytes 1 (slotsIn s .active) ++ ubytes 1 (slotsIn s .closing)

/-! ### Hours (R174) -/

/-- A quantity that may be absent. -/
def quantityBytes (q : Option Int) : List Byte := optionBytes 4 (sbytes 4) q

/-- An hour entry. -/
def hourEntryBytes (e : HourEntry) : List Byte :=
  quantityBytes e.requested ++ quantityBytes e.confirmed ++ quantityBytes e.allocated ++ quantityBytes e.fuel
    ++ markByte e.reduced ++ markByte e.curtailed ++ markByte e.refirmed

/-- The `count` hours from hour `first` of row `row`: yesterday 0, today 1, tomorrow 2. -/
def rowHours (s : State) (row first count : Nat) : List HourCell := (s.nfu.hours.toList.drop (24 * row + first)).take count

/-- Class 20. -/
def hourEntryItems (s : State) (a : Fin 16) (row first count : Nat) : List Byte :=
  (rowHours s row first count).flatMap fun c => hourEntryBytes (nth c.entries a)

/-- A site record. -/
def siteHourBytes (h : SiteHour) : List Byte :=
  markByte h.firmed ++ ubytes 4 h.injectionCapacity ++ ubytes 4 h.withdrawalCapacity ++ sbytes 4 h.net ++ ubytes 1 h.direction.byte
    ++ markByte h.curtailed ++ markByte h.refirmed ++ markByte h.closed

/-- Class 21. -/
def siteHourItems (s : State) (row first count : Nat) : List Byte :=
  (rowHours s row first count).flatMap fun c => siteHourBytes c.site

/-- The first nominable hour, in today or else in tomorrow; there is none while the clock is UNSET (R156). -/
def firstNominable (s : State) : Option (Fin 72) :=
  if clockRunning s then firstFin fun p : Fin 72 => decide (24 ≤ p.val) && !lateHour s p else none

/-- A ratchet table. -/
def ratchetBytes (l : List RatchetPoint) : List Byte := listBytes (fun p : RatchetPoint => ubytes 2 p.fill ++ ubytes 2 p.rate) l

/-- Class 22. R174 lists "both ratchet tables with their points" without an order of the two: the injection table first, then the
withdrawal table. The model's choice, log entry 15. -/
def nominationItems (s : State) : List Byte :=
  optionBytes 2 (ubytes 2) s.nfu.todayDay ++ ubytes 1 s.nfu.lead ++ optionBytes 1 (ubytes 1) s.nfu.pendingLead
    ++ optionBytes 2 (fun p : Fin 72 => ubytes 1 (p.val / 24) ++ ubytes 1 (p.val % 24)) (firstNominable s)
    ++ ratchetBytes s.nfu.injectionRatchet ++ ratchetBytes s.nfu.withdrawalRatchet

/-! ### History (R192) -/

/-- An hour record, in the order of R185. -/
def recordBytes (r : HourRecord) : List Byte :=
  hourIdBytes r.hour ++ ubytes 4 r.energyIn ++ ubytes 4 r.energyOut ++ ubytes 4 r.energyFuel ++ sbytes 4 r.net
    ++ r.cavernNets.toList.flatMap (sbytes 4) ++ sbytes 4 r.difference ++ ubytes 2 r.cv ++ ubytes 1 r.mode.byte
    ++ sbytes 4 r.suspensePosting ++ sbytes 4 r.fuelToSuspense ++ ubytes 2 r.estimatedSeconds
    ++ r.offSpecSeconds.toList.flatMap (ubytes 2) ++ meterFlagBytes r.flags ++ markByte r.offSpec ++ markByte r.curtailed
    ++ markByte r.refirmed ++ markByte r.trimmed ++ markByte r.outage

/-- Class 23: the record, or the mark that none is held. -/
def historyItems (r : Option HourRecord) : List Byte := groupBytes 66 recordBytes r

/-- The record at a position counted back from the newest. -/
def recordAt (s : State) (position : Nat) : Option HourRecord := s.cau.history.reverse[position]?

/-- The record of an hour. -/
def recordFor (s : State) (h : HourId) : Option HourRecord := s.cau.history.find? fun r => decide (r.hour = h)

/-- Class 24. While the history is empty R192 names no mark for the hour of the oldest record, that of the newest, and the newest
difference: each of the three has a presence byte of its own, and is then absent. Log entry 15. -/
def closeItems (s : State) : List Byte :=
  ubytes 1 s.cau.mode.byte ++ ubytes 1 s.cau.history.length
    ++ optionBytes 3 hourIdBytes (s.cau.history.head?.map HourRecord.hour)
    ++ optionBytes 3 hourIdBytes (s.cau.history.getLast?.map HourRecord.hour) ++ markByte (conditionActive s condMeterDiff)
    ++ optionBytes 4 (sbytes 4) (s.cau.history.getLast?.map HourRecord.difference)

/-- Class 25 (R204). -/
def resetSourceItems (s : State) : List Byte :=
  ubytes 1 s.pif.resetKind.byte ++ markByte s.pif.retentionLost ++ ubytes 2 s.pif.resetCount

end Sys2Proof.Machine
end

