-- ==== Sys2Proof/Machine/Reads.lean ====
section
/-! DEFINITION. READ: the selector checks of R199, the report and its pieces, and the continuation of R200. -/

namespace Sys2Proof.Machine

/-- What a class and its selector name: something R206 or R199 refuses, the items of a report, or a channel that the slot does
not have, of which R39 leaves the report open (log entry 5). -/
inductive Selected
  | refused (status : Status)
  | items (items : List Byte)
  | missingChannel
  deriving DecidableEq, Repr

/-- The items of one record named by an index; RANGE when there is none. -/
def ofIndex {α : Type} (i : Option α) (items : α → List Byte) : Selected :=
  match i with
  | some i => .items (items i)
  | none => .refused .range

/-- The items of a run of entries; RANGE unless 1..`most` entries lie within the `size` there are. -/
def ofRun (first count most size : Nat) (items : List Byte) : Selected :=
  if first < size ∧ 1 ≤ count ∧ count ≤ most ∧ first + count ≤ size then .items items else .refused .range

/-- Class 4. -/
def selectChannel (s : State) (slot channel : Nat) : Selected :=
  match index? 16 slot, index? 4 channel with
  | some n, some c =>
    match channelSetting? (slotOf s n) c.val with
    | some setting => .items (channelItems (slotOf s n) c.val setting)
    | none => .missingChannel
  | _, _ => .refused .range

/-- Class 18: a slot number, or a shipper code when the by-code mark is set. -/
def selectAccount (s : State) (byCode : Option Bool) (value : Nat) : Selected :=
  match byCode with
  | none => .refused .malformed
  | some false => ofIndex (index? 16 value) fun a => accountItems s (some a)
  | some true => if value = 0 then .refused .range else .items (accountItems s (slotOfCode s value))

/-- Class 20. -/
def selectEntries (s : State) (slot row first count : Nat) : Selected :=
  if 2 < row then .refused .malformed
  else
    match index? 16 slot with
    | some a => ofRun first count 3 24 (hourEntryItems s a row first count)
    | none => .refused .range

/-- Class 21. -/
def selectHours (s : State) (row first count : Nat) : Selected :=
  if 2 < row then .refused .malformed else ofRun first count 4 24 (siteHourItems s row first count)

/-- Class 23: a position, or a (day, hour) when the by-hour mark is set. -/
def selectRecord (s : State) (byHour : Option Bool) (position day hour : Nat) : Selected :=
  match byHour with
  | none => .refused .malformed
  | some false => if position ≤ 47 then .items (historyItems (recordAt s position)) else .refused .range
  | some true => if hour ≤ 23 then .items (historyItems (recordFor s ⟨day, hour⟩)) else .refused .range

/-- The class table of R200. -/
def select (s : State) (itemClass : Nat) (sel : List Byte) : Selected :=
  let b := byteAt sel
  match itemClass with
  | 1 => .items (clockItems s)
  | 2 => .items (fieldLineItems s)
  | 3 => ofIndex (index? 16 (b 0)) (deviceSlotItems s)
  | 4 => selectChannel s (b 0) (b 1)
  | 5 => ofRun (b 0) (b 1) 8 64 (scriptItems s (b 0) (b 1))
  | 6 => ofIndex (ordinal? 7 (b 0)) (pointItems s)
  | 7 => .items (accumulatorItems s)
  | 8 => .items (meteringSiteItems s)
  | 9 => ofRun (b 0) (b 1) 56 56 (conditionItems s (b 0) (b 1))
  | 10 => .items (derateItems s)
  | 11 => ofIndex (ordinal? 4 (b 0)) (cavernItems s)
  | 12 => .items (directionItems s)
  | 13 => ofIndex (ordinal? 4 (b 0)) (unitItems s)
  | 14 => .items (dutyItems s)
  | 15 => ofIndex (ordinal? 2 (b 0)) (trainItems s)
  | 16 =>
    match ordinal? 2 (b 0), index? 24 (b 1) with
    | some bank, some i => .items (stepItems s bank i)
    | _, _ => .refused .range
  | 17 => ofIndex (ordinal? 2 (b 0)) (bankItems s)
  | 18 => selectAccount s (mark sel 0) (num sel 1 2)
  | 19 => .items (totalsItems s)
  | 20 => selectEntries s (b 0) (b 1) (b 2) (b 3)
  | 21 => selectHours s (b 0) (b 1) (b 2)
  | 22 => .items (nominationItems s)
  | 23 => selectRecord s (mark sel 0) (b 1) (num sel 2 2) (b 4)
  | 24 => .items (closeItems s)
  | 25 => .items (resetSourceItems s)
  | _ => .refused .malformed

/-! ### Parts (R199, R200) -/

/-- Number of parts of a report. -/
def partsOf (report : List Byte) : Nat := ceilDiv report.length Config.pieceLength

/-- Piece `k` of a report. -/
def pieceOf (report : List Byte) (k : Nat) : List Byte := (report.drop (Config.pieceLength * k)).take Config.pieceLength

/-- The response that carries piece `k`: PARTIAL while pieces follow it, OK for the last. -/
def pieceResponse (image : ReadImage) (k : Nat) : Response :=
  { status := if k + 1 < partsOf image.report then .part else .ok
    fields := ubytes 1 0xB0 ++ ubytes 1 image.itemClass ++ ubytes 1 k ++ ubytes 1 (partsOf image.report) ++ pieceOf image.report k }

/-- Part `k` of an image is put into the port's response buffer, and the image is held. -/
def answerPiece (p : Port) (image : ReadImage) (k : Nat) (s : State) : State :=
  alterPort p (fun x => { x with response := some (pieceResponse image k), image := some image }) s

/-- A refused READ: the image is discarded (R200). -/
def refuseRead (p : Port) (status : Status) (s : State) : State := place p status (ubytes 1 0xB0) (discardImage p s)

/-- A READ with part number 0 forms the report at this instant (R199). -/
def formReport (p : Port) (itemClass : Nat) (sel items : List Byte) (s : State) : State :=
  answerPiece p ⟨itemClass, sel, timeBytes (timeBase s) ++ items⟩ 0 s

/-- A READ with part number 1 or more (R200). Its selector is the image's when every selector byte is the same, those that the by-hour
mark of class 23 does not select among them. The model's choice, log entry 46. -/
def continueRead (p : Port) (itemClass : Nat) (sel : List Byte) (k : Nat) (s : State) : State :=
  match (s.pif.portOf p).image with
  | some image =>
    if image.itemClass = itemClass ∧ image.selector = sel then
      if k < partsOf image.report then answerPiece p image k s else place p .range (ubytes 1 0xB0) s
    else refuseRead p .state s
  | none => refuseRead p .state s

/-- A READ whose length is right. -/
def takeRead (p : Port) (fields : List Byte) (s : State) : State :=
  let itemClass := byteAt fields 0
  let k := byteAt fields 1
  let sel := fields.drop 2
  match select s itemClass sel with
  | .refused status => refuseRead p status s
  | .items items => if k = 0 then formReport p itemClass sel items s else continueRead p itemClass sel k s
  | .missingChannel =>
    if k = 0 then
      formReport p itemClass sel ((Config.missingChannelReport s.freeReads).take (Config.maxReport - 5))
        (s.withFreeReads (s.freeReads + 1))
    else continueRead p itemClass sel k s

/-- READ. -/
def execRead (port : Port) (fields : List Byte) (s : State) : Host.Outcome State Fault Refusal :=
  unlessHeld
    (fun s =>
      driveIdle port (fields.length + 2)
        (if fits 0xB0 fields then takeRead port fields s else refuseRead port .malformed s)) s

end Sys2Proof.Machine
end

