-- ==== Sys2Proof/Machine/Units.lean ====
section
/-! DEFINITION. The CPD's commands: SET-DUTY (R109), SET-UNIT (R110, R111), RESET-UNIT (R111), the changes of a feedback line (R97)
and the expiries of a unit's timer and start list (R100, R101, R103, R104). -/

namespace Sys2Proof.Machine

/-! ### SET-DUTY -/

/-- The settings a SET-DUTY carries, in the order of R109. -/
def readDuty (fields : List Byte) : DutySettings :=
  { maxStarts := byteAt fields 0, cooldown := num fields 1 2, startTimeout := num fields 3 2
    stopTimeout := num fields 5 2, startRetries := byteAt fields 7 }

/-- Are all duty settings in their ranges (R109)? -/
def DutySettings.valid (d : DutySettings) : Bool :=
  decide (1 ≤ d.maxStarts ∧ d.maxStarts ≤ 4) && decide (60 ≤ d.cooldown ∧ d.cooldown ≤ 3600)
    && decide (10 ≤ d.startTimeout ∧ d.startTimeout ≤ 600) && decide (10 ≤ d.stopTimeout ∧ d.stopTimeout ≤ 600)
    && decide (d.startRetries ≤ 2)

/-- SET-DUTY past the checks that every request has. -/
def setDuty (fields : List Byte) (s : State) : Answer :=
  if !(readDuty fields).valid then .refuse .range
  else .taken (dutyEvaluation (s.withCpd { s.cpd with settings := readDuty fields })) []

/-- SET_DUTY. -/
def execSetDuty (port : Port) (fields : List Byte) (s : State) : Host.Outcome State Fault Refusal :=
  serve (some .ops) 0x60 port fields (setDuty fields) s

/-! ### SET-UNIT and RESET-UNIT -/

/-- A FAULTED unit leaves FAULTED as `leave` gives: fault cause and attempt count cleared, condition UNIT Uk falls, the DIR
hears of it, and a duty evaluation follows (R106, R110, R111). -/
def leaveFaulted (u : Fin 4) (leave : UnitRecord → UnitRecord) (s : State) : State :=
  let left := alterUnit u (fun r => { leave r with cause := .noCause, attempts := 0 }) s
  dutyEvaluation (unitsReported s (report (condUnit u) false left))

/-- The service setting of a unit stored. -/
def storeService (u : Fin 4) (inService : Bool) (s : State) : State := alterUnit u (fun r => { r with inService := inService }) s

/-- SET-UNIT with OUT_OF_SERVICE, by the unit's state (R110). -/
def takeOutOfService (u : Fin 4) (s : State) : State :=
  let s := storeService u false s
  match (unitOf s u).state with
  | .out => s
  | .ready => changeUnit u enterOut false s
  | .cooldown => changeUnit u enterOut true s
  | .faulted => leaveFaulted u enterOut s
  | .starting | .running => changeUnit u (stopUnit (timeBase s) s.cpd.settings .out) true s
  | .stopping _ => alterUnit u (fun r => { r with state := .stopping .out }) s

/-- SET-UNIT with IN_SERVICE, by the unit's state (R111). -/
def returnToService (u : Fin 4) (s : State) : State :=
  let s := storeService u true s
  match (unitOf s u).state with
  | .out => changeUnit u (enterCooldown (timeBase s) s.cpd.settings) false s
  | .stopping .out => alterUnit u (fun r => { r with state := .stopping .cooldown }) s
  | _ => s

/-- SET-UNIT past the checks that every request has. -/
def setUnit (fields : List Byte) (s : State) : Answer :=
  match ordinal? 4 (byteAt fields 0), service? (byteAt fields 1) with
  | some u, some inService => .taken (if inService then returnToService u s else takeOutOfService u s) []
  | _, _ => .refuse .malformed

/-- SET_UNIT. -/
def execSetUnit (port : Port) (fields : List Byte) (s : State) : Host.Outcome State Fault Refusal :=
  serve (some .ops) 0x61 port fields (setUnit fields) s

/-- A FAULTED unit leaves FAULTED for COOLDOWN or OUT, by its service setting (R111). -/
def resetUnitFault (u : Fin 4) (s : State) : State :=
  leaveFaulted u (fun r => if r.inService then enterCooldown (timeBase s) s.cpd.settings r else enterOut r) s

/-- RESET-UNIT past the checks that every request has. -/
def resetUnit (fields : List Byte) (s : State) : Answer :=
  match ordinal? 4 (byteAt fields 0) with
  | none => .refuse .malformed
  | some u => if (unitOf s u).state ≠ .faulted then .refuse .state else .taken (resetUnitFault u s) []

/-- RESET_UNIT. -/
def execResetUnit (port : Port) (fields : List Byte) (s : State) : Host.Outcome State Fault Refusal :=
  serve (some .ops) 0x62 port fields (resetUnit fields) s

/-! ### The feedback line -/

/-- RUNNING (R99). -/
def enterRunning (r : UnitRecord) : UnitRecord :=
  { r with state := .running, deadline := none, attempts := 0, totalStarts := holdAdd maxCount32 r.totalStarts 1 }

/-- What a feedback that becomes true does to a COOLDOWN unit: a fault (R97), but for a start that a change of direction has cut at this
same instant, whose unit ends in STOPPING with its feedback true (R108). Log entry 43. -/
def cooldownFeedback (u : Fin 4) (recorded : State) : State :=
  if (unitOf recorded u).cutStart = some recorded.fine then
    changeUnit u (enterStopping (timeBase recorded) recorded.cpd.settings .cooldown) false recorded
  else faultUnit .unexpectedRun u recorded

/-- What a change of the feedback level does, by the table of R97 and the last paragraph of R108. -/
def takeFeedback (u : Fin 4) (level : Bool) (s : State) : State :=
  let recorded := alterUnit u (fun r => { r with feedback := level }) s
  match (unitOf s u).state, level with
  | .out, true => faultUnit .unexpectedRun u recorded
  | .cooldown, true => cooldownFeedback u recorded
  | .ready, true => faultUnit .unexpectedRun u recorded
  | .starting, true => changeUnit u enterRunning true recorded
  | .running, false => faultUnit .trip u recorded
  | .stopping d, false => changeUnit u (arrive (timeBase s) s.cpd.settings d) false recorded
  | _, _ => recorded

/-- FEEDBACK_CHANGE: the line has held the new level for 1 s (R97). -/
def execFeedbackChange (u : Fin 4) (level : Bool) (s : State) : Host.Outcome State Fault Refusal :=
  unlessHeld (onlyIf (decide ((unitOf s u).feedback ≠ level)) (takeFeedback u level)) s

/-! ### The timer and the start list -/

/-- Has a deadline been reached (R1)? -/
def reached (s : State) (deadline : Option Nat) : Bool :=
  match deadline with
  | some t => decide (t ≤ timeBase s)
  | none => false

/-- Is the unit in a state and past its timer deadline? -/
def unitTimer (s : State) (u : Fin 4) (p : UnitState → Bool) : Bool :=
  p (unitOf s u).state && reached s (unitOf s u).deadline

/-- A start has failed (R100). -/
def startFails (u : Fin 4) (s : State) : State :=
  if (unitOf s u).attempts ≤ s.cpd.settings.startRetries then
    changeUnit u (enterCooldown (timeBase s) s.cpd.settings) true s
  else faultUnit .startFailed u s

/-- START_TIMEOUT. -/
def execStartTimeout (u : Fin 4) (s : State) : Host.Outcome State Fault Refusal :=
  unlessHeld (onlyIf (unitTimer s u fun x => decide (x = .starting)) (startFails u)) s

/-- Is a state STOPPING? -/
def UnitState.isStopping : UnitState → Bool
  | .stopping _ => true
  | _ => false

/-- STOP_TIMEOUT (R101). -/
def execStopTimeout (u : Fin 4) (s : State) : Host.Outcome State Fault Refusal :=
  unlessHeld (onlyIf (unitTimer s u UnitState.isStopping) (faultUnit .stopFailed u)) s

/-- READY (R103). -/
def enterReady (r : UnitRecord) : UnitRecord := { r with state := .ready, deadline := none }

/-- The cooldown has ended (R103). -/
def cooldownEnds (u : Fin 4) (s : State) : State :=
  if (unitOf s u).feedback then faultUnit .unexpectedRun u s else changeUnit u enterReady true s

/-- COOLDOWN_EXPIRY. -/
def execCooldownExpiry (u : Fin 4) (s : State) : Host.Outcome State Fault Refusal :=
  unlessHeld (onlyIf (unitTimer s u fun x => decide (x = .cooldown)) (cooldownEnds u)) s

/-- Has the oldest entry of the start list reached its age of 3,600 s (R104)? -/
def startEntryExpired (s : State) (u : Fin 4) : Bool :=
  match (unitOf s u).startList with
  | t :: _ => decide (t + 36000 ≤ timeBase s)
  | [] => false

/-- The oldest entry leaves the start list, and a duty evaluation follows (R104). -/
def dropStartEntry (u : Fin 4) (s : State) : State :=
  dutyEvaluation (alterUnit u (fun r => { r with startList := r.startList.tail }) s)

/-- START_LIST_EXPIRY. -/
def execStartListExpiry (u : Fin 4) (s : State) : Host.Outcome State Fault Refusal :=
  unlessHeld (onlyIf (startEntryExpired s u) (dropStartEntry u)) s

end Sys2Proof.Machine
end

