-- ==== Sys2Proof/Machine/Trains.lean ====
section
/-! DEFINITION. The DSQ's commands: WRITE-STEP (R120), SELECT-BANK (R121), SET-TRAIN (R130), RESET-TRAIN (R131), the changes of a
position input (R117) and the expiries of a step's deadlines (R123 to R125). -/

namespace Sys2Proof.Machine

/-! ### WRITE-STEP -/

/-- Valves of one tower from three marks (R206). -/
def readPattern (fields : List Byte) (i : Nat) : Option Pattern := do
  let inlet ← mark fields i
  let outlet ← mark fields (i + 1)
  let regeneration ← mark fields (i + 2)
  return ⟨inlet, outlet, regeneration⟩

/-- The step record a WRITE-STEP carries, its input taken as I0 where it is out of range; none when a mark or an enumeration is
out of its list. A TIME step has no input and no sense (R118, R206). -/
def readStep (fields : List Byte) : Option StepRecord := do
  let onStream ← readPattern fields 3
  let offStream ← readPattern fields 6
  let heater ← mark fields 9
  let cooler ← mark fields 10
  let advance ← Advance.ofByte? (byteAt fields 11)
  let sense ← mark fields 13
  let longUnit ← mark fields 16
  let swap ← mark fields 17
  let adsorbExit ← mark fields 18
  return {
    onStream := onStream, offStream := offStream, heater := heater, cooler := cooler, advance := advance
    input := if advance = .time then 0 else (index? 4 (byteAt fields 12)).getD 0
    sense := decide (advance ≠ .time) && sense
    duration := num fields 14 2, longUnit := longUnit, swap := swap, adsorbExit := adsorbExit }

/-- Check 2 of R120. -/
def stepValid (fields : List Byte) (r : StepRecord) : Bool :=
  decide (1 ≤ r.duration ∧ r.duration ≤ 4095) && (decide (r.advance = .time) || decide (byteAt fields 12 ≤ 3))
    && !(r.heater && r.cooler)

/-- The entry a WRITE-STEP carries: EMPTY 0, WRITTEN 1, END 2; none when it is refused with MALFORMED (R118, R120). -/
def readEntry (fields : List Byte) : Option BankEntry :=
  match byteAt fields 2, readStep fields with
  | 0, some _ => some .empty
  | 1, some r => if stepValid fields r then some (.written r) else none
  | 2, some _ => some .endMark
  | _, _ => none

/-- Is a bank the selected or the pending bank of a train (R120 check 3)? -/
def bankInUse (s : State) (b : Fin 2) : Bool :=
  someFin fun t : Fin 2 => decide ((trainOf s t).bank = b) || decide ((trainOf s t).pendingBank = some b)

/-- WRITE-STEP past the checks that every request has. -/
def writeStep (fields : List Byte) (s : State) : Answer :=
  match ordinal? 2 (byteAt fields 0), index? 24 (byteAt fields 1), readEntry fields with
  | some b, some i, some entry =>
    if bankInUse s b then .refuse .inUse
    else .taken (s.withDsq { s.dsq with banks := alter s.dsq.banks b fun bank => put bank i entry }) []
  | _, _, _ => .refuse .malformed

/-- WRITE_STEP. -/
def execWriteStep (port : Port) (fields : List Byte) (s : State) : Host.Outcome State Fault Refusal :=
  serve (some .ops) 0x70 port fields (writeStep fields) s

/-! ### SELECT-BANK -/

/-- Is a requested bank selected at once (R121)? -/
def selectsAtOnce (s : State) (t : Train) : Bool := decide (t.state = .off) || !bankValid (selectedBank s t)

/-- A valid bank given to a train, by the table of R121. -/
def giveBank (t : Fin 2) (b : Fin 2) (s : State) : State :=
  if selectsAtOnce s (trainOf s t) then
    resumeTrain t (alterTrain t (fun r => { r with bank := b, pendingBank := none, stepIndex := 0 }) s)
  else alterTrain t (fun r => { r with pendingBank := if r.bank = b then none else some b }) s

/-- SELECT-BANK past the checks that every request has. -/
def selectBank (fields : List Byte) (s : State) : Answer :=
  match ordinal? 2 (byteAt fields 0), ordinal? 2 (byteAt fields 1) with
  | some t, some b => if !bankValid (nth s.dsq.banks b) then .refuse .state else .taken (giveBank t b s) []
  | _, _ => .refuse .malformed

/-- SELECT_BANK. -/
def execSelectBank (port : Port) (fields : List Byte) (s : State) : Host.Outcome State Fault Refusal :=
  serve (some .ops) 0x71 port fields (selectBank fields) s

/-! ### SET-TRAIN -/

/-- The settings of R115. -/
structure TrainSettings where
  enabled : Bool
  binding : Option Binding
  breakthrough : Int
  specLimit : Int
  hysteresis : Nat
  standby : Bool
  deriving DecidableEq, Repr

/-- The settings a SET-TRAIN carries. -/
def readTrainSettings (fields : List Byte) : Option TrainSettings := do
  let enabled ← mark fields 1
  let binding ← readBinding fields 2
  let standby ← mark fields 11
  return ⟨enabled, binding, snum fields 5 2, snum fields 7 2, num fields 9 2, standby⟩

/-- The settings stored in a train's record. -/
def Train.store (c : TrainSettings) (r : Train) : Train :=
  { r with
    enabled := c.enabled, binding := c.binding, breakthrough := c.breakthrough, specLimit := c.specLimit
    hysteresis := c.hysteresis, standby := c.standby }

/-- A train enters OFF: outputs off, no deadline and no park request, step 0, not off-spec (R130, R132). -/
def enterOff (r : Train) : Train := { r.noDeadlines with state := .off, parkRequest := false, stepIndex := 0, offSpec := false }

/-- What the change of the enabled setting makes of a train whose settings are stored (R130). -/
def followEnabled (r : Train) : Train :=
  match r.state, r.enabled with
  | .off, true => { r with state := .parked, stepIndex := 0 }
  | .faulted, _ => r
  | _, false => enterOff r
  | _, true => r

/-- The off-spec state after a SET-TRAIN: afresh after an enable or a changed binding, by the good-reading lines after a changed
limit or hysteresis on a GOOD channel (R130, R132). A FAULTED train that is enabled keeps its off-spec state: R130's row for it says
only that it stays FAULTED, where R132 lists `enable` among the fresh judgements. The model's choice, log entry 44. A request that
changes the limit or the hysteresis together with the binding, or with an enable from OFF, on a GOOD channel is judged afresh alone:
R132 names both a fresh judgement and the good-reading lines for it and does not say which stands, and the two differ where the
hysteresis is 0 and the dew point equals the limit. The model's choice, log entry 45. -/
def judgeSettings (old : Train) (t : Fin 2) (s : State) : State :=
  let new := trainOf s t
  if (old.state = .off ∧ new.state ≠ .off) ∨ old.binding ≠ new.binding then judgeFresh t s
  else if (old.specLimit ≠ new.specLimit ∨ old.hysteresis ≠ new.hysteresis)
      ∧ (boundChannel s new.binding).quality = .good then
    judgeReading t (boundChannel s new.binding).value s
  else s

/-- A SET-TRAIN that passes its checks (R130). -/
def storeTrain (t : Fin 2) (c : TrainSettings) (s : State) : State :=
  let old := trainOf s t
  let d := s.dir.direction
  let stored := alterTrain t
    (fun r =>
      let new := followEnabled (r.store c)
      followAllowed (runningAllowed d old) (runningAllowed d new) d s.dsq.banks (timeBase s) new) s
  let resumed := if old.state = .off then resumeTrain t stored else stored
  let judged := judgeSettings old t resumed
  reportAll [offSpecReport judged t] judged

/-- Is the named slot enabled with a channel that does not suit a dew point (R130 check 3)? -/
def dewPointInUse (s : State) (b : Option Binding) : Bool :=
  match b with
  | some b => decide ((slotOf s b.slot).state ≠ .disabled) && !dewPointFits (slotOf s b.slot) b.channel
  | none => false

/-- Checks 2 and 3 of R130, and the effect, once every mark is one. A bound slot outside S0 to S15 is a setting outside its range
(R115). -/
def configureTrain (fields : List Byte) (t : Fin 2) (s : State) : Answer :=
  match readTrainSettings fields with
  | none => .refuse .range
  | some c =>
    if channelOutOfRange c.binding ∨ 5000 < c.hysteresis then .refuse .range
    else if dewPointInUse s c.binding then .refuse .inUse
    else .taken (storeTrain t c s) []

/-- SET-TRAIN past the checks that every request has. -/
def setTrain (fields : List Byte) (s : State) : Answer :=
  match ordinal? 2 (byteAt fields 0), mark fields 1, mark fields 2, mark fields 11 with
  | some t, some _, some _, some _ => configureTrain fields t s
  | _, _, _, _ => .refuse .malformed

/-- SET_TRAIN. -/
def execSetTrain (port : Port) (fields : List Byte) (s : State) : Host.Outcome State Fault Refusal :=
  serve (some .ops) 0x72 port fields (setTrain fields) s

/-! ### RESET-TRAIN -/

/-- A FAULTED train leaves FAULTED for PARKED or OFF at step 0, and resumes if it may (R131). -/
def resetTrainFault (t : Fin 2) (s : State) : State :=
  let left := alterTrain t
    (fun r =>
      let r := { r with cause := .noCause, stepIndex := 0 }
      if r.enabled then { r with state := .parked } else enterOff r) s
  let resumed := resumeTrain t left
  reportAll [(condTrain t, false), offSpecReport resumed t] resumed

/-- RESET-TRAIN past the checks that every request has. -/
def resetTrain (fields : List Byte) (s : State) : Answer :=
  match ordinal? 2 (byteAt fields 0) with
  | none => .refuse .malformed
  | some t => if (trainOf s t).state ≠ .faulted then .refuse .state else .taken (resetTrainFault t s) []

/-- RESET_TRAIN. -/
def execResetTrain (port : Port) (fields : List Byte) (s : State) : Host.Outcome State Fault Refusal :=
  serve (some .ops) 0x73 port fields (resetTrain fields) s

/-! ### Position inputs and deadlines -/

/-- Does a change that is now taken of input `i` end the step: the train waits past the dwell for that input, which now stands
at its sense (R117, R124, R125)? -/
def inputEndsStep (s : State) (t : Fin 2) (i : Fin 4) : Bool :=
  match currentStep s.dsq.banks (trainOf s t) with
  | some r =>
    decide ((trainOf s t).state = .waitInput) && decide ((trainOf s t).dwellDeadline = none) && decide (r.input = i)
      && atSense (trainOf s t) r
  | none => false

/-- A changed level is recorded, and may end the step. -/
def takeInput (t : Fin 2) (i : Fin 4) (level : Bool) (s : State) : State :=
  let recorded := alterTrain t (fun r => { r with inputs := put r.inputs i level }) s
  if inputEndsStep recorded t i then endStepOf t recorded else recorded

/-- POSITION_INPUT_CHANGE: the line has held the new level for 0.5 s (R117). -/
def execPositionInputChange (t : Fin 2) (i : Fin 4) (level : Bool) (s : State) : Host.Outcome State Fault Refusal :=
  unlessHeld (onlyIf (decide (nth (trainOf s t).inputs i ≠ level)) (takeInput t i level)) s

/-- The time deadline of a step expires: a TIME step ends; a TIME_THEN_INPUT step ends when its input stands at sense, and
else waits with the stroke timeout (R123, R125). -/
def stepTimeEnds (t : Fin 2) (s : State) : State :=
  match currentStep s.dsq.banks (trainOf s t) with
  | some r =>
    if r.advance = .time ∨ atSense (trainOf s t) r then endStepOf t s
    else
      alterTrain t
        (fun x => { x with state := .waitInput, timeDeadline := none, strokeDeadline := some (timeBase s + 600) }) s
  | none => s

/-- STEP_TIME_EXPIRY. -/
def execStepTimeExpiry (t : Fin 2) (s : State) : Host.Outcome State Fault Refusal :=
  unlessHeld (onlyIf (decide ((trainOf s t).state = .running) && reached s (trainOf s t).timeDeadline) (stepTimeEnds t)) s

/-- The timeout of an INPUT step: it ends at sense, and faults the train short of it (R124). -/
def inputTimeoutEnds (t : Fin 2) (s : State) : State :=
  match currentStep s.dsq.banks (trainOf s t) with
  | some r => if atSense (trainOf s t) r then endStepOf t s else faultTrain .inputTimeout t s
  | none => s

/-- The dwell of an INPUT step: it ends at sense; where the timeout falls at the same instant the two are one test (R124). -/
def dwellEnds (t : Fin 2) (s : State) : State :=
  match currentStep s.dsq.banks (trainOf s t) with
  | some r =>
    if atSense (trainOf s t) r then endStepOf t s
    else if (trainOf s t).timeoutDeadline = (trainOf s t).dwellDeadline then inputTimeoutEnds t s
    else alterTrain t (fun x => { x with dwellDeadline := none }) s
  | none => s

/-- DWELL_EXPIRY. -/
def execDwellExpiry (t : Fin 2) (s : State) : Host.Outcome State Fault Refusal :=
  unlessHeld (onlyIf (decide ((trainOf s t).state = .waitInput) && reached s (trainOf s t).dwellDeadline) (dwellEnds t)) s

/-- INPUT_TIMEOUT. -/
def execInputTimeout (t : Fin 2) (s : State) : Host.Outcome State Fault Refusal :=
  unlessHeld (onlyIf (decide ((trainOf s t).state = .waitInput) && reached s (trainOf s t).timeoutDeadline) (inputTimeoutEnds t)) s

/-- STROKE_TIMEOUT: the stroke wait has run out (R125). -/
def execStrokeTimeout (t : Fin 2) (s : State) : Host.Outcome State Fault Refusal :=
  unlessHeld
    (onlyIf (decide ((trainOf s t).state = .waitInput) && reached s (trainOf s t).strokeDeadline)
      (faultTrain .strokeTimeout t)) s

end Sys2Proof.Machine
end

