-- ==== Sys2Proof/Machine/Resets.lean ====
section
/-! DEFINITION. Resets: retention (R201), being held in reset and the three kinds of reset (R202, R203), what every block takes at a
reset (R2, R38, R61, R77, R93, R113, R135, R204, R205), and the port transactions that are no request of the
summary (R193 to R196). -/

namespace Sys2Proof.Machine

/-! ### What each block takes at a reset -/

/-- The GDC (R2, R12): the last closed hour is kept. -/
def Clock.restart (c : Clock) : Clock := ⟨.unset, 0, 0, 0, c.lastClosed, false⟩

/-- A device slot (R38). -/
def Slot.restart (sl : Slot) : Slot :=
  { enabled := sl.enabled, settings := sl.settings, state := if sl.enabled then .init else .disabled, failed := 0, overruns := 0
    lastError := 0, recovered := false, firstReading := false, scheduled := none, channels := fill 4 Channel.initial
    thresholdOn := false }

/-- The FSU before its first visits are scheduled (R38). -/
def Fsu.restart (f : Fsu) : Fsu :=
  { f with slots := each f.slots Slot.restart, queue := [], engine := .idle, quietAt := 0 }

/-- A metering point (R44, R61). -/
def Point.restart (p : Point) : Point :=
  { p with forward := Direction.initial, reverse := Direction.initial, readingTime := none, gap := none, estimatedTenths := 0 }

/-- The MTU (R61). -/
def Mtu.restart (m : Mtu) : Mtu :=
  { m with
    points := each m.points Point.restart, flags := MeterFlags.clear, unclockedFlags := MeterFlags.clear
    latchedCv := m.cvDefault, startTime := none }

/-- The DIR (R93). -/
def Dir.restart (d : Dir) : Dir :=
  { d with caverns := each d.caverns fun c => { c with band := .normal }, direction := .standby }

/-- A unit's state after a reset (R113). -/
def UnitRecord.stateAfterReset (u : UnitRecord) : UnitState :=
  if u.state = .faulted then .faulted else if u.inService then .cooldown else .out

/-- A unit, its feedback line at `level` (R97, R113). -/
def UnitRecord.restart (d : DutySettings) (level : Bool) (u : UnitRecord) : UnitRecord :=
  { u with
    state := u.stateAfterReset, attempts := 0, startList := [], runTenths := 0, feedback := level, cutStart := none
    deadline := if u.stateAfterReset = .cooldown then some (d.cooldown * 10) else none }

/-- The CPD (R113). -/
def Cpd.restart (feedback : Vector Bool 4) (c : Cpd) : Cpd :=
  { c with
    units := tab fun u => (nth c.units u).restart c.settings (nth feedback u)
    demand := 0, shortfall := 0, reason := .noShortfall }

/-- A train's state after a reset, before it resumes (R135). -/
def Train.stateAfterReset (t : Train) : TrainState :=
  if t.state = .faulted then .faulted else if t.enabled then .parked else .off

/-- A train, its position inputs at `levels` (R117, R132, R135). -/
def Train.restart (levels : Vector Bool 4) (t : Train) : Train :=
  { t.noDeadlines with
    state := t.stateAfterReset, stepIndex := 0, parkRequest := false, inputs := levels, offSpec := decide (t.stateAfterReset ≠ .off)
    cycles := 0, earlyAdvances := 0, offSpecTenths := 0 }

/-- The DSQ before its trains resume (R135). -/
def Dsq.restart (inputs : Vector (Vector Bool 4) 2) (d : Dsq) : Dsq :=
  { d with trains := tab fun t => (nth d.trains t).restart (nth inputs t) }

/-- The conditions that their sources report Active at a reset (R77). -/
def activeAtReset (lost : Bool) (units : Vector UnitRecord 4) (trains : Vector Train 2) (n : Fin 56) : Bool :=
  decide (n = condClockUnset) || (lost && decide (n = condRetainedLost))
    || (someFin fun u : Fin 4 => decide (n = condUnit u) && decide ((nth units u).state = .faulted))
    || (someFin fun t : Fin 2 =>
          (decide (n = condTrain t) && decide ((nth trains t).state = .faulted))
            || (decide (n = condOffSpec t) && (nth trains t).offSpec))

/-- A condition after a reset: inactive and not pending, then risen when its source reports it Active (R77). -/
def Condition.restart (active : Bool) (c : Condition) : Condition :=
  let quiet : Condition := ⟨c.level, false, false, false⟩
  if active then quiet.rise else quiet

/-- The CDT (R77): the rises, the event flags, the class and the lead condition. -/
def Cdt.restart (active : Fin 56 → Bool) (c : Cdt) : Cdt :=
  Cdt.formAgain { c with
    conditions := tab fun n => (nth c.conditions n).restart (active n)
    ops := { c.ops with flags := fill 4 false }
    com := { c.com with flags := fill 4 false } }

/-- The PIF (R204, R205), out of reset. -/
def Pif.restart (kind : ResetKind) (lost : Bool) (f : Pif) : Pif :=
  { ops := PortState.initial, com := PortState.initial, resetKind := kind, retentionLost := lost
    resetCount := if lost then 1 else holdAdd 65535 f.resetCount 1, powerLost := false, pinLow := false, retainedIntact := true }

/-! ### A reset -/

/-- What the test of retained memory leaves: every retained item kept, or every one at its value after retention loss
(R201). -/
def retained (s : State) : State :=
  if s.pif.retainedIntact then s else { State.reset with freeReads := s.freeReads, pending := s.pending }

/-- Every block's reset values, from what retained memory holds. -/
def restartBlocks (kind : ResetKind) (lines : Lines) (lost : Bool) (s : State) : State :=
  let cpd := s.cpd.restart lines.feedback
  let dsq := s.dsq.restart lines.inputs
  { s with
    fine := 0, clock := s.clock.restart, fsu := s.fsu.restart, mtu := s.mtu.restart
    cdt := s.cdt.restart (activeAtReset lost cpd.units dsq.trains), dir := s.dir.restart, cpd := cpd, dsq := dsq
    pif := s.pif.restart kind lost }

/-- Every enabled slot's first visit is scheduled at elapsed time 0 (R38). -/
def scheduleFirst (s : State) : State :=
  overFin 16 (fun n s => if (slotOf s n).enabled then scheduleVisit n 0 s else s) s

/-- The one re-firm of a reset that leaves a class above 0 (R77). It follows the clearing of the event flags (R77 step 1), and so leaves
Commercial REFIRMED set where it marks an hour (R74, R171), though R74 and the table of R77 say that the flags are all clear after a
reset: the model's choice, log entry 42. -/
def refirmAtReset (s : State) : State := if 0 < s.cdt.derateClass then refirm s else s

/-- A reset of the whole part (R201, R202): retained memory tested, every block's reset values, the first visits, the re-firm,
and the trains that resume (R135). `lines` are the levels of the discrete inputs at the reset. -/
def takeReset (kind : ResetKind) (lines : Lines) (s : State) : State :=
  overFin 2 resumeTrain
    (refirmAtReset (scheduleFirst (restartBlocks kind lines (!s.pif.retainedIntact) (retained s))))

/-! ### The commands -/

/-- RESET_PART (R203). -/
def execResetPart (port : Port) (fields : List Byte) (lines : Lines) (s : State) : Host.Outcome State Fault Refusal :=
  serve (some .ops) 0xB1 port fields (fun s => .taken (takeReset .command lines s) []) s

/-- The part enters, or stays in, being held in reset (R201, R202). Retained memory is lost with main power when the retention
supply has failed. -/
def hold (cause : HoldCause) (s : State) : State :=
  match cause with
  | .powerLost failed =>
    s.withPif { s.pif with powerLost := true, retainedIntact := s.pif.retainedIntact && !failed }
  | .pinLow => s.withPif { s.pif with pinLow := true }

/-- HELD_IN_RESET (R202). -/
def execHeldInReset (cause : HoldCause) (s : State) : Host.Outcome State Fault Refusal := .next (hold cause s)

/-- POWER_ON (R202): main power is steady, or the pin is released after power rose with it held. -/
def execPowerOn (lines : Lines) (s : State) : Host.Outcome State Fault Refusal := .next (takeReset .powerOn lines s)

/-- The reset pin is released after `lowMicros` microseconds: a reset when it was low for at least 10 µs and main power is
present, and else the end of the pin's hold alone (R202). -/
def releasePin (lowMicros : Nat) (lines : Lines) (s : State) : State :=
  if s.pif.powerLost ∨ lowMicros < 10 then s.withPif { s.pif with pinLow := false } else takeReset .pin lines s

/-- PIN (R202). -/
def execPin (lowMicros : Nat) (lines : Lines) (s : State) : Host.Outcome State Fault Refusal :=
  .next (releasePin lowMicros lines s)

end Sys2Proof.Machine
end

