-- ==== Sys2Proof/Machine/Transactions.lean ====
section
/-! DEFINITION. The port transactions that are no request of the summary: frames refused before a request is known, ignored
transactions, and collects (R193 to R196). -/

namespace Sys2Proof.Machine

/-- How a frame that is no request of the summary is refused: a wrong length or an unknown field layout is MALFORMED, an unknown
code UNKNOWN; a code of 0 or a frame that a request's layout fits is another command (R193 to R195). -/
def frameRefusal (code length : Byte) (fields : List Byte) : Option Status :=
  if code = 0 then none
  else if Config.maxFields < length.toNat ∨ fields.length ≠ length.toNat then some .malformed
  else if layoutOf code.toNat fields = .noRequest then some .unknown
  else if !fits code.toNat fields then some .malformed
  else none

/-- UNKNOWN_REQUEST (R194, R195). -/
def execUnknownRequest (port : Port) (code length : Byte) (fields : List Byte) (s : State) : Host.Outcome State Fault Refusal :=
  unlessHeld
    (fun s =>
      match frameRefusal code length fields with
      | some status => driveIdle port (fields.length + 2) (conclude port code.toNat s (.refuse status))
      | none => s) s

/-- Fewer than two bytes, and no collect, in a transaction that spans no reset: the port drives 0xFF throughout (R193, R194). -/
def isShortTransaction (received : List Byte) (spansReset : Bool) : Bool :=
  !spansReset && decide (received.length < 2) && decide (received.head? ≠ some 0)

/-- IGNORED_TRANSACTION: nothing is taken and no response is placed (R193, R194). -/
def execIgnoredTransaction (port : Port) (received : List Byte) (spansReset : Bool) (s : State) : Host.Outcome State Fault Refusal :=
  unlessHeld (onlyIf (isShortTransaction received spansReset) (driveIdle port received.length)) s

/-- What a port has to shift out after the first byte: its response, or the empty marker and a length of 0 (R196). -/
def collectable (response : Option Response) : List Byte :=
  match response with
  | some r => r.frame
  | none => [0xFF, 0x00]

/-- The bytes shifted out in a collect of `bytes` bytes: 0xFF, the response, then 0xFF (R196). -/
def shiftedOut (response : Option Response) (bytes : Nat) : List Byte :=
  (0xFF :: collectable response ++ List.replicate bytes 0xFF).take bytes

/-- Is a collect of `bytes` bytes complete (R196)? -/
def completeCollect (response : Option Response) (bytes : Nat) : Bool := decide (1 + (collectable response).length ≤ bytes)

/-- A collect: a complete one empties the buffer, a short one leaves it HELD (R196). -/
def PortState.collect (bytes : Nat) (x : PortState) : PortState :=
  { x with
    dataOut := shiftedOut x.response bytes
    response := if completeCollect x.response bytes then none else x.response }

/-- COLLECT (R196); a transaction without a whole byte is none (R193). -/
def execCollect (port : Port) (bytes : Nat) (s : State) : Host.Outcome State Fault Refusal :=
  unlessHeld (onlyIf (decide (1 ≤ bytes)) (alterPort port (PortState.collect bytes))) s

end Sys2Proof.Machine
end

