-- ==== Sys2Proof/Machine/Dispatch.lean ====
section
/-! DEFINITION. The one dispatch from a command to its meaning. -/

namespace Sys2Proof.Machine

/-- The effect of a command on everything but the queue of waiting commands. -/
def exec (i : Instr) (s : State) : Host.Outcome State Fault Refusal :=
  match i with
  | .setClock port fields => Sys2Proof.Machine.execSetClock port fields s
  | .trimClock port fields => Sys2Proof.Machine.execTrimClock port fields s
  | .setFieldLine port fields => Sys2Proof.Machine.execSetFieldLine port fields s
  | .setSlot port fields => Sys2Proof.Machine.execSetSlot port fields s
  | .enableSlot port fields => Sys2Proof.Machine.execEnableSlot port fields s
  | .disableSlot port fields => Sys2Proof.Machine.execDisableSlot port fields s
  | .writeScript port fields => Sys2Proof.Machine.execWriteScript port fields s
  | .setPoint port fields => Sys2Proof.Machine.execSetPoint port fields s
  | .setBeta port fields => Sys2Proof.Machine.execSetBeta port fields s
  | .setCv port fields => Sys2Proof.Machine.execSetCv port fields s
  | .ackConditions port fields => Sys2Proof.Machine.execAckConditions port fields s
  | .setDerateTable port fields => Sys2Proof.Machine.execSetDerateTable port fields s
  | .setAlert port fields => Sys2Proof.Machine.execSetAlert port fields s
  | .readEvents port fields => Sys2Proof.Machine.execReadEvents port fields s
  | .setCavern port fields => Sys2Proof.Machine.execSetCavern port fields s
  | .setCavernInventory port fields => Sys2Proof.Machine.execSetCavernInventory port fields s
  | .setSite port fields => Sys2Proof.Machine.execSetSite port fields s
  | .setDuty port fields => Sys2Proof.Machine.execSetDuty port fields s
  | .setUnit port fields => Sys2Proof.Machine.execSetUnit port fields s
  | .resetUnit port fields => Sys2Proof.Machine.execResetUnit port fields s
  | .writeStep port fields => Sys2Proof.Machine.execWriteStep port fields s
  | .selectBank port fields => Sys2Proof.Machine.execSelectBank port fields s
  | .setTrain port fields => Sys2Proof.Machine.execSetTrain port fields s
  | .resetTrain port fields => Sys2Proof.Machine.execResetTrain port fields s
  | .openAccount port fields => Sys2Proof.Machine.execOpenAccount port fields s
  | .setRights port fields => Sys2Proof.Machine.execSetRights port fields s
  | .closeAccount port fields => Sys2Proof.Machine.execCloseAccount port fields s
  | .transfer port fields => Sys2Proof.Machine.execTransfer port fields s
  | .settleSuspense port fields => Sys2Proof.Machine.execSettleSuspense port fields s
  | .nominate port fields => Sys2Proof.Machine.execNominate port fields s
  | .nominateDay port fields => Sys2Proof.Machine.execNominateDay port fields s
  | .nominateRest port fields => Sys2Proof.Machine.execNominateRest port fields s
  | .cancelNomination port fields => Sys2Proof.Machine.execCancelNomination port fields s
  | .setLead port fields => Sys2Proof.Machine.execSetLead port fields s
  | .setRatchet port fields => Sys2Proof.Machine.execSetRatchet port fields s
  | .setAllocation port fields => Sys2Proof.Machine.execSetAllocation port fields s
  | .read port fields => Sys2Proof.Machine.execRead port fields s
  | .resetPart port fields lines => Sys2Proof.Machine.execResetPart port fields lines s
  | .unknownRequest port code length fields => Sys2Proof.Machine.execUnknownRequest port code length fields s
  | .ignoredTransaction port received spansReset => Sys2Proof.Machine.execIgnoredTransaction port received spansReset s
  | .collect port bytes => Sys2Proof.Machine.execCollect port bytes s
  | .heldInReset cause => Sys2Proof.Machine.execHeldInReset cause s
  | .powerOn lines => Sys2Proof.Machine.execPowerOn lines s
  | .pin lowMicros lines => Sys2Proof.Machine.execPin lowMicros lines s
  | .timeBaseStep => Sys2Proof.Machine.execTimeBaseStep s
  | .hourBoundary => Sys2Proof.Machine.execHourBoundary s
  | .firmPoint => Sys2Proof.Machine.execFirmPoint s
  | .lineEngineTake => Sys2Proof.Machine.execLineEngineTake s
  | .requestTransmitted => Sys2Proof.Machine.execRequestTransmitted s
  | .dataReply received => Sys2Proof.Machine.execDataReply received s
  | .doneReply received => Sys2Proof.Machine.execDoneReply received s
  | .errorReply received => Sys2Proof.Machine.execErrorReply received s
  | .badReplyFrame received => Sys2Proof.Machine.execBadReplyFrame received s
  | .replyWindowExpiry => Sys2Proof.Machine.execReplyWindowExpiry s
  | .changeoverMinimumExpiry => Sys2Proof.Machine.execChangeoverMinimumExpiry s
  | .changeoverLimitExpiry => Sys2Proof.Machine.execChangeoverLimitExpiry s
  | .feedbackChange unit level => Sys2Proof.Machine.execFeedbackChange unit level s
  | .startTimeout unit => Sys2Proof.Machine.execStartTimeout unit s
  | .stopTimeout unit => Sys2Proof.Machine.execStopTimeout unit s
  | .cooldownExpiry unit => Sys2Proof.Machine.execCooldownExpiry unit s
  | .startListExpiry unit => Sys2Proof.Machine.execStartListExpiry unit s
  | .positionInputChange train input level => Sys2Proof.Machine.execPositionInputChange train input level s
  | .stepTimeExpiry train => Sys2Proof.Machine.execStepTimeExpiry train s
  | .dwellExpiry train => Sys2Proof.Machine.execDwellExpiry train s
  | .inputTimeout train => Sys2Proof.Machine.execInputTimeout train s
  | .strokeTimeout train => Sys2Proof.Machine.execStrokeTimeout train s

end Sys2Proof.Machine
end

