-- ==== Sys2Proof/Safety.lean ====
section
/-! DEFINITION. What holds of the part at every instant, in the terms the statements use: properties of a state that the rules of
the manual state of the part at rest between two events, which every step must keep. -/

namespace Sys2Proof.Safety

open Sys2Proof.Machine

/-! ### What an event leaves alone -/

/-- The parts of the state, one for each block of the block overview (00_scope.md), the fine count of R1, and the model's own two
fields. -/
inductive Block
  | fine
  | clock
  | fsu
  | mtu
  | cdt
  | dir
  | cpd
  | dsq
  | act
  | nfu
  | cau
  | pif
  | freeReads
  | pending
  deriving DecidableEq, Repr

/-- Do two states agree on a block? -/
def agree (b : Block) (s t : State) : Prop :=
  match b with
  | .fine => s.fine = t.fine
  | .clock => s.clock = t.clock
  | .fsu => s.fsu = t.fsu
  | .mtu => s.mtu = t.mtu
  | .cdt => s.cdt = t.cdt
  | .dir => s.dir = t.dir
  | .cpd => s.cpd = t.cpd
  | .dsq => s.dsq = t.dsq
  | .act => s.act = t.act
  | .nfu => s.nfu = t.nfu
  | .cau => s.cau = t.cau
  | .pif => s.pif = t.pif
  | .freeReads => s.freeReads = t.freeReads
  | .pending => s.pending = t.pending

/-- Nothing outside the blocks named is changed from the first state to the second. -/
def ChangesOnly (blocks : List Block) (s t : State) : Prop := ∀ b : Block, b ∉ blocks → agree b s t

/-! ### What a request leaves at its port -/

/-- The part after a request frame of `bytes` bytes on port `p` that ends in a response with a status and fields: the response is
in the buffer, the read image is discarded, and 0xFF was shifted out throughout (R193, R196, R200). -/
def answered (p : Port) (bytes : Nat) (status : Status) (fields : List Byte) (s : State) : State :=
  alterPort p (fun _ => ⟨some ⟨status, fields⟩, none, List.replicate bytes 0xFF⟩) s

/-- A request that carries `n` field bytes is taken, and its response carries the echoed code alone (R197). -/
def accepted (p : Port) (code n : Nat) (s : State) : State := answered p (n + 2) .ok (ubytes 1 code) s

/-- The port that owns a request, by its code; none for a request that either port may send, and for no request (R198). -/
def ownedBy (code : Nat) : Option Port :=
  if code ∈ [0x10, 0x11, 0x20, 0x21, 0x22, 0x23, 0x24, 0x30, 0x31, 0x32, 0x41, 0x50, 0x51, 0x52, 0x60, 0x61, 0x62, 0x70, 0x71, 0x72,
      0x73, 0xB1] then some .ops
  else if code ∈ [0x80, 0x81, 0x82, 0x83, 0x84, 0x90, 0x91, 0x92, 0x93, 0x94, 0x95, 0xA0] then some .com
  else none

/-- Does a request name a record that there is not, by the bytes in which it carries record numbers: device slots, shipper slots
and bank entries from 0, points, caverns, units, trains and banks from 1, and each condition of an ACK-CONDITIONS (R66, R197)? -/
def namesNone (code : Nat) (fields : List Byte) : Bool :=
  match code with
  | 0x21 | 0x22 | 0x23 | 0x80 | 0x81 | 0x82 | 0x84 | 0x90 | 0x91 | 0x92 | 0x93 => decide (16 ≤ byteAt fields 0)
  | 0x83 => decide (16 ≤ byteAt fields 0) || decide (16 ≤ byteAt fields 1)
  | 0x30 => decide (byteAt fields 0 = 0) || decide (7 < byteAt fields 0)
  | 0x50 | 0x51 | 0x61 | 0x62 => decide (byteAt fields 0 = 0) || decide (4 < byteAt fields 0)
  | 0x70 => decide (byteAt fields 0 = 0) || decide (2 < byteAt fields 0) || decide (24 ≤ byteAt fields 1)
  | 0x71 =>
    decide (byteAt fields 0 = 0) || decide (2 < byteAt fields 0) || decide (byteAt fields 1 = 0) || decide (2 < byteAt fields 1)
  | 0x72 | 0x73 => decide (byteAt fields 0 = 0) || decide (2 < byteAt fields 0)
  | 0x40 => (List.range (byteAt fields 0)).any fun j => decide (56 ≤ byteAt fields (1 + 3 * j))
  | _ => false

/-- Does a request carry, in a byte of an enumeration, a mark or a presence, a value outside that byte's list (R206): the abandon mark of
SET-CLOCK; formats, swap flags, poll mode, presence and zone of SET-SLOT; the presences of SET-POINT, SET-CV and ACK-CONDITIONS; the mask
of SET-ALERT; the service settings; kind, marks and advance of WRITE-STEP; enabled, presence and standby of SET-TRAIN; the days of the
nominations; table and mode of SET-RATCHET and SET-ALLOCATION; the marks and rows of a READ selector (log entry 17)? -/
def badByte (code : Nat) (fields : List Byte) : Bool :=
  let above (limit i : Nat) : Bool := decide (limit < byteAt fields i)
  match code with
  | 0x10 => above 1 6
  | 0x21 =>
    ((List.range (byteAt fields 5)).any fun j => above 3 (7 + 3 * j) || above 1 (8 + 3 * j))
      || above 2 (6 + 3 * byteAt fields 5) || above 1 (18 + 3 * byteAt fields 5) || above 1 (28 + 3 * byteAt fields 5)
  | 0x30 | 0x50 | 0x61 | 0x90 | 0x91 | 0x93 => above 1 1
  | 0x32 => above 1 2
  | 0x40 => (List.range (byteAt fields 0)).any fun j => above 1 (2 + 3 * j)
  | 0x42 => [1, 2, 3, 4].any (above 1)
  | 0x70 => above 2 2 || above 2 11 || [3, 4, 5, 6, 7, 8, 9, 10, 13, 16, 17, 18].any (above 1)
  | 0x72 => [1, 2, 11].any (above 1)
  | 0x95 | 0xA0 => above 1 0
  | 0xB0 =>
    match byteAt fields 0 with
    | 18 | 23 => above 1 2
    | 20 => above 2 3
    | 21 => above 2 2
    | _ => false
  | _ => false

/-! ### The field line's check (R14) -/

/-- `n` data bits divided into a remainder of 16 bits, most significant bit first, by the polynomial 0x1021: shift, and subtract the
polynomial when a 1 leaves (R14). -/
def crcDivided : Nat → Nat → Nat
  | 0, c => c
  | n + 1, c => crcDivided n (if 32768 ≤ c then (2 * c % 65536) ^^^ 0x1021 else 2 * c)

/-! ### What a report spells (R206) -/

/-- The byte of a mark. -/
def markOf (b : Bool) : Byte := if b then 1 else 0

/-- A quantity that may be absent: a presence byte, then 4 bytes, signed. -/
def quantityOf (q : Option Int) : List Byte :=
  match q with
  | some z => 1 :: sbytes 4 z
  | none => [0, 0, 0, 0, 0]

/-- A run of `count` entries of `width` bytes each, one after the other, with no count byte before them. -/
def spellsRun (items : List Byte) (width count : Nat) (entry : Nat → List Byte) : Prop :=
  items.length = width * count ∧ ∀ i, i < count → (items.drop (width * i)).take width = entry i

/-- An account in the items of R152: slot, state in the order of R137, shipper code, S, Ri and Rw, the inventory, both reserves, F and
H. -/
def accountReport (s : State) (a : Fin 16) : List Byte :=
  BitVec.ofNat 8 a.val
    :: (match (accountOf s a).state with
        | .vacant => 0
        | .active => 1
        | .closing => 2)
    :: ((match (accountOf s a).code with
          | some c => 1 :: ubytes 2 c
          | none => [0, 0, 0])
      ++ ubytes 4 (accountOf s a).space ++ ubytes 4 (accountOf s a).injectionRight ++ ubytes 4 (accountOf s a).withdrawalRight
      ++ sbytes 4 (accountOf s a).inventory ++ sbytes 4 (injectionReserve s a) ++ sbytes 4 (withdrawalReserve s a)
      ++ sbytes 4 (freeInventory s a) ++ sbytes 4 (freeSpace s a))

/-- An hour entry in the items of R153. -/
def entryReport (e : HourEntry) : List Byte :=
  quantityOf e.requested ++ quantityOf e.confirmed ++ quantityOf e.allocated ++ quantityOf e.fuel
    ++ [markOf e.reduced, markOf e.curtailed, markOf e.refirmed]

/-- A site hour in the items of R154, its direction in their order. -/
def siteHourReport (h : SiteHour) : List Byte :=
  markOf h.firmed :: (ubytes 4 h.injectionCapacity ++ ubytes 4 h.withdrawalCapacity ++ sbytes 4 h.net)
    ++ [match h.direction with
        | .injecting => 0
        | .withdrawing => 1
        | .standby => 2,
      markOf h.curtailed, markOf h.refirmed, markOf h.closed]

/-- An hour record in the items of R185, and its flags in their order. -/
def recordReport (r : HourRecord) : List Byte :=
  ubytes 2 r.hour.day ++ ubytes 1 r.hour.hour ++ ubytes 4 r.energyIn ++ ubytes 4 r.energyOut ++ ubytes 4 r.energyFuel ++ sbytes 4 r.net
    ++ sbytes 4 (nth r.cavernNets 0) ++ sbytes 4 (nth r.cavernNets 1) ++ sbytes 4 (nth r.cavernNets 2) ++ sbytes 4 (nth r.cavernNets 3)
    ++ sbytes 4 r.difference ++ ubytes 2 r.cv ++ [if r.mode = .asNominated then 0 else 1]
    ++ sbytes 4 r.suspensePosting ++ sbytes 4 r.fuelToSuspense ++ ubytes 2 r.estimatedSeconds
    ++ ubytes 2 (nth r.offSpecSeconds 0) ++ ubytes 2 (nth r.offSpecSeconds 1)
    ++ [r.flags.estimated, r.flags.cvHeld, r.flags.clamped, r.flags.rebased, r.flags.restart, r.offSpec, r.curtailed, r.refirmed,
        r.trimmed, r.outage].map markOf

/-! ### Ranges of settings -/

/-- The lowest value of a channel format (R32). -/
def formatLow : Format → Int
  | .s16 => -32768
  | _ => 0

/-- The highest value of a channel format (R32). -/
def formatHigh : Format → Int
  | .u16 => 65535
  | .s16 => 32767
  | .u8 => 255
  | .u32 => 4294967295

/-- The settings of a slot pass check 2 of R20: each in its range of R19, every channel within the read block, the script within the
store, and a threshold on a channel the slot has, with limits of that channel's format, the lower below the upper. -/
abbrev slotSettingsInRange (c : SlotSettings) : Prop :=
  (1 ≤ c.address ∧ c.address ≤ 126) ∧ (1 ≤ c.wordCount ∧ c.wordCount ≤ 8) ∧ (1 ≤ c.channels.length ∧ c.channels.length ≤ 4)
    ∧ (∀ x ∈ c.channels, x.offset + (if x.format = .u32 then 2 else 1) ≤ c.wordCount)
    ∧ c.readyBit ≤ 15 ∧ (1 ≤ c.readyLimit ∧ c.readyLimit ≤ 30) ∧ (1 ≤ c.period ∧ c.period ≤ 3600) ∧ c.retries ≤ 3
    ∧ (1 ≤ c.absentLimit ∧ c.absentLimit ≤ 8) ∧ c.scriptStart ≤ 63 ∧ c.scriptCount ≤ 8 ∧ c.scriptStart + c.scriptCount ≤ 64
    ∧ ∀ th ∈ c.threshold, ∃ x ∈ c.channels[th.channel]?,
        formatLow x.format ≤ th.lower ∧ th.lower < th.upper ∧ th.upper ≤ formatHigh x.format

/-- The settings of a cavern lie in their ranges of R79, and its two thresholds leave room for the hysteresis (R79, R80). -/
abbrev cavernInRange (pmin pmax hysteresis injection withdrawal : Nat) : Prop :=
  pmin ≤ 25000 ∧ pmax ≤ 25000 ∧ hysteresis ≤ 12500 ∧ injection ≤ 100000000 ∧ withdrawal ≤ 100000000 ∧ pmin < pmax
    ∧ (pmin : Int) + hysteresis ≤ (pmax : Int) - hysteresis

/-- The site settings lie in their ranges, with the changeover minimum not above the limit (R87). -/
abbrev siteInRange (c : SiteSettings) : Prop :=
  c.injectionCapacity ≤ 100000000 ∧ c.withdrawalCapacity ≤ 100000000 ∧ (1 ≤ c.quietThreshold ∧ c.quietThreshold ≤ 10000000)
    ∧ c.changeoverMinimum ≤ 3600 ∧ (60 ≤ c.changeoverLimit ∧ c.changeoverLimit ≤ 7200)
    ∧ (1 ≤ c.unitRate ∧ c.unitRate ≤ 100000000) ∧ c.trainRate ≤ 100000000 ∧ c.tolerance ≤ 100000000
    ∧ c.changeoverMinimum ≤ c.changeoverLimit

/-- The duty settings lie in their ranges (R109). -/
abbrev dutyInRange (d : DutySettings) : Prop :=
  (1 ≤ d.maxStarts ∧ d.maxStarts ≤ 4) ∧ (60 ≤ d.cooldown ∧ d.cooldown ≤ 3600) ∧ (10 ≤ d.startTimeout ∧ d.startTimeout ≤ 600)
    ∧ (10 ≤ d.stopTimeout ∧ d.stopTimeout ≤ 600) ∧ d.startRetries ≤ 2

/-- A derate table holds percentages that never rise as the class rises (R71). -/
abbrev derateInRange (table : Vector Percent 7) : Prop :=
  ∀ i : Fin 7, (nth table i).injection ≤ 100 ∧ (nth table i).withdrawal ≤ 100
    ∧ ∀ j : Fin 7, i < j → (nth table j).injection ≤ (nth table i).injection ∧ (nth table j).withdrawal ≤ (nth table i).withdrawal

/-! ### What a binding asks of a slot (R37) -/

/-- The slot has channel `c`, in one of the formats. -/
abbrev hasChannel (sl : Slot) (c : Nat) (formats : List Format) : Prop := ∃ x ∈ sl.settings.channels[c]?, x.format ∈ formats

/-- The slot's channels suit point `k`: counters U16 or U32, pressure U16 and temperature S16; M3 has no reverse counter (R37, R40). -/
abbrev suitsPoint (k : Fin 7) (sl : Slot) : Prop :=
  hasChannel sl 0 [.u16, .u32]
    ∧ if k = 2 then hasChannel sl 1 [.u16] ∧ hasChannel sl 2 [.s16]
      else hasChannel sl 1 [.u16, .u32] ∧ hasChannel sl 2 [.u16] ∧ hasChannel sl 3 [.s16]

/-- The slot's channels suit every binding to slot `n` (R37). -/
abbrev suitsBindings (s : State) (n : Fin 16) : Prop :=
  (∀ k, (pointOf s k).slot = some n → suitsPoint k (slotOf s n))
    ∧ (∀ d, ∀ b ∈ (trainOf s d).binding, b.slot = n → hasChannel (slotOf s n) b.channel [.s16])
    ∧ ∀ b ∈ s.mtu.cvSource, b.slot = n → hasChannel (slotOf s n) b.channel [.u16]

/-- Slot `n` is bound: a metering point, a dew point or the CV source names it (R37). -/
abbrev isBound (s : State) (n : Fin 16) : Prop :=
  (∃ k, (pointOf s k).slot = some n) ∨ (∃ d, ∃ b ∈ (trainOf s d).binding, b.slot = n) ∨ ∃ b ∈ s.mtu.cvSource, b.slot = n

/-- Point `k` may take a slot: it serves no other point, and its channels suit unless it is DISABLED (R42 checks 3 and 4). -/
abbrev pointMayTake (s : State) (k : Fin 7) (slot : Option (Fin 16)) : Prop :=
  ∀ n ∈ slot, (∀ j, j ≠ k → (pointOf s j).slot ≠ some n) ∧ ((slotOf s n).state = .disabled ∨ suitsPoint k (slotOf s n))

/-- A channel binding may be taken: the slot is DISABLED, or has the channel in the format asked (R43, R130 check 3). -/
abbrev mayBind (s : State) (format : Format) (binding : Option Binding) : Prop :=
  ∀ b ∈ binding, (slotOf s b.slot).state = .disabled ∨ hasChannel (slotOf s b.slot) b.channel [format]

/-! ### What holds at every instant -/

/-- The derate class is the highest level among Active conditions, and the lead condition the lowest numbered Active
condition of that level (R69). -/
def ClassFormed (s : State) : Prop :=
  s.cdt.derateClass = formClass s.cdt.conditions ∧ s.cdt.lead = formLead s.cdt.conditions

/-- A number is one of the 48-bit signed totals of R139. -/
def isTotal (z : Int) : Prop := minTotal ≤ z ∧ z ≤ maxTotal

/-- The books: a VACANT slot has no inventory (R138), and the book inventory is the sum of all inventories and the suspense
balance, both totals of 48 bits (R139). -/
def BooksBalance (s : State) : Prop :=
  (∀ a : Fin 16, (accountOf s a).state = .vacant → (accountOf s a).inventory = 0)
    ∧ isTotal s.act.book ∧ isTotal s.act.suspense
    ∧ (s.act.book - s.act.suspense - sumInt fun a : Fin 16 => (accountOf s a).inventory) % (2 ^ 48 : Int) = 0

/-- No two slots that are not VACANT carry the same shipper code (R141), and each carries one. -/
def CodesDistinct (s : State) : Prop :=
  (∀ a : Fin 16, (accountOf s a).held = true → (accountOf s a).code ≠ none)
    ∧ ∀ a b : Fin 16, (accountOf s a).held = true → (accountOf s b).held = true → (accountOf s a).code = (accountOf s b).code → a = b

/-- What the rows hold: an hour that is not firmed, and a VACANT slot, have no confirmation, and only hours before the one after
the last closed hour are closed (R138, R153, R154, R155). -/
def RowsKept (s : State) : Prop :=
  ∀ p : Fin 72,
    ((hourOf s p).site.firmed = false → ∀ a : Fin 16, (entryOf s p a).confirmed = none)
      ∧ (∀ a : Fin 16, (accountOf s a).state = .vacant → (entryOf s p a).confirmed = none)
      ∧ ((hourOf s p).site.closed = true → ∃ h, s.clock.lastClosed = some h ∧ p.val < (todayPosition h.next.hour).val)

/-- The two laws of R140 for every ACTIVE or CLOSING shipper: the inventory covers its firmed, unclosed withdrawal confirmations, and
with its firmed, unclosed injection confirmations stays within its space right. -/
def AccountLaws (s : State) : Prop :=
  ∀ a : Fin 16, (accountOf s a).held = true → 0 ≤ freeInventory s a ∧ 0 ≤ freeSpace s a

/-- Is a slot polled: enabled and not FAULTED (R30)? -/
def isPolled (s : State) (n : Fin 16) : Prop := (slotOf s n).state ≠ .disabled ∧ (slotOf s n).state ≠ .faulted

/-- Is a slot's entry in flight? A discarded transaction is no slot's (R18). -/
def inFlightFor (s : State) (n : Fin 16) : Prop :=
  ∃ f : InFlight, s.fsu.engine = .awaitReply f ∧ f.discarded = false ∧ f.entry.slot = n

/-- Is a request the one that an entry's phase sends (R16): a WRITE in INIT_WRITE, a READ else? -/
def requestSuits : Phase → LineRequest → Prop
  | .initWrite _, .write _ _ _ => True
  | .readyCheck, .read _ _ _ => True
  | .read, .read _ _ _ => True
  | _, _ => False

/-- The poll queue is in its order and never holds two entries for a slot, and every slot that is polled, and no other, has one
entry, queued or in flight (R30). -/
def QueueKept (s : State) : Prop :=
  s.fsu.queue.Pairwise (fun a b => a.before b = true) ∧ (s.fsu.queue.map Entry.slot).Nodup
    ∧ (∀ n : Fin 16, isPolled s n ↔ n ∈ s.fsu.queue.map Entry.slot ∨ inFlightFor s n)
    ∧ (∀ n : Fin 16, inFlightFor s n → n ∉ s.fsu.queue.map Entry.slot)
    ∧ ∀ f : InFlight, s.fsu.engine = .awaitReply f → requestSuits f.entry.phase f.request

/-- At most one compressor unit is STARTING (R107). -/
def OneStarting (s : State) : Prop :=
  ∀ u v : Fin 4, (unitOf s u).state = .starting → (unitOf s v).state = .starting → u = v

/-- Units are STARTING or RUNNING only while the site is INJECTING (R108). -/
def RunOnlyInjecting (s : State) : Prop :=
  s.dir.direction ≠ .injecting → ∀ u : Fin 4, (unitOf s u).state ≠ .starting ∧ (unitOf s u).state ≠ .running

/-- A (day, hour) pair is one of those of 00_scope.md. -/
def hourInRange (h : HourId) : Prop := h.day < 65536 ∧ h.hour < 24

/-- Gas-day time and the last closed hour are times of the gas day (R2, R3, R6). -/
def ClockInRange (s : State) : Prop :=
  s.clock.day < 65536 ∧ s.clock.seconds < 86400 ∧ s.clock.tenths < 10 ∧ ∀ h, s.clock.lastClosed = some h → hourInRange h

/-- The hour history holds at most 48 records (R186). -/
def HistoryWithin (s : State) : Prop := s.cau.history.length ≤ Config.historyLength

/-- An entry of a bank that is WRITTEN is a valid step (R118, R120). -/
def entryInRange : BankEntry → Prop
  | .written r => 1 ≤ r.duration ∧ r.duration ≤ 4095 ∧ (r.heater && r.cooler) = false
  | _ => True

/-- A ratchet table is one that SET-RATCHET admits: 2 to 8 points whose fills rise from 0 to 1,000, with rates of at most 1,000 (R162). -/
abbrev ratchetInRange (l : List RatchetPoint) : Prop :=
  2 ≤ l.length ∧ l.length ≤ 8 ∧ (l.map RatchetPoint.fill).Pairwise (· < ·) ∧ (l.map RatchetPoint.fill).head? = some 0
    ∧ (l.map RatchetPoint.fill).getLast? = some 1000 ∧ ∀ p ∈ l, p.rate ≤ 1000

/-- A number is one of a register's 16 bits. -/
def isWord (n : Nat) : Prop := n < 65536

/-- A slot's settings lie in the ranges of R19: those that SET-SLOT checks, and those that the form of its frame keeps. -/
def slotInRange (c : SlotSettings) : Prop :=
  slotSettingsInRange c ∧ isWord c.startRegister ∧ isWord c.statusRegister ∧ c.settle ≤ 255

/-- A binding that may be absent names one of a slot's channels 0 to 3 (R43, R115). -/
def bindingInRange (b : Option Binding) : Prop := ∀ x, b = some x → x.channel ≤ 3

/-- Every setting lies in the range its rule gives: the field line (R15), the slots (R19), the script store (R23), the points (R41), β
and CV (R43), levels (R63), derate table (R71), alert thresholds (R73), caverns (R79), site (R87), duty (R109), trains (R115),
banks (R118), leads (R160) and ratchets (R162). -/
structure SettingsInRange (s : State) : Prop where
  window : 5 ≤ s.fsu.window ∧ s.fsu.window ≤ 200
  slots : ∀ n : Fin 16, slotInRange (slotOf s n).settings
  script : ∀ i : Fin 64, isWord (nth s.fsu.script i).register ∧ isWord (nth s.fsu.script i).value
  points : ∀ k : Fin 7,
    1 ≤ (pointOf s k).weight ∧ isWord (pointOf s k).weight ∧ 1 ≤ (pointOf s k).ceiling ∧ isWord (pointOf s k).ceiling
      ∧ (pointOf s k).capacity ≤ Config.maxRate ∧ (1 < k.val → (pointOf s k).capacity = 0)
  beta : ∀ i : Fin 4, nth s.mtu.beta i ≤ 1023
  cv : 8000 ≤ s.mtu.cvDefault ∧ s.mtu.cvDefault ≤ 13500 ∧ bindingInRange s.mtu.cvSource
  levels : ∀ n : Fin 56, (nth s.cdt.conditions n).level ≤ 7
  derate : derateInRange s.cdt.derate
  thresholds : ∀ p : Port, 1 ≤ (s.cdt.alertOf p).threshold ∧ (s.cdt.alertOf p).threshold ≤ 7
  caverns : ∀ k : Fin 4,
    cavernInRange (cavernOf s k).pmin (cavernOf s k).pmax (cavernOf s k).hysteresis (cavernOf s k).injectionRate
      (cavernOf s k).withdrawalRate
  site : siteInRange s.dir.site
  duty : dutyInRange s.cpd.settings
  trains : ∀ t : Fin 2,
    bindingInRange (trainOf s t).binding ∧ (trainOf s t).hysteresis ≤ 5000
      ∧ -32768 ≤ (trainOf s t).breakthrough ∧ (trainOf s t).breakthrough ≤ 32767
      ∧ -32768 ≤ (trainOf s t).specLimit ∧ (trainOf s t).specLimit ≤ 32767
  banks : ∀ b : Fin 2, ∀ i : Fin 24, entryInRange (nth (nth s.dsq.banks b) i)
  lead : 1 ≤ s.nfu.lead ∧ s.nfu.lead ≤ 4 ∧ ∀ l, s.nfu.pendingLead = some l → 1 ≤ l ∧ l ≤ 4
  ratchets : ratchetInRange s.nfu.injectionRatchet ∧ ratchetInRange s.nfu.withdrawalRatchet

/-- All of them. -/
structure Sound (s : State) : Prop where
  classFormed : ClassFormed s
  books : BooksBalance s
  codes : CodesDistinct s
  rows : RowsKept s
  laws : AccountLaws s
  queue : QueueKept s
  oneStarting : OneStarting s
  runs : RunOnlyInjecting s
  clock : ClockInRange s
  history : HistoryWithin s
  settings : SettingsInRange s

/-! ### What an event comes to, where several statements say it -/

/-- A slot as SET-SLOT on an enabled slot and ENABLE-SLOT leave it: enabled as it was or as it became, INIT, counters 0, channels NONE,
its first visit scheduled now (R20, R21). -/
def freshSlot (enabled : Bool) (settings : SlotSettings) (lastError now : Nat) : Slot :=
  { enabled := enabled, settings := settings, state := .init, failed := 0, overruns := 0, lastError := lastError
    recovered := false, firstReading := true, scheduled := some now, channels := fill 4 Channel.initial, thresholdOn := false }

/-- The first phase of a visit that begins in INIT: the script, if there is one, else the readiness check of a READY_GATED slot, else
the read (R24). -/
def firstOfInit (c : SlotSettings) : Phase :=
  if 1 ≤ c.scriptCount then .initWrite 0 else if c.pollMode = .readyGated then .readyCheck else .read

/-- The bytes from the address to the last data byte of a complete frame: one of the five kinds, with as many bytes as its kind, and for
DATA its word count, says (R207). -/
def frameBody (body : List Byte) : Prop :=
  ∃ (address kind : Byte) (rest : List Byte), body = address :: kind :: rest
    ∧ ((kind = 0x31 ∧ rest.length = 3) ∨ (kind = 0x32 ∧ rest.length = 4) ∨ (kind = 0xB2 ∧ rest.length = 2)
      ∨ (kind = 0xF2 ∧ rest.length = 3)
      ∨ (kind = 0xB1 ∧ ∃ (count : Byte) (data : List Byte), rest = count :: data ∧ 1 ≤ count.toNat ∧ count.toNat ≤ 8
          ∧ data.length = 2 * count.toNat))

/-- The bytes from the address to the last data byte answer a request, and what they bring (R17): DATA with the count asked for answers
a READ, DONE and ERROR with the register written answer a WRITE. -/
def answersWith : LineRequest → List Byte → Reply → Prop
  | .read address _ count, body, r =>
    ∃ (data : List Byte) (words : List WordBytes),
      body = BitVec.ofNat 8 address :: 0xB1 :: BitVec.ofNat 8 count :: data ∧ data.length = 2 * count
        ∧ words.flatMap (fun w => [w.first, w.second]) = data ∧ r = .data words
  | .write address register _, body, r =>
    (body = BitVec.ofNat 8 address :: 0xB2 :: ubytes 2 register ∧ r = .done)
      ∨ ∃ code : Byte, body = BitVec.ofNat 8 address :: 0xF2 :: (ubytes 2 register ++ [code]) ∧ r = .error code.toNat

/-- The word that a channel forms from two bytes in the order of arrival: high byte first, or low byte first with the swap flag (R32). -/
def wordFormed (swap : Bool) (first second : Byte) : Nat :=
  if swap then 256 * second.toNat + first.toNat else 256 * first.toNat + second.toNat

/-- The next visit of slot `n` has been scheduled from the end of one at the fine count of `s` (R31): `later` whole periods after the
scheduled time of the one that ended, the first such instant past now, with the instants passed over counted. A slot without a
scheduled time, which no run polls, counts from now (the model's choice, log entry 2). -/
def nextVisitQueued (n : Fin 16) (s t : State) : Prop :=
  ∃ from_ later due : Nat,
    from_ = (slotOf s n).scheduled.getD s.fine ∧ 1 ≤ later ∧ due = from_ + later * ((slotOf s n).settings.period * 1000)
      ∧ s.fine < due ∧ (later = 1 ∨ from_ + (later - 1) * ((slotOf s n).settings.period * 1000) ≤ s.fine)
      ∧ (slotOf t n).scheduled = some due
      ∧ (slotOf t n).overruns = min 65535 ((slotOf s n).overruns + (later - 1))
      ∧ (slotOf t n).recovered = decide ((slotOf t n).state = .absent)
      ∧ t.fsu.queue = enqueue ⟨n, due, firstPhase (slotOf t n), 0, 0⟩ s.fsu.queue

/-- A direction has booked its stored rate over `tenths` into the hour accumulator or the unclocked one, which hold at 2⁶⁴ − 1
(R44, R52, R53, R54). -/
def gapBooked (toHour : Bool) (tenths : Nat) (old new : Direction) : Prop :=
  new = { old with
    hourVolume := if toHour then min (2 ^ 64 - 1) (old.hourVolume + old.rate * tenths / 10) else old.hourVolume
    unclocked := if toHour then old.unclocked else min (2 ^ 64 - 1) (old.unclocked + old.rate * tenths / 10) }

/-- Slot `n` has entered ABSENT or FAULTED or has not, as `enters` says: if it has, the gap of the point bound to it is open from the
slot's time of last good reading, or from now when it has none; nothing else of the metering changes (R50, R51). -/
def gapFollows (n : Fin 16) (enters : Bool) (s t : State) : Prop :=
  t.mtu = { s.mtu with points := t.mtu.points }
    ∧ ∀ k, pointOf t k =
      if enters = true ∧ pointBoundTo s n = some k then
        { pointOf s k with
          gap := some (match (channelAt (slotOf s n) 0).lastGood with
                       | some at_ => at_ / 100
                       | none => timeBase s) }
      else pointOf s k

/-- A changeover has been tested at a change of a quiet answer, and at no other time: if its three tests hold, the site is in the target
direction, and else it goes on (R59, R90). -/
def quietChangeTested (s t : State) : Prop :=
  ((∀ c, s.dir.direction ≠ .changeover c) → t.dir.direction = s.dir.direction)
    ∧ ∀ c, s.dir.direction = .changeover c →
      t.dir.direction =
        if quietAnswers t ≠ quietAnswers s ∧ changeoverComplete t c = true then c.target.direction else .changeover c

/-- The readers of slot `n` have followed a change of its channels' quality without a reading, to NONE where `lost` holds and else to HELD:
the caverns whose pressure changed its quality have evaluated their bands (R81), the off-spec state of the trains whose dew point is NONE
is Active in every state but OFF (R132), and a changeover whose quiet answers changed has been tested (R90). -/
def readersFollow (n : Fin 16) (lost : Bool) (s t : State) : Prop :=
  (∀ k : Fin 4, cavernOf t k =
      if (cavernPressure t k).quality ≠ (cavernPressure s k).quality then
        { cavernOf s k with band := nextBand (cavernOf s k) (cavernPressure t k) }
      else cavernOf s k)
    ∧ (∀ k : Fin 4, (pointOf s (wellhead k)).slot = some n →
        conditionActive t (condBand k) = decide ((cavernOf t k).band ≠ .normal))
    ∧ (∀ d : Fin 2,
        (trainOf t d).offSpec =
          if lost = true ∧ ∃ b ∈ (trainOf s d).binding, b.slot = n then decide ((trainOf s d).state ≠ .off) else (trainOf s d).offSpec)
    ∧ (∀ d : Fin 2, (∃ b ∈ (trainOf s d).binding, b.slot = n) → conditionActive t (condOffSpec d) = (trainOf t d).offSpec)
    ∧ quietChangeTested s t

/-- A visit of slot `n` has failed (R29): the count is one more, at most 255, GOOD channels are HELD, the threshold keeps its state, the
state follows the count and the absent limit, DEVICE Sn is Active in ABSENT, the gap of its point opens on entry to ABSENT (R51), the
readers follow the quality (R81, R90), and the next visit is scheduled (R31). -/
def visitFailed (n : Fin 16) (s t : State) : Prop :=
  (slotOf t n).failed = min 255 ((slotOf s n).failed + 1)
    ∧ (∀ c : Fin 4, nth (slotOf t n).channels c = (nth (slotOf s n).channels c).hold)
    ∧ (slotOf t n).thresholdOn = (slotOf s n).thresholdOn
    ∧ ((slotOf t n).state = .absent → conditionActive t (condDevice n) = true)
    ∧ ((slotOf s n).state = .absent → (slotOf t n).state = .absent)
    ∧ (isPolled s n → (slotOf s n).state ≠ .absent →
        ((slotOf s n).settings.absentLimit ≤ (slotOf t n).failed → (slotOf t n).state = .absent)
          ∧ ((slotOf t n).failed < (slotOf s n).settings.absentLimit →
              (slotOf t n).state = if (slotOf s n).state = .active then .active else .init))
    ∧ gapFollows n (decide ((slotOf t n).state = .absent) && decide ((slotOf s n).state ≠ .absent)) s t
    ∧ readersFollow n false s t ∧ nextVisitQueued n s t ∧ t.fsu.engine = .idle

/-- What a good reading of slot `n` brings to the directions of the point `k` bound to it: pressure and temperature of the reading, the
recovered mark of R28, the interval since the point's last reading in tenths, at least 1, and the receiving hour (R45). -/
def readingOf (k : Fin 7) (n : Fin 16) (s t : State) : Reading :=
  { pressure := (channelAt (slotOf t n) (pressureIndex k)).value
    temperature := (channelAt (slotOf t n) (temperatureIndex k)).value
    recovered := (slotOf s n).recovered || (slotOf s n).firstReading
    interval := match (pointOf s k).readingTime with
                | some at_ => max 1 (timeBase s - at_)
                | none => 1
    toHour := clockRunning s }

/-- Flags of the receiving hour: the open hour's, or the unclocked set while the clock is UNSET (R45, R54). -/
def receivingFlags (running : Bool) (m : Mtu) : MeterFlags := if running then m.flags else m.unclockedFlags

/-- The point `k` bound to slot `n` has taken a good reading that left the slot's channels as they stand in `t` (R28, R45, R53): a
recovered reading has closed an open gap first, each direction has taken its counter, and the reading time is now. What the directions
estimated has been added to the estimated tenths, and the receiving hour has the flags that they set, ESTIMATED, CLAMPED and REBASED, with
those it had (R46 to R48, R57); the other flag set and the rest of the metering block stand. -/
def meterTook (k : Fin 7) (n : Fin 16) (s t : State) : Prop :=
  ∃ (before : State) (fwd rev : DirectionResult),
    before = (if (slotOf s n).recovered ∨ (slotOf s n).firstReading then closeGap k s else s)
      ∧ fwd = takeDirection s.mtu.beta (pointOf s k) (readingOf k n s t) (counterModulus (slotOf s n) 0)
          (channelAt (slotOf t n) 0).value.toNat (pointOf before k).forward
      ∧ (hasReverse k = true →
          rev = takeDirection s.mtu.beta (pointOf s k) (readingOf k n s t) (counterModulus (slotOf s n) 1)
            (channelAt (slotOf t n) 1).value.toNat (pointOf before k).reverse)
      ∧ (hasReverse k = false → rev = ⟨(pointOf before k).reverse, MeterFlags.clear, 0⟩)
      ∧ (pointOf t k).forward = fwd.direction ∧ (pointOf t k).reverse = rev.direction
      ∧ (pointOf t k).estimatedTenths = min (2 ^ 32 - 1) ((pointOf before k).estimatedTenths + fwd.estimated + rev.estimated)
      ∧ receivingFlags (clockRunning s) t.mtu =
          { receivingFlags (clockRunning s) before.mtu with
            estimated := (receivingFlags (clockRunning s) before.mtu).estimated || fwd.flags.estimated || rev.flags.estimated
            clamped := (receivingFlags (clockRunning s) before.mtu).clamped || fwd.flags.clamped || rev.flags.clamped
            rebased := (receivingFlags (clockRunning s) before.mtu).rebased || fwd.flags.rebased || rev.flags.rebased }
      ∧ receivingFlags (!clockRunning s) t.mtu = receivingFlags (!clockRunning s) s.mtu
      ∧ t.mtu = { s.mtu with points := t.mtu.points, flags := t.mtu.flags, unclockedFlags := t.mtu.unclockedFlags }
      ∧ { pointOf t k with
            forward := (pointOf s k).forward, reverse := (pointOf s k).reverse, readingTime := (pointOf s k).readingTime
            gap := (pointOf s k).gap, estimatedTenths := (pointOf s k).estimatedTenths } = pointOf s k
      ∧ (pointOf t k).readingTime = some (timeBase s) ∧ (pointOf t k).gap = (pointOf before k).gap
      ∧ (∀ j, j ≠ k → pointOf t j = pointOf s j)
      ∧ conditionActive t (condCounter k) = ((pointOf t k).forward.implausible || (pointOf t k).reverse.implausible)

/-- A unit has entered FAULTED with a cause: condition UNIT Uk is Active and UNIT_TRIPPED is set (R102). -/
def unitFaulted (u : Fin 4) (cause : UnitCause) (t : State) : Prop :=
  (unitOf t u).state = .faulted ∧ (unitOf t u).cause = cause ∧ (unitOf t u).deadline = none
    ∧ conditionActive t (condUnit u) = true ∧ nth t.cdt.ops.flags evUnitTripped = true

/-- What the CPD is after an event that made unit `u` the record `r`, from a state in which units run only while the site injects: a
duty evaluation follows where R106 raises one, and where the change completes a changeover to INJECTING (R90, R92); else nothing more is
changed. -/
def dutyFollows (u : Fin 4) (r : UnitRecord) (evaluates : Bool) (s t : State) : Prop :=
  RunOnlyInjecting s →
    t.cpd =
      if evaluates = true ∨ (s.dir.direction ≠ .injecting ∧ t.dir.direction = .injecting) then
        (evaluate ((alterUnit u (fun _ => r) s).withDir t.dir)).cpd
      else (alterUnit u (fun _ => r) s).cpd

/-- A train that stood as `old` has entered the WRITTEN step `r` at index `i` at the time `now`: SWAP, state and deadlines by the step's
advance (R122 to R125). -/
def enteredStep (now i : Nat) (r : StepRecord) (old new : Train) : Prop :=
  new = { old with
    stepIndex := i
    tower := if r.swap then old.tower.other else old.tower
    state := if r.advance = .input then .waitInput else .running
    timeDeadline := if r.advance = .input then none else some (now + r.duration * (if r.longUnit then 16 else 1) * 10)
    dwellDeadline := if r.advance = .input then some (now + 10) else none
    timeoutDeadline := if r.advance = .input then some (now + r.duration * (if r.longUnit then 16 else 1) * 10) else none
    strokeDeadline := none }

/-- A train has entered FAULTED with a cause: deadlines and park request cleared, the step recorded, condition TRAIN Dk Active and
TRAIN_FAULTED set (R126). -/
def trainFaulted (d : Fin 2) (cause : TrainCause) (s t : State) : Prop :=
  trainOf t d = { (trainOf s d).noDeadlines with state := .faulted, cause := cause, faultStep := (trainOf s d).stepIndex, parkRequest := false }
    ∧ conditionActive t (condTrain d) = true ∧ nth t.cdt.ops.flags evTrainFaulted = true

/-- The requested quantity of one shipper is written for `count` hours from position `start`, and nothing else in the rows (R157). -/
def runWritten (a : Fin 16) (start count : Nat) (quantity : Option Int) (s t : State) : Prop :=
  ∀ p : Fin 72, hourOf t p =
    if start ≤ p.val ∧ p.val < start + count then
      { hourOf s p with entries := alter (hourOf s p).entries a fun e => { e with requested := quantity } }
    else hourOf s p

/-- The integer `x` is the quotient a / b rounded toward minus infinity, for b above 0. -/
def floorsTo (a b x : Int) : Prop := b * x ≤ a ∧ a < b * (x + 1)

/-- The quantity `x` to which the rights step cuts a request `q` of slot `a`, under the rate rights of the hour (R165). -/
def rightsStep (s : State) (a : Fin 16) (q x : Int) : Prop :=
  ((accountOf s a).state = .vacant ∨ q = 0 ∨ (0 < q ∧ (accountOf s a).state = .closing) → x = 0)
    ∧ (0 < q → (accountOf s a).state = .active → x = min q (min (injectionLimit s a) (freeSpace s a)))
    ∧ (q < 0 → (accountOf s a).state ≠ .vacant → x = -min (-q) (min (withdrawalLimit s a) (freeInventory s a)))

/-- The hour's capacities at this instant: in each direction the least of four contributions, at the percentage of the derate class (R60,
R71, R84, R112, R134, R166). -/
def CapacitiesFormed (s : State) (injection withdrawal : Nat) : Prop :=
  ∃ compressors cavernsIn cavernsOut boundary dryers percentIn percentOut : Nat,
    compressors = countFin (fun u : Fin 4 => decide ((unitOf s u).state ≠ .out ∧ (unitOf s u).state ≠ .faulted)) * s.dir.site.unitRate
      ∧ cavernsIn = sumNat (fun k : Fin 4 =>
          if (cavernOf s k).inService = true ∧ (cavernOf s k).band ≠ .high ∧ (cavernPressure s k).quality ≠ .noReading then
            (cavernOf s k).injectionRate
          else 0)
      ∧ cavernsOut = sumNat (fun k : Fin 4 =>
          if (cavernOf s k).inService = true ∧ (cavernOf s k).band ≠ .low ∧ (cavernPressure s k).quality ≠ .noReading then
            (cavernOf s k).withdrawalRate
          else 0)
      ∧ boundary = sumNat (fun k : Fin 7 =>
          if k.val ≤ 1 ∧ ∃ n, (pointOf s k).slot = some n ∧ (slotOf s n).state = .active then (pointOf s k).capacity else 0)
      ∧ dryers = countFin (fun d : Fin 2 =>
          (trainOf s d).enabled && decide ((trainOf s d).state ≠ .faulted) && !(trainOf s d).offSpec
            && bankValid (nth s.dsq.banks (trainOf s d).bank)) * s.dir.site.trainRate
      ∧ (s.cdt.derateClass = 0 → percentIn = 100 ∧ percentOut = 100)
      ∧ (∀ i : Fin 7, s.cdt.derateClass = i.val + 1 →
          percentIn = (nth s.cdt.derate i).injection ∧ percentOut = (nth s.cdt.derate i).withdrawal)
      ∧ injection = min (min compressors cavernsIn) (min boundary s.dir.site.injectionCapacity) * percentIn / 100
      ∧ withdrawal = min (min dryers cavernsOut) (min boundary s.dir.site.withdrawalCapacity) * percentOut / 100

/-- The confirmation `x` that the curtailment step gives slot `a`, from the quantities `q` of the rights step and the hour's capacities
(R167): those that flow with a net above its capacity share their total less the excess, and every other keeps its quantity. -/
def curtailed (q : Vector Int 16) (injection withdrawal : Nat) (a : Fin 16) (x : Int) : Prop :=
  ((injection : Int) < sumInt (nth q) ∧ 0 < nth q a →
      x = ((nth (largestRemainder (sumNat (nth (positives q)) - (sumInt (nth q) - injection).toNat) (positives q)) a : Nat) : Int))
    ∧ (sumInt (nth q) < -(withdrawal : Int) ∧ nth q a < 0 →
      x = -((nth (largestRemainder (sumNat (nth (negatives q)) - (-sumInt (nth q) - withdrawal).toNat) (negatives q)) a : Nat) : Int))
    ∧ ((sumInt (nth q) ≤ injection ∨ nth q a ≤ 0) → (-(withdrawal : Int) ≤ sumInt (nth q) ∨ 0 ≤ nth q a) → x = nth q a)

/-- A quotient rounded half up (00_scope.md, Rounding). -/
def roundsTo (a b x : Nat) : Prop := 2 * b * x ≤ 2 * a + b ∧ 2 * a + b < 2 * b * (x + 1)

/-- The hourly energy `e` of an accumulated volume under a CV: the product over 10⁹ rounded half up, at most 100,000,000 (R55). -/
def hourEnergy (volume cv e : Nat) : Prop := ∃ raw, roundsTo (volume * cv) 1000000000 raw ∧ e = min 100000000 raw

/-- The confirmations of the hour at position `p`, as its close takes them: an absent one counts as 0, and a VACANT slot has none
(R176). -/
def closingQuantity (s : State) (p : Fin 72) : Vector Int 16 := tab fun a => if (accountOf s a).held then confirmedOf s p a else 0

/-- The allocations `al` that PRO_RATA gives to the confirmations `q` under a measured net `m`, from the accounts as they stand in `s`
(R178 to R180). -/
structure ProRataAllocated (s : State) (q : Vector Int 16) (m : Int) (al : Vector Int 16) : Prop where
  exact : m = sumInt (nth q) ∨ sumInt (nth q) = 0 → al = q
  counterflow : ∀ a, (0 < sumInt (nth q) ∧ nth q a ≤ 0) ∨ (sumInt (nth q) < 0 ∧ 0 ≤ nth q a) → nth al a = nth q a
  lessIn : 0 < sumInt (nth q) → m < sumInt (nth q) → ∀ a, 0 < nth q a →
    nth al a = ((nth (largestRemainder (sumNat (nth (positives q)) - (sumInt (nth q) - m).toNat) (positives q)) a : Nat) : Int)
  lessOut : sumInt (nth q) < 0 → sumInt (nth q) < m → ∀ a, nth q a < 0 →
    nth al a = -((nth (largestRemainder (sumNat (nth (negatives q)) - (m - sumInt (nth q)).toNat) (negatives q)) a : Nat) : Int)
  moreIn : 0 < sumInt (nth q) → sumInt (nth q) < m → ∀ a, 0 < nth q a →
    nth al a = nth q a
      + min ((nth (largestRemainder (m - sumInt (nth q)).toNat (positives q)) a : Nat) : Int)
          (if (accountOf s a).state = .active then freeSpace s a else 0)
  moreOut : sumInt (nth q) < 0 → m < sumInt (nth q) → ∀ a, nth q a < 0 →
    nth al a = nth q a - min ((nth (largestRemainder (sumInt (nth q) - m).toNat (negatives q)) a : Nat) : Int) (freeInventory s a)

/-- The fuel `fu` charged to the shippers with the allocations `al`: shares by |al|, each at most the free inventory after allocation
(R181). -/
def FuelCharged (s : State) (q al : Vector Int 16) (fuel : Nat) (fu : Vector Int 16) : Prop :=
  ∀ a, nth fu a =
    if nth al a = 0 then 0
    else min ((nth (largestRemainder fuel (tab fun b => (nth al b).natAbs)) a : Nat) : Int)
      (max 0 ((accountOf s a).inventory + nth al a - (withdrawalReserve s a - max 0 (-(nth q a)))))

/-- The CV has been latched at the start of an hour: the default without a source, a GOOD value of the source within 8,000 to 13,500, and
else the one held, with condition 39 (R56). -/
def cvLatched (s t : State) : Prop :=
  (s.mtu.cvSource = none → t.mtu.latchedCv = s.mtu.cvDefault ∧ conditionActive t condCv = false)
    ∧ ∀ b, s.mtu.cvSource = some b →
      ((channelAt (slotOf s b.slot) b.channel).quality = .good ∧ 8000 ≤ (channelAt (slotOf s b.slot) b.channel).value
          ∧ (channelAt (slotOf s b.slot) b.channel).value ≤ 13500 →
          (t.mtu.latchedCv : Int) = (channelAt (slotOf s b.slot) b.channel).value ∧ conditionActive t condCv = false)
        ∧ ((channelAt (slotOf s b.slot) b.channel).quality ≠ .good ∨ (channelAt (slotOf s b.slot) b.channel).value < 8000
            ∨ 13500 < (channelAt (slotOf s b.slot) b.channel).value →
          t.mtu.latchedCv = s.mtu.latchedCv ∧ conditionActive t condCv = true)

/-- The hour at position `p` of the rows of `t` has started, in an event that found the part in `s`: the CV is latched (R56), a pending
lead has come into effect with its overdue firms (R161), the site has taken the direction of the hour's confirmed net, a changeover to
that very target goes on unless a unit's stop at the start is the event at which its three tests hold (R89, R90), the trains have followed
it (R128), and the units have stopped (R108) or taken a duty evaluation (R106). -/
def hourStarted (p : Fin 72) (s t : State) : Prop :=
  cvLatched s t ∧ t.nfu.lead = s.nfu.pendingLead.getD s.nfu.lead ∧ t.nfu.pendingLead = none
    ∧ (∀ lead, s.nfu.pendingLead = some lead → ∀ q : Fin 72, p.val < q.val → q.val < p.val + lead → (hourOf t q).site.firmed = true)
    ∧ (∀ net : Int, net = (if (hourOf t p).site.firmed then (hourOf t p).site.net else 0) →
        (net = 0 → t.dir.direction = .standby)
          ∧ ∀ f : Flow, f = (if 0 < net then .injecting else .withdrawing) → net ≠ 0 →
            (s.dir.direction = .standby ∨ s.dir.direction = f.direction
                ∨ (∃ c, s.dir.direction = .changeover c ∧ c.target ≠ f) → t.dir.direction = f.direction)
              ∧ ∀ c, (s.dir.direction = f.other.direction ∧ c = ⟨f, timeBase s, false⟩)
                  ∨ (s.dir.direction = .changeover c ∧ c.target = f) →
                t.dir.direction =
                  if (∃ u, (unitOf t u).state ≠ (unitOf s u).state) ∧ changeoverComplete t c = true then f.direction
                  else .changeover c)
    ∧ (∀ d, { trainOf t d with offSpecTenths := (trainOf s d).offSpecTenths } = trainOf (changeDirection t.dir.direction s) d)
    ∧ (s.dir.direction = .injecting → t.dir.direction ≠ .injecting → t.cpd = (changeDirection t.dir.direction s).cpd)
    ∧ (RunOnlyInjecting s → (s.dir.direction = .injecting → t.dir.direction = .injecting) →
        t.cpd = (evaluate (t.withCpd s.cpd)).cpd)

/-- The row position of the hour that a SET-CLOCK sets. -/
def setPosition (fields : List Byte) : Fin 72 := todayPosition (num fields 2 4 / 3600)

/-- The first row position past the hours whose firm point, under the lead in effect, lies at or before the instant a SET-CLOCK sets
(R10 step 2). -/
def overdueEnd (fields : List Byte) (s : State) : Nat :=
  (setPosition fields).val + s.nfu.lead + if 1800 ≤ num fields 2 4 % 3600 then 1 else 0

/-- SET-CLOCK has set gas-day time (R8 to R10): the clock runs at the set time with tenths 0, the last closed hour is the one before the
set hour, condition 54 is inactive, every hour whose firm point has passed is firmed, the unclocked measurement is in the set hour (R54),
it starts now (R4), and the response carries the count of missed hours and the abandon mark. -/
def clockSet (fields : List Byte) (missed : Nat) (abandoned : Bool) (s t : State) : Prop :=
  t.clock = ⟨.running, num fields 0 2, num fields 2 4, 0, some (HourId.previous ⟨num fields 0 2, num fields 2 4 / 3600⟩), false⟩
    ∧ conditionActive t condClockUnset = false
    ∧ (∀ q : Fin 72, setPosition fields ≤ q → q.val < overdueEnd fields s → (hourOf t q).site.firmed = true)
    ∧ (∀ k, pointOf t k = pointOf (mergeUnclocked s) k)
    ∧ t.mtu = { s.mtu with
        points := t.mtu.points, unclockedFlags := MeterFlags.clear, latchedCv := t.mtu.latchedCv, startTime := some (timeBase s)
        flags := { (mergeUnclocked s).mtu.flags with cvHeld := (mergeUnclocked s).mtu.flags.cvHeld || conditionActive t condCv } }
    ∧ hourStarted (setPosition fields) s t ∧ (∀ d, (trainOf t d).offSpecTenths = (trainOf s d).offSpecTenths)
    ∧ t.pif = (answered .ops (fields.length + 2) .ok [0x10, BitVec.ofNat 8 missed, if abandoned then 1 else 0] s).pif
    ∧ t.fine = s.fine ∧ t.fsu = s.fsu ∧ t.freeReads = s.freeReads ∧ t.pending = s.pending

/-- What a first SET-CLOCK leaves of the hours: none is closed by it, no request is changed, the hours before the set one stand as they
were, and no hour after the overdue ones is firmed by it while no lead is pending (R8, R10). -/
def hoursStand (fields : List Byte) (s t : State) : Prop :=
  ∀ q : Fin 72,
    (hourOf t q).site.closed = (hourOf s q).site.closed ∧ (∀ a, (entryOf t q a).requested = (entryOf s q a).requested)
      ∧ (q < setPosition fields → hourOf t q = hourOf s q)
      ∧ (1 ≤ s.nfu.lead → s.nfu.pendingLead = none → overdueEnd fields s ≤ q.val →
          (hourOf t q).site.firmed = (hourOf s q).site.firmed)

/-- What an abandoning SET-CLOCK leaves of the hours: every row and the site hour table cleared, the overdue hours then firmed without a
request, and no HOUR_CLOSED or DAY_ROLLED set (R9, R10). -/
def hoursAbandoned (fields : List Byte) (s t : State) : Prop :=
  (∀ q : Fin 72,
      (hourOf t q).site.closed = false
        ∧ (q < setPosition fields ∨ (1 ≤ s.nfu.lead ∧ s.nfu.pendingLead = none ∧ overdueEnd fields s ≤ q.val) →
            hourOf t q = HourCell.clear)
        ∧ ∀ a, (entryOf t q a).requested = none ∧ (entryOf t q a).allocated = none ∧ (entryOf t q a).fuel = none
            ∧ (setPosition fields ≤ q → q.val < overdueEnd fields s → (accountOf t a).held = true →
                entryOf t q a = { HourEntry.clear with confirmed := some 0 }))
    ∧ nth t.cdt.com.flags evHourClosedCom = nth s.cdt.com.flags evHourClosedCom
    ∧ nth t.cdt.com.flags evDayRolled = nth s.cdt.com.flags evDayRolled
    ∧ nth t.cdt.ops.flags evHourClosedOps = nth s.cdt.ops.flags evHourClosedOps

/-- A row position as it stands in `s`, which is clear past the end of tomorrow. -/
def rowBefore (s : State) (i : Nat) : HourCell :=
  match index? 72 i with
  | some p => hourOf s p
  | none => HourCell.clear

/-- The hour record of a missed hour: nothing measured, and OUTAGE (R8, R188). -/
def outageRecord (h : HourId) (mode : AllocationMode) (r : HourRecord) : Prop :=
  r.hour = h ∧ r.outage = true ∧ r.energyIn = 0 ∧ r.energyOut = 0 ∧ r.energyFuel = 0 ∧ (∀ k, nth r.cavernNets k = 0) ∧ r.difference = 0
    ∧ r.cv = 0 ∧ r.mode = mode ∧ r.estimatedSeconds = 0 ∧ (∀ d, nth r.offSpecSeconds d = 0) ∧ r.flags = MeterFlags.clear
    ∧ r.trimmed = false

/-- What a SET-CLOCK over `n` missed hours after the last closed hour `h` leaves of them (R8, R155, R188): one OUTAGE record each, the
rows rolled over after every hour 23, each missed hour firmed and closed, at zero where it was unfirmed and with its confirmations where
it was firmed, and the accounts, the history and the rows as they were when there are none. That no re-firm touches the firmed ones is
said of states whose derate class is formed. -/
def missedHoursClosed (n : Nat) (h : HourId) (fields : List Byte) (s t : State) : Prop :=
  ∃ first rolled : Nat, first = (todayPosition h.next.hour).val ∧ (setPosition fields).val + rolled = first + n
    ∧ (s.cau.history.length ≤ 48 →
        ∃ rs : List HourRecord, rs.length = n ∧ t.cau.history = (s.cau.history ++ rs).drop (s.cau.history.length + n - 48)
          ∧ ∀ i r, rs[i]? = some r → outageRecord (HourId.next^[i + 1] h) s.cau.mode r)
    ∧ t.cau.mode = s.cau.mode
    ∧ (n = 0 → t.act = s.act ∧ hoursStand fields s t)
    ∧ (1 ≤ n → nth t.cdt.com.flags evHourClosedCom = true ∧ nth t.cdt.ops.flags evHourClosedOps = true)
    ∧ (0 < rolled → nth t.cdt.com.flags evDayRolled = true)
    ∧ t.nfu.todayDay = s.nfu.todayDay.map (fun d => if rolled = 0 then d else (d + rolled / 24) % 65536)
    ∧ (∀ (q : Fin 72) (a : Fin 16), (accountOf t a).held = true →
        (entryOf t q a).requested = (nth (rowBefore s (q.val + rolled)).entries a).requested)
    ∧ (∀ q : Fin 72, q.val + n < (setPosition fields).val → ClassFormed s →
        (hourOf t q).site = (rowBefore s (q.val + rolled)).site
          ∧ ∀ a, (accountOf t a).held = true → entryOf t q a = nth (rowBefore s (q.val + rolled)).entries a)
    ∧ ∀ (i : Nat) (q : Fin 72) (was : HourCell), i < n → q.val + (n - i) = (setPosition fields).val → was = rowBefore s (first + i) →
        (hourOf t q).site.closed = true ∧ (hourOf t q).site.firmed = true
          ∧ (was.site.firmed = false →
              (hourOf t q).site.injectionCapacity = 0 ∧ (hourOf t q).site.withdrawalCapacity = 0 ∧ (hourOf t q).site.net = 0
                ∧ (hourOf t q).site.direction = .standby ∧ nth t.cdt.com.flags evHourFirmed = true
                ∧ ∀ a, (accountOf t a).held = true →
                  entryOf t q a = { nth was.entries a with confirmed := some 0, allocated := some 0, fuel := some 0 })
          ∧ (was.site.firmed = true → ClassFormed s →
              ∀ a, (accountOf t a).held = true →
                (entryOf t q a).confirmed = (nth was.entries a).confirmed ∧ (entryOf t q a).fuel = some 0
                  ∧ (s.cau.mode = .asNominated →
                    (entryOf t q a).allocated = some (((nth was.entries a).confirmed).getD 0)))

/-- A reset of a kind has been taken (R202), from what retained memory holds (R201): the counts and the clock, the slots, the poll queue
and the line, the points, the conditions with their activity and pendings, the class, the event flags, the derate table and the alert
settings, the site and the caverns, the units and the duty, the trains and the banks, the accounts and the history, the hour rows, the
leads and ratchets, and the reset source stand as listed here (R2, R38, R61, R77, R93, R97, R113, R117, R135, R173, R191, R204). That
Commercial REFIRMED may be set after it is the model's choice, log entry 42. -/
structure ResetTaken (kind : ResetKind) (lines : Lines) (s t : State) : Prop where
  time : t.fine = 0 ∧ t.clock = ⟨.unset, 0, 0, 0, (retained s).clock.lastClosed, false⟩
  slots : ∀ n : Fin 16,
    (slotOf t n).settings = (slotOf (retained s) n).settings ∧ (slotOf t n).enabled = (slotOf (retained s) n).enabled
      ∧ (slotOf t n).channels = fill 4 Channel.initial
      ∧ (slotOf t n).state = (if (slotOf (retained s) n).enabled then .init else .disabled)
      ∧ (slotOf t n).scheduled = (if (slotOf (retained s) n).enabled then some 0 else none)
      ∧ (slotOf t n).failed = 0 ∧ (slotOf t n).overruns = 0 ∧ (slotOf t n).lastError = 0 ∧ (slotOf t n).recovered = false
      ∧ (slotOf t n).firstReading = false ∧ (slotOf t n).thresholdOn = false
  line : t.fsu.engine = .idle ∧ t.fsu.window = (retained s).fsu.window ∧ t.fsu.script = (retained s).fsu.script
  polls : t.fsu.queue
    = ((List.finRange 16).filter fun n => (slotOf (retained s) n).enabled).map fun n =>
        ⟨n, 0, firstOfInit (slotOf (retained s) n).settings, 0, 0⟩
  points : (∀ k : Fin 7, pointOf t k =
      { pointOf (retained s) k with
        forward := Direction.initial, reverse := Direction.initial, readingTime := none, gap := none, estimatedTenths := 0 })
    ∧ t.mtu.latchedCv = (retained s).mtu.cvDefault ∧ t.mtu.flags = MeterFlags.clear ∧ t.mtu.unclockedFlags = MeterFlags.clear
    ∧ t.mtu.startTime = none ∧ t.mtu.cvDefault = (retained s).mtu.cvDefault ∧ t.mtu.cvSource = (retained s).mtu.cvSource
    ∧ t.mtu.beta = (retained s).mtu.beta
  site : t.dir.direction = .standby ∧ t.dir.site = (retained s).dir.site
    ∧ ∀ k : Fin 4, cavernOf t k = { cavernOf (retained s) k with band := .normal }
  units : ∀ u : Fin 4,
    (unitOf t u).feedback = nth lines.feedback u ∧ (unitOf t u).inService = (unitOf (retained s) u).inService
      ∧ (unitOf t u).state =
          (if (unitOf (retained s) u).state = .faulted then .faulted else if (unitOf (retained s) u).inService then .cooldown else .out)
      ∧ (unitOf t u).deadline = (if (unitOf t u).state = .cooldown then some ((retained s).cpd.settings.cooldown * 10) else none)
      ∧ (unitOf t u).startList = [] ∧ (unitOf t u).attempts = 0 ∧ (unitOf t u).runTenths = 0 ∧ (unitOf t u).cutStart = none
      ∧ (unitOf t u).cause = (unitOf (retained s) u).cause ∧ (unitOf t u).runSeconds = (unitOf (retained s) u).runSeconds
      ∧ (unitOf t u).totalStarts = (unitOf (retained s) u).totalStarts
  duty : t.cpd.settings = (retained s).cpd.settings ∧ t.cpd.demand = 0 ∧ t.cpd.shortfall = 0 ∧ t.cpd.reason = .noShortfall
  trains : ∀ d : Fin 2,
    (trainOf t d).inputs = nth lines.inputs d
      ∧ ((trainOf (retained s) d).state = .faulted → (trainOf t d).state = .faulted)
      ∧ ((trainOf (retained s) d).state ≠ .faulted → (trainOf (retained s) d).enabled = false → (trainOf t d).state = .off)
      ∧ ((trainOf (retained s) d).state ≠ .faulted → (trainOf (retained s) d).enabled = true →
          (trainOf t d).state ≠ .off ∧ (trainOf t d).state ≠ .faulted
            ∧ ((trainOf t d).state = .parked ↔
                (trainOf (retained s) d).standby = false
                  ∨ bankValid (nth (retained s).dsq.banks (trainOf (retained s) d).bank) = false))
      ∧ (trainOf t d).stepIndex = 0 ∧ (trainOf t d).parkRequest = false ∧ (trainOf t d).cycles = 0
      ∧ (trainOf t d).earlyAdvances = 0 ∧ (trainOf t d).offSpecTenths = 0
      ∧ (trainOf t d).offSpec = decide ((trainOf t d).state ≠ .off)
      ∧ (trainOf t d).enabled = (trainOf (retained s) d).enabled ∧ (trainOf t d).binding = (trainOf (retained s) d).binding
      ∧ (trainOf t d).breakthrough = (trainOf (retained s) d).breakthrough ∧ (trainOf t d).specLimit = (trainOf (retained s) d).specLimit
      ∧ (trainOf t d).hysteresis = (trainOf (retained s) d).hysteresis ∧ (trainOf t d).standby = (trainOf (retained s) d).standby
      ∧ (trainOf t d).bank = (trainOf (retained s) d).bank ∧ (trainOf t d).pendingBank = (trainOf (retained s) d).pendingBank
      ∧ (trainOf t d).cause = (trainOf (retained s) d).cause ∧ (trainOf t d).faultStep = (trainOf (retained s) d).faultStep
      ∧ ((trainOf t d).state = .off ∨ (trainOf t d).state = .faulted ∨ (trainOf t d).state = .parked →
          trainOf t d = { (trainOf t d).noDeadlines with tower := (trainOf (retained s) d).tower })
      ∧ ∀ r, (trainOf t d).state = .running ∨ (trainOf t d).state = .waitInput →
          nth (nth (retained s).dsq.banks (trainOf (retained s) d).bank) 0 = .written r →
          enteredStep 0 0 r { trainOf t d with tower := (trainOf (retained s) d).tower } (trainOf t d)
  banks : t.dsq.banks = (retained s).dsq.banks
  conditions : conditionActive t condClockUnset = true ∧ conditionActive t condRetainedLost = (!s.pif.retainedIntact)
    ∧ (∀ n : Fin 56, (nth t.cdt.conditions n).level = (nth (retained s).cdt.conditions n).level
        ∧ ∀ p, (nth t.cdt.conditions n).pendingOf p
            = (conditionActive t n && decide (1 ≤ (nth (retained s).cdt.conditions n).level)))
    ∧ ClassFormed t
    ∧ (∀ u, conditionActive t (condUnit u) = decide ((unitOf t u).state = .faulted))
    ∧ (∀ d, conditionActive t (condTrain d) = decide ((trainOf t d).state = .faulted)
        ∧ conditionActive t (condOffSpec d) = (trainOf t d).offSpec)
    ∧ ∀ n : Fin 56, n ≠ condClockUnset → n ≠ condRetainedLost → (∀ u, n ≠ condUnit u) → (∀ d, n ≠ condTrain d ∧ n ≠ condOffSpec d) →
        conditionActive t n = false
  derate : t.cdt.derate = (retained s).cdt.derate
    ∧ ∀ p : Port, (t.cdt.alertOf p).threshold = ((retained s).cdt.alertOf p).threshold
        ∧ (t.cdt.alertOf p).mask = ((retained s).cdt.alertOf p).mask
  events : (∀ e : Fin 4, nth t.cdt.ops.flags e = false) ∧ (∀ e : Fin 4, e ≠ evRefirmed → nth t.cdt.com.flags e = false)
    ∧ (nth t.cdt.com.flags evRefirmed = true ↔
        0 < t.cdt.derateClass
          ∧ ∃ p : Fin 72, (hourOf (retained s) p).site.firmed = true ∧ (hourOf (retained s) p).site.closed = false
              ∧ (0 < (hourOf (retained s) p).site.injectionCapacity ∨ 0 < (hourOf (retained s) p).site.withdrawalCapacity))
  accounts : t.act = (retained s).act ∧ t.cau = (retained s).cau
  nominations : t.nfu = { (retained s).nfu with hours := t.nfu.hours }
    ∧ ∀ p : Fin 72, hourOf t p =
      if 0 < t.cdt.derateClass ∧ (hourOf (retained s) p).site.firmed = true ∧ (hourOf (retained s) p).site.closed = false then
        refirmCell 0 0 (hourOf (retained s) p)
      else hourOf (retained s) p
  source : t.pif.resetKind = kind ∧ t.pif.retentionLost = (!s.pif.retainedIntact)
    ∧ t.pif.resetCount = (if s.pif.retainedIntact then min 65535 (s.pif.resetCount + 1) else 1)
    ∧ t.pif.retainedIntact = true ∧ heldInReset t = false
  queue : t.pending = s.pending ∧ t.freeReads = s.freeReads

end Sys2Proof.Safety
end

