-- ==== Sys2Proof/WellFormed.lean ====
section
/-! DEFINITION. Which commands are commands of their row: what can stand in a frame of 62 field bytes, and what a
transaction must hold to be the row's. -/

namespace Sys2Proof

/-- A request frame holds at most 62 field bytes (R194). -/
def frameFits (fields : List Byte) : Bool := decide (fields.length ≤ Config.maxFields)

/-- UNKNOWN_REQUEST stands for a frame whose length is wrong or whose code names no request (R194, R195). A code of
0x00 makes a transaction a collect (R193). -/
def isUnknownRequest (code length : Byte) (fields : List Byte) : Bool :=
  decide (code ≠ 0) &&
    (decide (Config.maxFields < length.toNat) || decide (fields.length ≠ length.toNat) || !fits code.toNat fields)

/-- An ignored transaction has fewer than two bytes, and is no collect, unless it spans a reset (R193, R194). -/
def isIgnoredTransaction (received : List Byte) (spansReset : Bool) : Bool :=
  spansReset || (decide (received.length < 2) && decide (received.head? ≠ some 0))

/-- Is the command one that its row can stand for? -/
def Instr.wellFormed : Instr → Bool
  | .setClock _ fs | .trimClock _ fs | .setFieldLine _ fs | .setSlot _ fs | .enableSlot _ fs | .disableSlot _ fs
  | .writeScript _ fs | .setPoint _ fs | .setBeta _ fs | .setCv _ fs | .ackConditions _ fs | .setDerateTable _ fs
  | .setAlert _ fs | .readEvents _ fs | .setCavern _ fs | .setCavernInventory _ fs | .setSite _ fs | .setDuty _ fs
  | .setUnit _ fs | .resetUnit _ fs | .writeStep _ fs | .selectBank _ fs | .setTrain _ fs | .resetTrain _ fs
  | .openAccount _ fs | .setRights _ fs | .closeAccount _ fs | .transfer _ fs | .settleSuspense _ fs | .nominate _ fs
  | .nominateDay _ fs | .nominateRest _ fs | .cancelNomination _ fs | .setLead _ fs | .setRatchet _ fs
  | .setAllocation _ fs | .read _ fs | .resetPart _ fs _ => frameFits fs
  | .unknownRequest _ code length fields => isUnknownRequest code length fields
  | .ignoredTransaction _ received spansReset => isIgnoredTransaction received spansReset
  | .collect _ bytes => decide (1 ≤ bytes)
  | .dataReply received | .doneReply received | .errorReply received | .badReplyFrame received => decide (received ≠ [])
  | .pin lowMicros _ => decide (10 ≤ lowMicros)
  | .heldInReset _ | .powerOn _ | .timeBaseStep | .hourBoundary | .firmPoint | .lineEngineTake | .requestTransmitted
  | .replyWindowExpiry | .changeoverMinimumExpiry | .changeoverLimitExpiry | .feedbackChange _ _ | .startTimeout _
  | .stopTimeout _ | .cooldownExpiry _ | .startListExpiry _ | .positionInputChange _ _ _ | .stepTimeExpiry _
  | .dwellExpiry _ | .inputTimeout _ | .strokeTimeout _ => true

end Sys2Proof
end

