-- ==== Sys2Proof/Certificates/Slice0/Obligations.lean ====
section
/-! DEFINITION. The statements for the provers. A state is any state of the model, reached or not; where a statement needs more, it says
so in a premise. `heldInReset s = false` says that the part is out of reset (R202). OBLIGATIONS.json lists the rules each
statement rests on. -/

open Sys2Proof Sys2Proof.Machine Sys2Proof.Safety

/-! ### Steps -/

/-- A step takes the command at the front of the queue and runs it with the queue's rest. -/
def Obligations.StepRunsFrontCommand : Prop :=
  ∀ (c : Instr) (rest : List Instr) (s : State), step (s.withPending (c :: rest)) = exec c (s.withPending rest)

/-- With no command waiting 1 ms of the fine count passes and nothing else happens, but that the hundredth such step is a step of the time
base, the very one of the command TIME_BASE_STEP, with all that R3, R101 and R133 give it (another statement says what that is); no
time passes while the part is held in reset. That a step without a command is 1 ms is the model's choice (log entry 1). -/
def Obligations.EmptyQueueCountsOneMillisecond : Prop :=
  ∀ s : State, s.pending = [] →
    (heldInReset s = true → step s = .next s)
      ∧ (heldInReset s = false → ∃ t, step s = .next t ∧ t.fine = s.fine + 1 ∧ t.pending = []
          ∧ ChangesOnly [.fine, .clock, .cpd, .dsq] s t)
      ∧ (heldInReset s = false → s.fine % 100 ≠ 99 → step s = .next (s.withFine (s.fine + 1)))
      ∧ (heldInReset s = false → s.fine % 100 = 99 →
          step s = exec .timeBaseStep s ∧ ∀ t, step s = .next t → timeBase t = timeBase s + 1)

/-- Every command has a next state: no rule of the manual stops the part. -/
def Obligations.EveryCommandHasNextState : Prop :=
  ∀ (c : Instr) (s : State), ∃ t, exec c s = .next t

/-- Held in reset, every output is off or released, and no command but HELD_IN_RESET, POWER_ON and PIN is taken (R202). That such a
command leaves the WHOLE state as it was, the volatile fields kept and the time base and the timers standing, is the model's
reading: R202 says only that nothing is taken (log entry 22, DEDUCED). -/
def Obligations.HeldPartTakesNothing : Prop :=
  (∀ (c : Instr) (s : State), heldInReset s = true → (∀ cause, c ≠ .heldInReset cause) → (∀ lines, c ≠ .powerOn lines) →
      (∀ micros lines, c ≠ .pin micros lines) → exec c s = .next s)
    ∧ ∀ s : State, heldInReset s = true →
        (∀ u, runRequest s u = false) ∧ (∀ d l, nth (dryerOutputs s d) l = false) ∧ injectionPermit s = false
          ∧ withdrawalPermit s = false ∧ driverEnabled s = false ∧ ∀ p, alertAsserted s p = false

/-! ### Ports -/

/-- The bytes of a transaction spell the command they were written for (R193, R194). Which row carries a frame that is no request,
UNKNOWN_REQUEST or IGNORED_TRANSACTION, is the model's split of the table's rows (log entry 33). -/
def Obligations.TransactionBytesSpellTheirCommand : Prop :=
  (∀ (c : Instr) (p : Port) (code : Byte) (fields : List Byte) (lines : Lines),
      requestParts c = some (p, code, fields) → c.wellFormed = true → (∀ q fs l, c = .resetPart q fs l → l = lines) →
      transactionOf p (code :: BitVec.ofNat 8 fields.length :: fields) lines = c)
    ∧ (∀ (p : Port) (code length : Byte) (fields : List Byte) (lines : Lines), code ≠ 0 →
        62 < length.toNat ∨ fields.length ≠ length.toNat ∨ layoutOf code.toNat fields = .noRequest →
        transactionOf p (code :: length :: fields) lines = .unknownRequest p code length fields)
    ∧ (∀ (p : Port) (rest : List Byte) (lines : Lines), transactionOf p (0 :: rest) lines = .collect p (rest.length + 1))
    ∧ (∀ (p : Port) (b : Byte) (lines : Lines), b ≠ 0 → transactionOf p [b] lines = .ignoredTransaction p [b] false)

/-- A number written in its bytes, most significant first, is read back from its place in the fields, unsigned and in two's complement
(R206). -/
def Obligations.NumbersReadAsWritten : Prop :=
  (∀ (before after : List Byte) (length n : Nat), n < 256 ^ length →
      num (before ++ ubytes length n ++ after) before.length length = n)
    ∧ ∀ (before after : List Byte) (length : Nat) (z : Int), -(256 ^ length : Nat) ≤ 2 * z → 2 * z < (256 ^ length : Nat) →
        snum (before ++ sbytes length z ++ after) before.length length = z

/-- The first checks of every request: a length that is not the layout's is MALFORMED, a request from the port that does not own it is
OWNER, and one that names a record there is not, or an ACK-CONDITIONS that names a condition above 55 (R66), or whose fields hold a byte
of an enumeration, a mark or a presence outside its list (R206), is MALFORMED; each changes nothing but the port (R195, R197, R198). The
place of the last check, with the MALFORMED checks and before every other, is the model's choice (log entry 12), and so are the
selectors of a READ among these bytes (log entry 17). -/
def Obligations.RequestsAreCheckedForLengthOwnerAndNumber : Prop :=
  ∀ (c : Instr) (p : Port) (code : Byte) (fields : List Byte) (s : State),
    requestParts c = some (p, code, fields) → heldInReset s = false →
    (fits code.toNat fields = false → exec c s = .next (answered p (fields.length + 2) .malformed [code] s))
      ∧ (fits code.toNat fields = true → ∀ o, ownedBy code.toNat = some o → o ≠ p →
          exec c s = .next (answered p (fields.length + 2) .owner [code] s))
      ∧ (fits code.toNat fields = true → (∀ o, ownedBy code.toNat = some o → o = p) →
          namesNone code.toNat fields = true ∨ badByte code.toNat fields = true →
          exec c s = .next (answered p (fields.length + 2) .malformed [code] s))

/-- A refused request changes nothing in any block, and its response carries the echoed code alone (R195, R197). -/
def Obligations.RefusedRequestChangesOnlyItsPort : Prop :=
  ∀ (c : Instr) (p : Port) (code : Byte) (fields : List Byte) (s t : State) (r : Response),
    requestParts c = some (p, code, fields) → heldInReset s = false → exec c s = .next t →
    (t.pif.portOf p).response = some r → r.status ≠ .ok → r.status ≠ .part →
    t = alterPort p (fun _ => t.pif.portOf p) s ∧ r.fields = [code]

/-- Every request places a response whose first field byte echoes its code, within 62 field bytes, while 0xFF is shifted out, and leaves
the other port's state to itself unless it resets the part (R193, R196, R197). -/
def Obligations.RequestResponseEchoesItsCode : Prop :=
  ∀ (c : Instr) (p : Port) (code : Byte) (fields : List Byte) (s : State),
    requestParts c = some (p, code, fields) → heldInReset s = false →
    ∃ t r, exec c s = .next t ∧ (t.pif.portOf p).response = some r ∧ r.fields.head? = some code ∧ r.fields.length ≤ 62
      ∧ (t.pif.portOf p).dataOut = List.replicate (fields.length + 2) 0xFF
      ∧ (code ≠ 0xB1 → ∀ q, q ≠ p → t.pif.portOf q = s.pif.portOf q)

/-- Frames that are no request are refused with MALFORMED or UNKNOWN, and transactions that are ignored place nothing
(R193, R194, R195). -/
def Obligations.UnknownAndIgnoredTransactions : Prop :=
  (∀ (p : Port) (code length : Byte) (fields : List Byte) (s : State), code ≠ 0 → heldInReset s = false →
      (62 < length.toNat ∨ fields.length ≠ length.toNat →
          exec (.unknownRequest p code length fields) s = .next (answered p (fields.length + 2) .malformed [code] s))
        ∧ (length.toNat ≤ 62 → fields.length = length.toNat → layoutOf code.toNat fields = .noRequest →
          exec (.unknownRequest p code length fields) s = .next (answered p (fields.length + 2) .unknown [code] s))
        ∧ (length.toNat ≤ 62 → fields.length = length.toNat → layoutOf code.toNat fields ≠ .noRequest → fits code.toNat fields = false →
          exec (.unknownRequest p code length fields) s = .next (answered p (fields.length + 2) .malformed [code] s)))
    ∧ (∀ (p : Port) (received : List Byte) (s : State), heldInReset s = false → received.length < 2 → received.head? ≠ some 0 →
        exec (.ignoredTransaction p received false) s
          = .next (alterPort p (fun x => { x with dataOut := List.replicate received.length 0xFF }) s))
    ∧ ∀ (p : Port) (received : List Byte) (s : State), exec (.ignoredTransaction p received true) s = .next s

/-- A collect shifts out 0xFF, then the held response or the empty marker and a length of 0, then 0xFF; a complete collect empties the
buffer and a short one leaves it (R196). -/
def Obligations.CollectShiftsOutTheResponse : Prop :=
  ∀ (p : Port) (bytes : Nat) (s : State), heldInReset s = false → 1 ≤ bytes →
    (∀ r, (s.pif.portOf p).response = some r →
        exec (.collect p bytes) s
          = .next (alterPort p
              (fun x => { x with
                dataOut := (0xFF :: r.status.byte :: BitVec.ofNat 8 r.fields.length :: (r.fields ++ List.replicate bytes 0xFF)).take bytes
                response := if r.fields.length + 3 ≤ bytes then none else some r }) s))
      ∧ ((s.pif.portOf p).response = none →
        exec (.collect p bytes) s
          = .next (alterPort p
              (fun x => { x with dataOut := (0xFF :: 0xFF :: 0x00 :: List.replicate bytes 0xFF).take bytes }) s))

/-- A READ with part 0 forms the report with the elapsed time first and answers its first piece; a later part answers that piece of the
image held; an image that does not match is STATE, and a part past the last is RANGE. The pieces of a report, in order, are the
report; no piece exceeds 58 bytes, the last is OK and every other PARTIAL. A selector that is refused discards the image (R199,
R200). The items of eight classes are spelled: the clock, with its times 0 in UNSET (R13), runs of the condition table (R78), of a
shipper's hour entries and of the site hour table (R174), an account by slot or by code and the account totals (R152), a history record by
position or by hour (R192) and the reset source (R204). The bytes of each item are R206's. Four points of these layouts are the model's
choices, log entry 15: that the clock carries the time base beside the report's own; that a run whose number of entries the selector gives
(conditions, hour entries, site hours) carries no count byte; that an account and a history record are each one group behind one presence
byte, 0 for a code or a record there is not; and the order of the three counts of slots. That a READ of a channel the slot does not have
is taken, and reports bytes of which nothing is known, is the model's choice too (log entry 5). -/
def Obligations.ReadAnswersPiecesOfItsReport : Prop :=
  (∀ (p : Port) (fields items : List Byte) (s formed : State), heldInReset s = false → fits 0xB0 fields = true →
    (select s (byteAt fields 0) (fields.drop 2) = .items items ∧ formed = s)
      ∨ (select s (byteAt fields 0) (fields.drop 2) = .missingChannel ∧ items = (Config.missingChannelReport s.freeReads).take 923
          ∧ formed = s.withFreeReads (s.freeReads + 1)) →
    (byteAt fields 1 = 0 →
        exec (.read p fields) s
          = .next (alterPort p
              (fun _ =>
                ⟨some (pieceResponse ⟨byteAt fields 0, fields.drop 2, ubytes 5 (s.fine / 100) ++ items⟩ 0),
                  some ⟨byteAt fields 0, fields.drop 2, ubytes 5 (s.fine / 100) ++ items⟩, List.replicate (fields.length + 2) 0xFF⟩)
              formed))
      ∧ (∀ image, 1 ≤ byteAt fields 1 → (s.pif.portOf p).image = some image → image.itemClass = byteAt fields 0 →
          image.selector = fields.drop 2 →
          (byteAt fields 1 < partsOf image.report →
              exec (.read p fields) s
                = .next (alterPort p
                    (fun _ => ⟨some (pieceResponse image (byteAt fields 1)), some image, List.replicate (fields.length + 2) 0xFF⟩) s))
            ∧ (partsOf image.report ≤ byteAt fields 1 →
              exec (.read p fields) s
                = .next (alterPort p (fun _ => ⟨some ⟨.range, [0xB0]⟩, some image, List.replicate (fields.length + 2) 0xFF⟩) s)))
      ∧ (1 ≤ byteAt fields 1 →
          (∀ image, (s.pif.portOf p).image = some image → image.itemClass ≠ byteAt fields 0 ∨ image.selector ≠ fields.drop 2) →
          exec (.read p fields) s = .next (answered p (fields.length + 2) .state [0xB0] s)))
    ∧ (∀ (p : Port) (fields : List Byte) (status : Status) (s : State), heldInReset s = false → fits 0xB0 fields = true →
        select s (byteAt fields 0) (fields.drop 2) = .refused status →
        exec (.read p fields) s = .next (answered p (fields.length + 2) status [0xB0] s))
    ∧ (∀ (sel : List Byte) (s : State),
        select s 1 sel = .items
            ((if clockRunning s then 1 :: (ubytes 2 s.clock.day ++ ubytes 4 s.clock.seconds ++ ubytes 1 s.clock.tenths)
                else List.replicate 8 0)
              ++ ubytes 5 (s.fine / 100)
              ++ (match s.clock.lastClosed with
                  | some h => 1 :: (ubytes 2 h.day ++ ubytes 1 h.hour)
                  | none => [0, 0, 0, 0])
              ++ [if s.clock.trimmed then 1 else 0])
          ∧ select s 19 sel = .items
              (sbytes 6 s.act.book ++ sbytes 6 s.act.suspense ++ sbytes 6 (sumInt fun a : Fin 16 => (accountOf s a).inventory)
                ++ [AccountState.vacant, .active, .closing].flatMap fun x =>
                    ubytes 1 (countFin fun a : Fin 16 => decide ((accountOf s a).state = x)))
          ∧ select s 25 sel = .items
              ((match s.pif.resetKind with
                  | .powerOn => 0
                  | .pin => 1
                  | .command => 2)
                :: (if s.pif.retentionLost then 1 else 0) :: ubytes 2 s.pif.resetCount))
    ∧ (∀ (first count : Byte) (s : State),
        (56 ≤ first.toNat ∨ count.toNat = 0 ∨ 56 < first.toNat + count.toNat → select s 9 [first, count] = .refused .range)
          ∧ (1 ≤ count.toNat → first.toNat + count.toNat ≤ 56 →
            ∃ (items : List Byte) (entry : Nat → List Byte), select s 9 [first, count] = .items items
              ∧ spellsRun items 4 count.toNat entry
              ∧ ∀ (i : Nat) (n : Fin 56), n.val = first.toNat + i →
                entry i
                  = [BitVec.ofNat 8 (nth s.cdt.conditions n).level, markOf (nth s.cdt.conditions n).active,
                      markOf (nth s.cdt.conditions n).pendingOps, markOf (nth s.cdt.conditions n).pendingCom]))
    ∧ (∀ (slot row first count : Byte) (s : State), row.toNat ≤ 2 →
        (24 ≤ first.toNat ∨ count.toNat = 0 ∨ 24 < first.toNat + count.toNat →
            select s 20 [slot, row, first, count] = .refused .range ∧ select s 21 [row, first, count] = .refused .range)
          ∧ (16 ≤ slot.toNat ∨ 3 < count.toNat → select s 20 [slot, row, first, count] = .refused .range)
          ∧ (4 < count.toNat → select s 21 [row, first, count] = .refused .range)
          ∧ (1 ≤ count.toNat → first.toNat + count.toNat ≤ 24 →
            (count.toNat ≤ 3 → ∀ a : Fin 16, a.val = slot.toNat →
                ∃ (items : List Byte) (entry : Nat → List Byte), select s 20 [slot, row, first, count] = .items items
                  ∧ spellsRun items 23 count.toNat entry
                  ∧ ∀ (i : Nat) (p : Fin 72), p.val = 24 * row.toNat + first.toNat + i → entry i = entryReport (entryOf s p a))
              ∧ (count.toNat ≤ 4 →
                ∃ (items : List Byte) (entry : Nat → List Byte), select s 21 [row, first, count] = .items items
                  ∧ spellsRun items 17 count.toNat entry
                  ∧ ∀ (i : Nat) (p : Fin 72), p.val = 24 * row.toNat + first.toNat + i → entry i = siteHourReport (hourOf s p).site)))
    ∧ (∀ (high low : Byte) (value : Nat) (s : State), value = 256 * high.toNat + low.toNat →
        (16 ≤ value → select s 18 [0, high, low] = .refused .range) ∧ (value = 0 → select s 18 [1, high, low] = .refused .range)
          ∧ (∀ a : Fin 16, a.val = value → select s 18 [0, high, low] = .items (1 :: accountReport s a))
          ∧ (1 ≤ value →
            ((∀ a, (accountOf s a).held = true → (accountOf s a).code ≠ some value) →
                select s 18 [1, high, low] = .items (List.replicate 38 0))
              ∧ ∀ a, (accountOf s a).held = true → (accountOf s a).code = some value →
                (∀ b, (accountOf s b).held = true → (accountOf s b).code = some value → b = a) →
                select s 18 [1, high, low] = .items (1 :: accountReport s a)))
    ∧ (∀ (position high low hour : Byte) (s : State),
        (48 ≤ position.toNat → select s 23 [0, position, high, low, hour] = .refused .range)
          ∧ (24 ≤ hour.toNat → select s 23 [1, position, high, low, hour] = .refused .range)
          ∧ (position.toNat ≤ 47 →
            (s.cau.history.length ≤ position.toNat → select s 23 [0, position, high, low, hour] = .items (List.replicate 67 0))
              ∧ ∀ older r newer, s.cau.history = older ++ r :: newer → newer.length = position.toNat →
                select s 23 [0, position, high, low, hour] = .items (1 :: recordReport r))
          ∧ (hour.toNat ≤ 23 → ∀ h : HourId, h = ⟨256 * high.toNat + low.toNat, hour.toNat⟩ →
            ((∀ r ∈ s.cau.history, r.hour ≠ h) → select s 23 [1, position, high, low, hour] = .items (List.replicate 67 0))
              ∧ ∀ r ∈ s.cau.history, r.hour = h → (∀ x ∈ s.cau.history, x.hour = h → x = r) →
                select s 23 [1, position, high, low, hour] = .items (1 :: recordReport r)))
    ∧ (∀ (slot channel : Byte) (s : State),
        (16 ≤ slot.toNat ∨ 4 ≤ channel.toNat → select s 4 [slot, channel] = .refused .range)
          ∧ ∀ n : Fin 16, n.val = slot.toNat → channel.toNat ≤ 3 → (slotOf s n).settings.channels.length ≤ channel.toNat →
            select s 4 [slot, channel] = .missingChannel)
    ∧ ∀ (image : ReadImage),
    (List.range (partsOf image.report)).flatMap (pieceOf image.report) = image.report
      ∧ ∀ k, (pieceOf image.report k).length ≤ 58
          ∧ (pieceResponse image k).fields
              = [0xB0, BitVec.ofNat 8 image.itemClass, BitVec.ofNat 8 k, BitVec.ofNat 8 (partsOf image.report)] ++ pieceOf image.report k
          ∧ (k < partsOf image.report →
            (pieceResponse image k).status = if k + 1 = partsOf image.report then .ok else .part)

/-! ### Gas-day clock -/

/-- SET-CLOCK is refused with STATE while the clock runs and with RANGE outside the times that R7 admits. Each kind of set brings gas-day
time to the set time, fires the overdue firms from the set hour on, takes the unclocked measurement into the set hour with RESTART, and
starts it, with the CV latched, a pending lead in effect, and the direction, the trains and the duty of its confirmed net (R4, R10, R54,
R56, R89, R106, R161). A first set closes no hour and keeps the accounts and every row. A set over missed hours leaves an OUTAGE
record of each, firms at zero those that were unfirmed, closes all of them and rolls the rows over after an hour 23 (R8, R155). An
abandoning set clears every row and the site hour table, closes no hour and keeps the accounts and the history (R9). That an abandoning
set answers 0 missed hours is the model's reading (log entry 31, DEDUCED). -/
def Obligations.SetClockSetsGasDayTime : Prop :=
  ∀ (fields : List Byte) (abandon : Bool) (s : State), heldInReset s = false → fits 0x10 fields = true → mark fields 6 = some abandon →
    (clockRunning s = true → exec (.setClock .ops fields) s = .next (answered .ops 9 .state [0x10] s))
      ∧ (clockRunning s = false → 86399 < num fields 2 4 → exec (.setClock .ops fields) s = .next (answered .ops 9 .range [0x10] s))
      ∧ (clockRunning s = false → num fields 2 4 ≤ 86399 → s.clock.lastClosed = none →
          ∃ t, exec (.setClock .ops fields) s = .next t ∧ clockSet fields 0 false s t ∧ t.act = s.act ∧ t.cau = s.cau
            ∧ hoursStand fields s t ∧ t.nfu.todayDay = some (s.nfu.todayDay.getD (num fields 0 2)))
      ∧ ∀ h, clockRunning s = false → num fields 2 4 ≤ 86399 → s.clock.lastClosed = some h → hourInRange h →
          (forwardDistance h ⟨num fields 0 2, num fields 2 4 / 3600⟩ = 0
              ∨ 786432 < forwardDistance h ⟨num fields 0 2, num fields 2 4 / 3600⟩
              ∨ (49 ≤ forwardDistance h ⟨num fields 0 2, num fields 2 4 / 3600⟩ ∧ abandon = false) →
              exec (.setClock .ops fields) s = .next (answered .ops 9 .range [0x10] s))
            ∧ (1 ≤ forwardDistance h ⟨num fields 0 2, num fields 2 4 / 3600⟩ →
              forwardDistance h ⟨num fields 0 2, num fields 2 4 / 3600⟩ ≤ 48 →
              ∃ t, exec (.setClock .ops fields) s = .next t
                ∧ clockSet fields (forwardDistance h ⟨num fields 0 2, num fields 2 4 / 3600⟩ - 1) false s t
                ∧ missedHoursClosed (forwardDistance h ⟨num fields 0 2, num fields 2 4 / 3600⟩ - 1) h fields s t)
            ∧ (49 ≤ forwardDistance h ⟨num fields 0 2, num fields 2 4 / 3600⟩ →
              forwardDistance h ⟨num fields 0 2, num fields 2 4 / 3600⟩ ≤ 786432 → abandon = true →
              ∃ t, exec (.setClock .ops fields) s = .next t ∧ clockSet fields 0 true s t ∧ t.act = s.act ∧ t.cau = s.cau
                ∧ hoursAbandoned fields s t ∧ t.nfu.todayDay = some (num fields 0 2))

/-- TRIM-CLOCK moves gas-day time by its shift; one that would reach or cross a marked instant behind is refused with STATE (R11). A shift
that crosses a marked instant ahead raises its event on the moved time, the very one of the command HOUR_BOUNDARY or FIRM_POINT: a firm
point firms its hour with HOUR_FIRMED set, unless it is firmed already; at an hour boundary the trimmed mark is set before the event, so
that the closed hour's record carries TRIMMED, and again after it (R12). What the two events do beside is said in other statements. -/
def Obligations.TrimClockMovesGasDayTime : Prop :=
  ∀ (fields : List Byte) (s : State), heldInReset s = false → fits 0x11 fields = true →
    (clockRunning s = false → exec (.trimClock .ops fields) s = .next (answered .ops 3 .clock [0x11] s))
      ∧ (clockRunning s = true → snum fields 0 1 < -120 ∨ 120 < snum fields 0 1 →
          exec (.trimClock .ops fields) s = .next (answered .ops 3 .range [0x11] s))
      ∧ (clockRunning s = true → snum fields 0 1 = 0 → exec (.trimClock .ops fields) s = .next (accepted .ops 0x11 1 s))
      ∧ (clockRunning s = true → s.clock.seconds < 86400 → -120 ≤ snum fields 0 1 → snum fields 0 1 < 0 →
          (s.clock.seconds + snum fields 0 1 ≤ (s.clock.seconds / 1800 * 1800 : Nat) →
              exec (.trimClock .ops fields) s = .next (answered .ops 3 .state [0x11] s))
            ∧ ((s.clock.seconds / 1800 * 1800 : Nat) < s.clock.seconds + snum fields 0 1 →
              exec (.trimClock .ops fields) s
                = .next (accepted .ops 0x11 1
                    (s.withClock { s.clock with seconds := (s.clock.seconds + snum fields 0 1).toNat, trimmed := true }))))
      ∧ ∀ n : Nat, clockRunning s = true → s.clock.seconds < 86400 → snum fields 0 1 = n → 1 ≤ n → n ≤ 120 →
          ((s.clock.seconds + n) / 1800 = s.clock.seconds / 1800 →
              exec (.trimClock .ops fields) s
                = .next (accepted .ops 0x11 1 (s.withClock { s.clock with seconds := s.clock.seconds + n, trimmed := true })))
            ∧ ∀ moved : State,
              moved = s.withClock { s.clock with
                day := if s.clock.seconds + n < 86400 then s.clock.day else (s.clock.day + 1) % 65536
                seconds := (s.clock.seconds + n) % 86400, trimmed := true } →
              ((s.clock.seconds + n) / 3600 = s.clock.seconds / 3600 → (s.clock.seconds + n) / 1800 ≠ s.clock.seconds / 1800 →
                  exec (.trimClock .ops fields) s = .next (accepted .ops 0x11 1 (firmPointEvent moved))
                    ∧ (firmPointReached moved = true → exec .firmPoint moved = .next (firmPointEvent moved))
                    ∧ ∀ l q, s.clock.lastClosed = some l → q.val = (todayPosition l.next.hour).val + s.nfu.lead →
                      ((hourOf s q).site.firmed = false →
                          (hourOf (firmPointEvent moved) q).site.firmed = true
                            ∧ nth (firmPointEvent moved).cdt.com.flags evHourFirmed = true
                            ∧ (∀ r, r ≠ q → hourOf (firmPointEvent moved) r = hourOf s r)
                            ∧ ChangesOnly [.cdt, .nfu] moved (firmPointEvent moved))
                        ∧ ((hourOf s q).site.firmed = true → firmPointEvent moved = moved))
                ∧ ∀ l, (s.clock.seconds + n) / 3600 ≠ s.clock.seconds / 3600 → s.clock.lastClosed = some l →
                  ∃ t r, t = hourBoundaryEvent moved
                    ∧ exec (.trimClock .ops fields) s = .next (accepted .ops 0x11 1 (t.withClock { t.clock with trimmed := true }))
                    ∧ (boundaryDue moved = true → exec .hourBoundary moved = .next t)
                    ∧ t.clock = { moved.clock with lastClosed := some l.next, trimmed := false }
                    ∧ t.cau.history.getLast? = some r ∧ r.hour = l.next ∧ r.trimmed = true ∧ r.outage = false
                    ∧ ChangesOnly [.clock, .mtu, .cdt, .dir, .cpd, .dsq, .act, .nfu, .cau] moved t

/-- A step of the time base advances the elapsed time by one, gas-day time by a tenth while the clock runs, the run tenths of RUNNING
units and the off-spec tenths of off-spec trains, and nothing else (R1, R3, R101, R133). -/
def Obligations.TimeBaseStepCounts : Prop :=
  ∀ s : State, heldInReset s = false →
    ∃ t, exec .timeBaseStep s = .next t ∧ ChangesOnly [.fine, .clock, .cpd, .dsq] s t
      ∧ timeBase t = timeBase s + 1 ∧ t.fine % 100 = 0
      ∧ (clockRunning s = false → t.clock = s.clock)
      ∧ (clockRunning s = true →
          t.clock =
            if s.clock.tenths + 1 < 10 then { s.clock with tenths := s.clock.tenths + 1 }
            else if s.clock.seconds + 1 < 86400 then { s.clock with tenths := 0, seconds := s.clock.seconds + 1 }
            else { s.clock with tenths := 0, seconds := 0, day := (s.clock.day + 1) % 65536 })
      ∧ (∀ u, unitOf t u =
          if (unitOf s u).state = .running then
            if (unitOf s u).runTenths + 1 < 10 then { unitOf s u with runTenths := (unitOf s u).runTenths + 1 }
            else { unitOf s u with runTenths := 0, runSeconds := min 4294967295 ((unitOf s u).runSeconds + 1) }
          else unitOf s u)
      ∧ t.cpd = { s.cpd with units := t.cpd.units } ∧ t.dsq = { s.dsq with trains := t.dsq.trains }
      ∧ ∀ d, trainOf t d =
          if clockRunning s = true ∧ (trainOf s d).offSpec = true then
            { trainOf s d with offSpecTenths := (trainOf s d).offSpecTenths + 1 }
          else trainOf s d

/-- The hour boundary closes the open hour: its record is the newest of the history, the book inventory takes the measured net less the
fuel, the accumulators start from 0, HOUR_CLOSED is set on both ports. After hour 23 the rows roll over (R155). The next hour starts: the
CV is latched (R56), a pending lead comes into effect with its overdue firms (R161), and the site takes the direction of the hour's
confirmed net (R89): a turn begins a changeover, and a changeover to the hour's own target keeps its record, unless the stop of a unit at
the boundary is the event at which the three tests of R90 hold. The units and trains follow the direction (R92, R108, R128), and the start
takes a duty evaluation (R106). That the command changes nothing while no boundary is due is the model's choice (log entry 2). -/
def Obligations.HourBoundaryClosesTheOpenHour : Prop :=
  (∀ (s : State) (l : HourId), heldInReset s = false → clockRunning s = true → s.clock.lastClosed = some l → boundaryDue s = true →
      ∃ t r, exec .hourBoundary s = .next t
        ∧ t.clock = { s.clock with lastClosed := some l.next, trimmed := false }
        ∧ t.cau.history.getLast? = some r ∧ r.hour = l.next ∧ r.outage = false ∧ r.trimmed = s.clock.trimmed ∧ r.cv = s.mtu.latchedCv
        ∧ r.mode = s.cau.mode
        ∧ t.act.book
            = wrapTotal (s.act.book + (measuredNet (hourMetering (bookOpenGaps s).mtu) - energyFuel (hourMetering (bookOpenGaps s).mtu)))
        ∧ (∀ k, (pointOf t k).forward.hourVolume = 0 ∧ (hasReverse k = true → (pointOf t k).reverse.hourVolume = 0)
              ∧ (pointOf t k).estimatedTenths = 0)
        ∧ t.mtu.startTime = some (timeBase s)
        ∧ nth t.cdt.com.flags evHourClosedCom = true ∧ nth t.cdt.ops.flags evHourClosedOps = true
        ∧ ChangesOnly [.clock, .mtu, .cdt, .dir, .cpd, .dsq, .act, .nfu, .cau] s t
        ∧ (l.next.hour ≠ 23 → t.nfu.todayDay = s.nfu.todayDay)
        ∧ (l.next.hour = 23 →
            t.nfu.todayDay = s.nfu.todayDay.map (fun d => (d + 1) % 65536) ∧ nth t.cdt.com.flags evDayRolled = true
              ∧ (∀ (p q : Fin 72) (a : Fin 16), q.val = p.val + 24 → (accountOf t a).state = (accountOf s a).state →
                  (entryOf t p a).requested = (entryOf s q a).requested)
              ∧ ∀ (p : Fin 72) (a : Fin 16), 48 ≤ p.val → (entryOf t p a).requested = none)
        ∧ hourStarted (todayPosition l.next.next.hour) s t
        ∧ t.mtu.flags = { MeterFlags.clear with cvHeld := conditionActive t condCv } ∧ ∀ d, (trainOf t d).offSpecTenths = 0)
    ∧ ∀ s : State, boundaryDue s = false → exec .hourBoundary s = .next s

/-- The close of the open hour allocates its measured net by the mode in force, charges the fuel, and posts both: each inventory changes
by the allocation less the fuel and the suspense balance by the rest, the hour's entries keep both and the hour is closed, each cavern
takes its net within 0 to 4,000,000,000, METER_DIFF follows the reconciliation difference, and then a CLOSING slot without inventory and without an unclosed confirmation, as that
report leaves them with the re-firm of a rise, becomes VACANT, its entries cleared (R145, R175 to R187). That this
re-firm is taken within part 7, with the rise, is the model's reading (log entry 10). Each energy is the volume of a direction, its
open gaps booked, times the latched CV over 10⁹, rounded half up and cut to 100,000,000 (R55). The record holds what was formed, the
estimated and off-spec seconds (R55, R133) and every flag of R185: those of the metering, ESTIMATED with an open gap and CLAMPED with a
cut energy, OFF_SPEC, the hour's CURTAILED and REFIRMED, TRIMMED, and no OUTAGE. -/
def Obligations.CloseAllocatesAndPosts : Prop :=
  ∀ (s : State) (l : HourId) (m : HourMetering) (p after : Fin 72) (q : Vector Int 16) (differ : Bool) (told : State),
    heldInReset s = false → clockRunning s = true →
    s.clock.lastClosed = some l → boundaryDue s = true → m = hourMetering (bookOpenGaps s).mtu → p = todayPosition l.next.hour →
    (after.val = if l.next.hour = 23 then p.val - 24 else p.val) → q = closingQuantity s p →
    differ = decide ((s.dir.site.tolerance : Int) < |measuredNet m - energyFuel m - sumInt (nth (cavernNets m))|) →
    told = report condMeterDiff differ s →
    ∃ t al fu r, exec .hourBoundary s = .next t
      ∧ (s.cau.mode = .asNominated → al = q)
      ∧ (s.cau.mode = .proRata → ProRataAllocated s q (measuredNet m) al)
      ∧ FuelCharged s q al (energyFuel m) fu
      ∧ (∀ a, (accountOf s a).state = .vacant → accountOf t a = accountOf s a)
      ∧ (∀ a, (accountOf s a).state = .active →
          accountOf t a = { accountOf s a with inventory := (accountOf s a).inventory + (nth al a - nth fu a) })
      ∧ (∀ a, (accountOf s a).state = .closing →
          ((accountOf s a).inventory + (nth al a - nth fu a) = 0
              ∧ (∀ h : Fin 72, h ≠ p → (hourOf s h).site.closed = true ∨ confirmedOf told h a = 0) →
              accountOf t a = Account.vacant ∧ ∀ h, entryOf t h a = HourEntry.clear)
            ∧ ((accountOf s a).inventory + (nth al a - nth fu a) ≠ 0
              ∨ (∃ h : Fin 72, h ≠ p ∧ (hourOf s h).site.closed = false ∧ confirmedOf told h a ≠ 0) →
              accountOf t a = { accountOf s a with inventory := (accountOf s a).inventory + (nth al a - nth fu a) }))
      ∧ t.act.suspense
          = wrapTotal (s.act.suspense + (measuredNet m - energyFuel m - sumInt fun a : Fin 16 => nth al a - nth fu a))
      ∧ (hourOf t after).site.closed = true
      ∧ (∀ a, (accountOf t a).held = true →
          (entryOf t after a).allocated = some (nth al a) ∧ (entryOf t after a).fuel = some (nth fu a))
      ∧ (∀ k : Fin 4, ((cavernOf t k).gas : Int) = max 0 (min 4000000000 ((cavernOf s k).gas + nth (cavernNets m) k)))
      ∧ conditionActive t condMeterDiff = differ
      ∧ t.cau.history.getLast? = some r ∧ r.hour = l.next
      ∧ r.energyIn = nth m.forward 0 + nth m.forward 1 ∧ r.energyOut = nth m.reverse 0 + nth m.reverse 1
      ∧ r.energyFuel = nth m.forward 2 ∧ r.net = sumInt (nth q) ∧ r.cavernNets = cavernNets m
      ∧ r.difference = measuredNet m - energyFuel m - sumInt (nth (cavernNets m))
      ∧ r.suspensePosting = measuredNet m - energyFuel m - sumInt (fun a : Fin 16 => nth al a - nth fu a)
      ∧ r.fuelToSuspense = energyFuel m - sumInt (nth fu)
      ∧ (∀ k : Fin 7,
          hourEnergy (pointOf (bookOpenGaps s) k).forward.hourVolume s.mtu.latchedCv (nth m.forward k)
            ∧ (hasReverse k = true →
                hourEnergy (pointOf (bookOpenGaps s) k).reverse.hourVolume s.mtu.latchedCv (nth m.reverse k))
            ∧ (hasReverse k = false → nth m.reverse k = 0))
      ∧ (∃ x, r.estimatedSeconds = min 3600 x ∧ (∀ k : Fin 7, (pointOf (bookOpenGaps s) k).estimatedTenths / 10 ≤ x)
          ∧ ∃ k : Fin 7, (pointOf (bookOpenGaps s) k).estimatedTenths / 10 = x)
      ∧ (∀ d : Fin 2, nth r.offSpecSeconds d = min 3600 ((trainOf s d).offSpecTenths / 10) ∧ (trainOf t d).offSpecTenths = 0)
      ∧ (r.flags.estimated = true ↔ s.mtu.flags.estimated = true ∨ ∃ k, (pointOf s k).gap ≠ none)
      ∧ (r.flags.clamped = true ↔
          s.mtu.flags.clamped = true
            ∨ ∃ (k : Fin 7) (volume raw : Nat),
                (volume = (pointOf (bookOpenGaps s) k).forward.hourVolume
                    ∨ (hasReverse k = true ∧ volume = (pointOf (bookOpenGaps s) k).reverse.hourVolume))
                  ∧ roundsTo (volume * s.mtu.latchedCv) 1000000000 raw ∧ 100000000 < raw)
      ∧ r.flags.cvHeld = s.mtu.flags.cvHeld ∧ r.flags.rebased = s.mtu.flags.rebased ∧ r.flags.restart = s.mtu.flags.restart
      ∧ (r.offSpec = true ↔ ∃ d, 0 < nth r.offSpecSeconds d)
      ∧ r.curtailed = (hourOf s p).site.curtailed ∧ r.refirmed = (hourOf s p).site.refirmed ∧ r.trimmed = s.clock.trimmed
      ∧ r.outage = false ∧ r.cv = s.mtu.latchedCv ∧ r.mode = s.cau.mode
      ∧ (s.cau.history.length ≤ 48 → t.cau.history.length = min 48 (s.cau.history.length + 1))

/-- The firm point of the open hour fires the hour that lies the lead in effect after it: it is firmed and HOUR_FIRMED is set, unless it is
firmed already, when nothing is changed (R5). That the command changes nothing while the firm point is not reached or the clock is
UNSET is the model's choice (log entry 2). -/
def Obligations.FirmPointFirmsTheHourAhead : Prop :=
  (∀ (s : State) (p q : Fin 72), heldInReset s = false → clockRunning s = true → firmPointReached s = true → openPosition s = some p →
      q.val = p.val + s.nfu.lead →
      ((hourOf s q).site.firmed = false →
          ∃ t, exec .firmPoint s = .next t ∧ (hourOf t q).site.firmed = true ∧ nth t.cdt.com.flags evHourFirmed = true
            ∧ (∀ r, r ≠ q → hourOf t r = hourOf s r) ∧ ChangesOnly [.cdt, .nfu] s t)
        ∧ ((hourOf s q).site.firmed = true → exec .firmPoint s = .next s))
    ∧ ∀ s : State, clockRunning s = false ∨ firmPointReached s = false → exec .firmPoint s = .next s

/-! ### Field line and device slots -/

/-- SET-FIELD-LINE stores a reply window of 5 to 200 ms, and WRITE-SCRIPT writes its run of 1 to 8 entries within the 64 and no other
(R15, R23). -/
def Obligations.FieldLineSettingsAreStored : Prop :=
  (∀ (w : Byte) (s : State), heldInReset s = false →
      (5 ≤ w.toNat ∧ w.toNat ≤ 200 →
          exec (.setFieldLine .ops [w]) s = .next (accepted .ops 0x20 1 (s.withFsu { s.fsu with window := w.toNat })))
        ∧ (w.toNat < 5 ∨ 200 < w.toNat → exec (.setFieldLine .ops [w]) s = .next (answered .ops 3 .range [0x20] s)))
    ∧ (∀ (fields : List Byte) (s : State), heldInReset s = false → fits 0x24 fields = true →
        (byteAt fields 1 = 0 ∨ 8 < byteAt fields 1 →
            exec (.writeScript .ops fields) s = .next (answered .ops (fields.length + 2) .malformed [0x24] s))
          ∧ (1 ≤ byteAt fields 1 → byteAt fields 1 ≤ 8 → 64 < byteAt fields 0 + byteAt fields 1 →
            exec (.writeScript .ops fields) s = .next (answered .ops (fields.length + 2) .range [0x24] s)))
    ∧ ∀ (start : Nat) (entries : List ScriptEntry) (s : State), heldInReset s = false → 1 ≤ entries.length → entries.length ≤ 8 →
        start + entries.length ≤ 64 → (∀ e ∈ entries, e.register < 65536 ∧ e.value < 65536) →
        ∃ script : Vector ScriptEntry 64,
          exec (.writeScript .ops
              (ubytes 1 start ++ ubytes 1 entries.length ++ entries.flatMap fun e => ubytes 2 e.register ++ ubytes 2 e.value)) s
            = .next (accepted .ops 0x24 (2 + 4 * entries.length) (s.withFsu { s.fsu with script := script }))
          ∧ ∀ i : Fin 64, nth script i =
              if start ≤ i.val ∧ i.val < start + entries.length then (entries[i.val - start]?).getD ⟨0, 0⟩ else nth s.fsu.script i

/-- SET-SLOT: settings out of range or that do not fit together, a count of channels outside 1 to 4 among them, are RANGE, a bound slot that
is not DISABLED is IN_USE, a DISABLED slot takes the settings and nothing else, and an unbound slot that is enabled restarts in INIT with
its first visit due now, a transaction in flight for it discarded and its two conditions inactive (R19, R20, R37). That the restart keeps
the last device error is the model's reading (log entry 30, DEDUCED). -/
def Obligations.SetSlotStoresAndRestarts : Prop :=
  ∀ (fields : List Byte) (n : Fin 16) (c : SlotSettings) (s : State), heldInReset s = false → fits 0x21 fields = true →
    index? 16 (byteAt fields 0) = some n → readSlotSettings fields = some c →
    (byteAt fields 5 = 0 ∨ 4 < byteAt fields 5 →
        exec (.setSlot .ops fields) s = .next (answered .ops (fields.length + 2) .range [0x21] s))
      ∧ (¬ slotSettingsInRange c → exec (.setSlot .ops fields) s = .next (answered .ops (fields.length + 2) .range [0x21] s))
      ∧ (slotSettingsInRange c → (slotOf s n).state = .disabled →
          exec (.setSlot .ops fields) s
            = .next (accepted .ops 0x21 fields.length (alterSlot n (fun sl => { sl with settings := c }) s)))
      ∧ (slotSettingsInRange c → (slotOf s n).state ≠ .disabled → isBound s n →
          exec (.setSlot .ops fields) s = .next (answered .ops (fields.length + 2) .inUse [0x21] s))
      ∧ (slotSettingsInRange c → (slotOf s n).state ≠ .disabled → ¬ isBound s n →
          ∃ t, exec (.setSlot .ops fields) s = .next t
            ∧ slotOf t n = freshSlot (slotOf s n).enabled c (slotOf s n).lastError s.fine
            ∧ (∀ m, m ≠ n → slotOf t m = slotOf s m)
            ∧ t.fsu.queue = enqueue ⟨n, s.fine, firstOfInit c, 0, 0⟩ (dequeue n s.fsu.queue)
            ∧ (∀ f, s.fsu.engine = .awaitReply f → t.fsu.engine = .awaitReply { f with discarded := f.discarded || decide (f.entry.slot = n) })
            ∧ t.fsu.script = s.fsu.script ∧ t.fsu.window = s.fsu.window
            ∧ conditionActive t (condThreshold n) = false ∧ conditionActive t (condDevice n) = false
            ∧ t.pif = (accepted .ops 0x21 fields.length s).pif
            ∧ ChangesOnly [.pif, .fsu, .cdt, .dir, .cpd, .dsq, .nfu, .freeReads] s t)

/-- A slot number above 15 is MALFORMED. ENABLE-SLOT: a slot that is not DISABLED is STATE, one whose channels do not suit a binding is
IN_USE, and else the slot enters INIT with its first visit due now (R21, R37). DISABLE-SLOT: a DISABLED slot is STATE, and else the slot
is DISABLED with its channels NONE, its entry removed, a transaction in flight for it discarded, its two conditions inactive, its readers
follow the lost channels (R81, R132, R90), and the point bound to it has its gap closed by a last booking and no baselines, rates and
fresh marks in both directions (R22, R53). That ENABLE-SLOT keeps the last device error is the model's reading (log entry 30, DEDUCED). -/
def Obligations.EnableAndDisableSlotStartAndEndItsVisits : Prop :=
  (∀ (fields : List Byte) (s : State), heldInReset s = false → fields.length = 1 → 15 < byteAt fields 0 →
    exec (.enableSlot .ops fields) s = .next (answered .ops 3 .malformed [0x22] s)
      ∧ exec (.disableSlot .ops fields) s = .next (answered .ops 3 .malformed [0x23] s))
    ∧ (∀ (n : Fin 16) (s : State), heldInReset s = false →
    ((slotOf s n).state ≠ .disabled → exec (.enableSlot .ops (ubytes 1 n.val)) s = .next (answered .ops 3 .state [0x22] s))
      ∧ ((slotOf s n).state = .disabled → ¬ suitsBindings s n →
          exec (.enableSlot .ops (ubytes 1 n.val)) s = .next (answered .ops 3 .inUse [0x22] s))
      ∧ ((slotOf s n).state = .disabled → suitsBindings s n →
          ∃ t, exec (.enableSlot .ops (ubytes 1 n.val)) s = .next t
            ∧ slotOf t n = freshSlot true (slotOf s n).settings (slotOf s n).lastError s.fine
            ∧ (∀ m, m ≠ n → slotOf t m = slotOf s m)
            ∧ t.fsu.queue = enqueue ⟨n, s.fine, firstOfInit (slotOf s n).settings, 0, 0⟩ s.fsu.queue
            ∧ t.fsu.engine = s.fsu.engine ∧ t.pif = (accepted .ops 0x22 1 s).pif
            ∧ ChangesOnly [.pif, .fsu, .cdt, .dir, .cpd, .dsq, .nfu, .freeReads] s t))
    ∧ ∀ (n : Fin 16) (s : State), heldInReset s = false →
    ((slotOf s n).state = .disabled → exec (.disableSlot .ops (ubytes 1 n.val)) s = .next (answered .ops 3 .state [0x23] s))
      ∧ ((slotOf s n).state ≠ .disabled →
          ∃ t, exec (.disableSlot .ops (ubytes 1 n.val)) s = .next t
            ∧ (slotOf t n).state = .disabled ∧ (slotOf t n).enabled = false ∧ (slotOf t n).channels = fill 4 Channel.initial
            ∧ (slotOf t n).settings = (slotOf s n).settings ∧ (∀ m, m ≠ n → slotOf t m = slotOf s m)
            ∧ (slotOf t n).failed = 0 ∧ (slotOf t n).overruns = 0 ∧ (slotOf t n).recovered = false
            ∧ conditionActive t (condThreshold n) = false ∧ conditionActive t (condDevice n) = false
            ∧ readersFollow n true s t
            ∧ t.fsu.queue = dequeue n s.fsu.queue
            ∧ (∀ f, s.fsu.engine = .awaitReply f → t.fsu.engine = .awaitReply { f with discarded := f.discarded || decide (f.entry.slot = n) })
            ∧ (∀ k, pointBoundTo s n = some k → pointOf t k =
                { pointOf (closeGap k s) k with
                  gap := none
                  forward := { (pointOf (closeGap k s) k).forward with baseline := none, rate := 0, fresh := false }
                  reverse :=
                    if hasReverse k then { (pointOf (closeGap k s) k).reverse with baseline := none, rate := 0, fresh := false }
                    else (pointOf s k).reverse })
            ∧ (∀ k, pointBoundTo s n ≠ some k → pointOf t k = pointOf s k)
            ∧ t.pif = (accepted .ops 0x23 1 s).pif
            ∧ ChangesOnly [.pif, .fsu, .mtu, .cdt, .dir, .cpd, .dsq, .nfu, .freeReads] s t)

/-- In IDLE the line engine takes the head of the poll queue when it is due and the receiver has been quiet, and sends the request of
its phase; the reply window, at the setting in force at the take, runs from the end of the request. Bytes of a frame that is not yet
complete, and bytes heard in IDLE or after the window, are discarded and restart the 2 ms quiet test (R15, R16, R17). The model's
choices: a take or an end of transmission that is not due changes nothing (log entry 2); received bytes come as any of the four reply
rows, and none is heard while the part transmits (log entry 18). -/
def Obligations.LineEngineTakesTheDueHead : Prop :=
  (∀ (s : State) (e : Entry) (rest : List Entry), heldInReset s = false → s.fsu.engine = .idle → s.fsu.queue = e :: rest →
      (e.due ≤ s.fine → s.fsu.quietAt ≤ s.fine →
          exec .lineEngineTake s
            = .next (alterSlot e.slot
                (fun sl => { sl with
                  state := if sl.state = .init ∧ (e.phase = .read ∨ e.phase = .readyCheck) then .settling else sl.state })
                (s.withFsu { s.fsu with
                  queue := rest, engine := .awaitReply ⟨e, entryRequest s e, s.fsu.window, none, false⟩ })))
        ∧ (s.fine < e.due ∨ s.fine < s.fsu.quietAt → exec .lineEngineTake s = .next s))
    ∧ (∀ s : State, s.fsu.queue = [] ∨ s.fsu.engine ≠ .idle → exec .lineEngineTake s = .next s)
    ∧ (∀ (s : State) (e : Entry) (k : Nat) (i : Fin 64),
        (e.phase = .read → entryRequest s e =
            .read (slotOf s e.slot).settings.address (slotOf s e.slot).settings.startRegister (slotOf s e.slot).settings.wordCount)
          ∧ (e.phase = .readyCheck → entryRequest s e =
            .read (slotOf s e.slot).settings.address (slotOf s e.slot).settings.statusRegister 1)
          ∧ (e.phase = .initWrite k → i.val = (slotOf s e.slot).settings.scriptStart + k → entryRequest s e =
            .write (slotOf s e.slot).settings.address (nth s.fsu.script i).register (nth s.fsu.script i).value))
    ∧ (∀ (s : State) (f : InFlight), heldInReset s = false → s.fsu.engine = .awaitReply f →
        (f.windowEnd = none →
            exec .requestTransmitted s
              = .next (s.withFsu { s.fsu with engine := .awaitReply { f with windowEnd := some (s.fine + f.window) } }))
          ∧ (f.windowEnd ≠ none → exec .requestTransmitted s = .next s))
    ∧ ∀ (s : State) (received : List Byte) (c : Instr), heldInReset s = false → received ≠ [] →
        c = .dataReply received ∨ c = .doneReply received ∨ c = .errorReply received ∨ c = .badReplyFrame received →
        (s.fsu.engine = .idle → exec c s = .next (s.withFsu { s.fsu with quietAt := s.fine + 2 }))
          ∧ ∀ f, s.fsu.engine = .awaitReply f →
            (∀ e, f.windowEnd = some e → e < s.fine ∨ judge f.request received = .incomplete →
                exec c s = .next (s.withFsu { s.fsu with quietAt := s.fine + 2 }))
              ∧ (f.windowEnd = none → exec c s = .next s)

/-- In AWAIT_REPLY bytes before a start mark are discarded; a frame not yet complete is none; the first complete frame decides, whatever
follows it: it answers when its end mark, CRC, address, kind, count and register are right, and is bad else, as it is on an unknown kind and
on a DATA word count outside 1 to 8 (R14, R17, R207, R208). A channel is decoded from its words in its format, U16, S16, U8 or U32, with its
swap flag (R32). A DATA that answers a READ makes the visit succeed: every channel is decoded and GOOD at this instant, the slot is ACTIVE
without failed visits, its recovered mark is spent, the threshold follows its zone test, and the next visit is scheduled by whole periods,
the instants passed over counted (R28, R31, R34, R35). One that answers a READY_CHECK moves the visit on, tries again 1 s later, or fails it
at the ready limit (R27). A discarded transaction only ends (R18). That the entry which moves on to READ keeps its count of checks is the
model's choice (log entry 41). -/
def Obligations.DataReplyAnswersTheVisit : Prop :=
  (∀ (request : LineRequest) (body before after : List Byte) (high low last : Byte), frameBody body → (0xC5 : Byte) ∉ before →
      (last = 0x5C → [high, low] = crcBytes body → ∀ r, answersWith request body r →
          judge request (before ++ (0xC5 :: body ++ [high, low, last]) ++ after) = r)
        ∧ (last ≠ 0x5C ∨ [high, low] ≠ crcBytes body ∨ (∀ r, ¬ answersWith request body r) →
          judge request (before ++ (0xC5 :: body ++ [high, low, last]) ++ after) = .bad)
        ∧ ∀ k, k < body.length + 4 → judge request (before ++ (0xC5 :: body ++ [high, low, last]).take k) = .incomplete)
    ∧ (∀ (request : LineRequest) (before after : List Byte) (address kind count : Byte), (0xC5 : Byte) ∉ before →
        (kind ∉ [0x31, 0x32, 0xB1, 0xB2, 0xF2] → judge request (before ++ 0xC5 :: address :: kind :: after) = .bad)
          ∧ (count.toNat = 0 ∨ 8 < count.toNat → judge request (before ++ 0xC5 :: address :: 0xB1 :: count :: after) = .bad))
    ∧ judge (.read 1 0 1) [0xC5, 0x01, 0xB1, 0x01, 0x03, 0xE9, 0x32, 0x5C, 0x5C] = .data [⟨0x03, 0xE9⟩]
    ∧ judge (.write 1 0x1234 0) [0xC5, 0x01, 0xB2, 0x12, 0x34, 0x71, 0x2D, 0x5C] = .done
    ∧ judge (.write 1 0x1234 0) [0xC5, 0x01, 0xF2, 0x12, 0x34, 0x07, 0x5D, 0xCD, 0x5C] = .error 7
    ∧ (∀ (c : ChannelSetting) (words : List WordBytes) (a b : Byte), words[c.offset]? = some ⟨a, b⟩ →
        (c.format = .u16 → decodeChannel c words = wordFormed c.swap a b)
          ∧ (c.format = .s16 → decodeChannel c words =
              if wordFormed c.swap a b < 32768 then (wordFormed c.swap a b : Int) else (wordFormed c.swap a b : Int) - 65536)
          ∧ (c.format = .u8 → decodeChannel c words = (wordFormed c.swap a b % 256 : Nat))
          ∧ ∀ a2 b2 : Byte, words[c.offset + 1]? = some ⟨a2, b2⟩ → c.format = .u32 →
            decodeChannel c words =
              (if c.swap then wordFormed true a2 b2 * 65536 + wordFormed true a b
                else wordFormed false a b * 65536 + wordFormed false a2 b2 : Nat))
    ∧ ∀ (s : State) (f : InFlight) (received : List Byte) (words : List WordBytes), heldInReset s = false → awaiting s = some f →
    judge f.request received = .data words →
    (f.discarded = true →
        exec (.dataReply received) s = .next (s.withFsu { s.fsu with quietAt := s.fine + 2, engine := .idle }))
      ∧ (f.discarded = false → f.entry.phase = .read → 1 ≤ (slotOf s f.entry.slot).settings.period →
          ∃ t, exec (.dataReply received) s = .next t
            ∧ (slotOf t f.entry.slot).state = .active ∧ (slotOf t f.entry.slot).failed = 0
            ∧ (∀ (c : Fin 4) setting, channelSetting? (slotOf s f.entry.slot) c.val = some setting →
                nth (slotOf t f.entry.slot).channels c = ⟨decodeChannel setting words, .good, some s.fine⟩)
            ∧ (slotOf t f.entry.slot).firstReading = false ∧ (slotOf t f.entry.slot).settings = (slotOf s f.entry.slot).settings
            ∧ (∀ m, m ≠ f.entry.slot → slotOf t m = slotOf s m)
            ∧ nextVisitQueued f.entry.slot s t
            ∧ ((slotOf s f.entry.slot).settings.threshold = none → (slotOf t f.entry.slot).thresholdOn = false)
            ∧ (∀ th, (slotOf s f.entry.slot).settings.threshold = some th →
                ((slotOf t f.entry.slot).thresholdOn = true ↔
                  match th.zone with
                  | .outside => th.upper ≤ (channelAt (slotOf t f.entry.slot) th.channel).value
                      ∨ (channelAt (slotOf t f.entry.slot) th.channel).value ≤ th.lower
                  | .inside => (channelAt (slotOf t f.entry.slot) th.channel).value < th.upper
                      ∧ th.lower < (channelAt (slotOf t f.entry.slot) th.channel).value))
            ∧ conditionActive t (condThreshold f.entry.slot) = (slotOf t f.entry.slot).thresholdOn
            ∧ conditionActive t (condDevice f.entry.slot) = false
            ∧ t.fsu.engine = .idle ∧ ChangesOnly [.fsu, .mtu, .cdt, .dir, .cpd, .dsq, .nfu, .freeReads] s t)
      ∧ (f.discarded = false → f.entry.phase = .readyCheck →
          ((wordAt words false 0).testBit (slotOf s f.entry.slot).settings.readyBit = true →
              exec (.dataReply received) s
                = .next (s.withFsu { s.fsu with
                    quietAt := s.fine + 2, engine := .idle
                    queue := enqueue { f.entry with phase := .read, due := s.fine, tries := 0, checks := f.entry.checks + 1 } s.fsu.queue }))
            ∧ ((wordAt words false 0).testBit (slotOf s f.entry.slot).settings.readyBit = false →
              f.entry.checks + 1 < (slotOf s f.entry.slot).settings.readyLimit →
              exec (.dataReply received) s
                = .next (s.withFsu { s.fsu with
                    quietAt := s.fine + 2, engine := .idle
                    queue := enqueue { f.entry with due := s.fine + 1000, tries := 0, checks := f.entry.checks + 1 } s.fsu.queue }))
            ∧ ((wordAt words false 0).testBit (slotOf s f.entry.slot).settings.readyBit = false →
              (slotOf s f.entry.slot).settings.readyLimit ≤ f.entry.checks + 1 → 1 ≤ (slotOf s f.entry.slot).settings.period →
              ∃ t, exec (.dataReply received) s = .next t ∧ visitFailed f.entry.slot s t
                ∧ ChangesOnly [.fsu, .mtu, .cdt, .dir, .cpd, .dsq, .nfu, .freeReads] s t))

/-- A good reading reaches the blocks bound to its slot: the metering point takes its counters, a recovered reading closing an open gap
first (R28, R45, R53), the caverns whose pressure it carries evaluate their bands (R81, R82), the trains whose dew point it carries
judge off-spec gas and, in a step that has ADSORB_EXIT, the breakthrough (R127, R132), and a changeover whose quiet answers it changes is
tested (R59, R90). A counter's modulus is that of its channel's format (R40). The point's estimated tenths and the flags of the receiving
hour, the open one or the unclocked set, take what the directions estimated and set (R45 to R48, R54, R57). That the interval of a reading
without a reading time is 1 is the model's choice (log entry 26). -/
def Obligations.GoodReadingReachesItsReaders : Prop :=
  (∀ (sl : Slot) (c : Nat) (x : ChannelSetting), sl.settings.channels[c]? = some x →
      (x.format = .u16 → counterModulus sl c = 65536) ∧ (x.format = .u32 → counterModulus sl c = 4294967296))
    ∧ ∀ (s : State) (f : InFlight) (received : List Byte) (words : List WordBytes), heldInReset s = false → awaiting s = some f →
    judge f.request received = .data words → f.discarded = false → f.entry.phase = .read →
    ∃ t, exec (.dataReply received) s = .next t
      ∧ (pointBoundTo s f.entry.slot = none → t.mtu = s.mtu)
      ∧ (∀ k, pointBoundTo s f.entry.slot = some k → meterTook k f.entry.slot s t)
      ∧ quietChangeTested s t
      ∧ (∀ k : Fin 4, (pointOf s (wellhead k)).slot = some f.entry.slot →
          (cavernOf t k).band = nextBand (cavernOf s k) (channelAt (slotOf t f.entry.slot) 2)
            ∧ conditionActive t (condBand k) = decide ((cavernOf t k).band ≠ .normal))
      ∧ (∀ k : Fin 4, (pointOf s (wellhead k)).slot ≠ some f.entry.slot → cavernOf t k = cavernOf s k)
      ∧ (∀ (d : Fin 2) (b : Binding), (trainOf s d).binding = some b → b.slot = f.entry.slot →
          ((trainOf s d).state = .off → (trainOf t d).offSpec = (trainOf s d).offSpec)
            ∧ ((trainOf s d).state ≠ .off → (trainOf s d).offSpec = false →
              ((trainOf t d).offSpec = true ↔ (trainOf s d).specLimit ≤ (channelAt (slotOf t f.entry.slot) b.channel).value))
            ∧ ((trainOf s d).state ≠ .off → (trainOf s d).offSpec = true →
              ((trainOf t d).offSpec = false ↔
                (channelAt (slotOf t f.entry.slot) b.channel).value ≤ (trainOf s d).specLimit - (trainOf s d).hysteresis))
            ∧ conditionActive t (condOffSpec d) = (trainOf t d).offSpec
            ∧ (trainOf t d).earlyAdvances =
              match currentStep s.dsq.banks (trainOf s d) with
              | some r =>
                if r.adsorbExit = true ∧ (trainOf s d).breakthrough ≤ (channelAt (slotOf t f.entry.slot) b.channel).value then
                  min 65535 ((trainOf s d).earlyAdvances + 1)
                else (trainOf s d).earlyAdvances
              | none => (trainOf s d).earlyAdvances)
      ∧ ∀ d : Fin 2, (∀ b, (trainOf s d).binding = some b → b.slot ≠ f.entry.slot) →
          (trainOf t d).offSpec = (trainOf s d).offSpec ∧ (trainOf t d).earlyAdvances = (trainOf s d).earlyAdvances

/-- A gap books each direction's stored rate over the time from its booked-to time to now, in mL per second over tenths, rounded down; it
counts that time as estimated and sets ESTIMATED. At an hour close it stays open, booked to now (R52); at recovery, DISABLE-SLOT and a
change of the binding it closes, with the booking into the open hour, or into the unclocked accumulator while the clock is UNSET (R53);
and SET-CLOCK, whose next state carries what `mergeUnclocked` leaves (another statement says so), books it into the unclocked accumulators,
adds these to the set hour's, merges the two flag sets and sets RESTART (R54). -/
def Obligations.GapsBookTheStoredRate : Prop :=
  (∀ (toHour : Bool) (k : Fin 7) (s : State),
      ((pointOf s k).gap = none → bookGap toHour k s = s)
        ∧ (∀ j, j ≠ k → pointOf (bookGap toHour k s) j = pointOf s j)
        ∧ ∀ from_, (pointOf s k).gap = some from_ →
          (pointOf (bookGap toHour k s) k).gap = some (timeBase s)
            ∧ (pointOf (bookGap toHour k s) k).estimatedTenths
                = min 4294967295 ((pointOf s k).estimatedTenths + (timeBase s - from_))
            ∧ gapBooked toHour (timeBase s - from_) (pointOf s k).forward (pointOf (bookGap toHour k s) k).forward
            ∧ (if hasReverse k then
                gapBooked toHour (timeBase s - from_) (pointOf s k).reverse (pointOf (bookGap toHour k s) k).reverse
              else (pointOf (bookGap toHour k s) k).reverse = (pointOf s k).reverse)
            ∧ (if toHour then (bookGap toHour k s).mtu.flags.estimated else (bookGap toHour k s).mtu.unclockedFlags.estimated) = true)
    ∧ (∀ (k : Fin 7) (s : State),
        pointOf (closeGap k s) k = { pointOf (bookGap (clockRunning s) k s) k with gap := none }
          ∧ (∀ j, j ≠ k → pointOf (closeGap k s) j = pointOf s j)
          ∧ (closeGap k s).mtu.flags = (bookGap (clockRunning s) k s).mtu.flags
          ∧ (closeGap k s).mtu.unclockedFlags = (bookGap (clockRunning s) k s).mtu.unclockedFlags)
    ∧ (∀ (k : Fin 7) (s : State), pointOf (bookOpenGaps s) k = pointOf (bookGap true k s) k)
    ∧ ∀ (k : Fin 7) (s : State),
        (pointOf (mergeUnclocked s) k).forward
            = { (pointOf (bookGap false k s) k).forward with
                hourVolume := min (2 ^ 64 - 1) ((pointOf s k).forward.hourVolume + (pointOf (bookGap false k s) k).forward.unclocked)
                unclocked := 0 }
          ∧ (hasReverse k = true → (pointOf (mergeUnclocked s) k).reverse
            = { (pointOf (bookGap false k s) k).reverse with
                hourVolume := min (2 ^ 64 - 1) ((pointOf s k).reverse.hourVolume + (pointOf (bookGap false k s) k).reverse.unclocked)
                unclocked := 0 })
          ∧ (pointOf (mergeUnclocked s) k).gap = (pointOf (bookGap false k s) k).gap
          ∧ (pointOf (mergeUnclocked s) k).estimatedTenths = (pointOf (bookGap false k s) k).estimatedTenths
          ∧ (hasReverse k = false → (pointOf (mergeUnclocked s) k).reverse = (pointOf s k).reverse)
          ∧ (mergeUnclocked s).mtu.flags =
            { restart := true
              estimated := s.mtu.flags.estimated || s.mtu.unclockedFlags.estimated || decide (∃ j : Fin 7, (pointOf s j).gap ≠ none)
              clamped := s.mtu.flags.clamped || s.mtu.unclockedFlags.clamped
              cvHeld := s.mtu.flags.cvHeld || s.mtu.unclockedFlags.cvHeld
              rebased := s.mtu.flags.rebased || s.mtu.unclockedFlags.rebased }
          ∧ (mergeUnclocked s).mtu.unclockedFlags = MeterFlags.clear

/-- A DONE moves a script on to its next write, or after its last write to the check or read once the settling time has passed; an ERROR
puts the slot in FAULTED with the device's code, opens the gap of its point unless the slot was ABSENT already, has the readers follow the
quality, and ends the visit for good (R25, R26, R51, R81, R90). -/
def Obligations.ScriptRepliesMoveTheVisit : Prop :=
  (∀ (s : State) (f : InFlight) (received : List Byte) (k : Nat), heldInReset s = false → awaiting s = some f →
      judge f.request received = .done → f.discarded = false → f.entry.phase = .initWrite k →
      (k + 1 < (slotOf s f.entry.slot).settings.scriptCount →
          exec (.doneReply received) s
            = .next (s.withFsu { s.fsu with
                quietAt := s.fine + 2, engine := .idle
                queue := enqueue { f.entry with phase := .initWrite (k + 1), due := s.fine, tries := 0 } s.fsu.queue }))
        ∧ ((slotOf s f.entry.slot).settings.scriptCount ≤ k + 1 →
          ∃ t, exec (.doneReply received) s = .next t
            ∧ t.fsu.queue = enqueue { f.entry with
                phase := if (slotOf s f.entry.slot).settings.pollMode = .readyGated then .readyCheck else .read
                due := s.fine + (slotOf s f.entry.slot).settings.settle * 100, tries := 0 } s.fsu.queue
            ∧ t.fsu.engine = .idle ∧ (∀ m, m ≠ f.entry.slot → slotOf t m = slotOf s m)
            ∧ slotOf t f.entry.slot = { slotOf s f.entry.slot with
                state := if (slotOf s f.entry.slot).state = .init then .settling else (slotOf s f.entry.slot).state }
            ∧ ChangesOnly [.fsu] s t))
    ∧ (∀ (s : State) (f : InFlight) (received : List Byte) (code : Nat), heldInReset s = false → awaiting s = some f →
        judge f.request received = .error code → f.discarded = false →
        ∃ t, exec (.errorReply received) s = .next t
          ∧ (slotOf t f.entry.slot).state = .faulted ∧ (slotOf t f.entry.slot).lastError = code
          ∧ (∀ c : Fin 4, nth (slotOf t f.entry.slot).channels c = (nth (slotOf s f.entry.slot).channels c).hold)
          ∧ (slotOf t f.entry.slot).failed = (slotOf s f.entry.slot).failed
          ∧ (slotOf t f.entry.slot).overruns = (slotOf s f.entry.slot).overruns
          ∧ (slotOf t f.entry.slot).thresholdOn = (slotOf s f.entry.slot).thresholdOn
          ∧ conditionActive t (condDevice f.entry.slot) = true
          ∧ gapFollows f.entry.slot (decide ((slotOf s f.entry.slot).state ≠ .absent)) s t ∧ readersFollow f.entry.slot false s t
          ∧ t.fsu.queue = s.fsu.queue ∧ t.fsu.engine = .idle
          ∧ ChangesOnly [.fsu, .mtu, .cdt, .dir, .cpd, .dsq, .nfu, .freeReads] s t)
    ∧ ∀ (s : State) (f : InFlight) (received : List Byte), heldInReset s = false → awaiting s = some f → f.discarded = true →
        (judge f.request received = .done →
            exec (.doneReply received) s = .next (s.withFsu { s.fsu with quietAt := s.fine + 2, engine := .idle }))
          ∧ ∀ code, judge f.request received = .error code →
            exec (.errorReply received) s = .next (s.withFsu { s.fsu with quietAt := s.fine + 2, engine := .idle })

/-- A bad frame and an expired window are misses: the transaction is queued again 0.1 s later with one more try, or, its retries
exhausted, the visit fails, and the next is scheduled by whole periods. A discarded transaction only ends (R17, R18, R29, R31). That a
frame which fails a test is the same miss in the three other reply rows is the model's choice (log entry 21). -/
def Obligations.MissedTransactionIsRetriedOrFails : Prop :=
  (∀ (s : State) (f : InFlight) (received : List Byte), heldInReset s = false → awaiting s = some f → judge f.request received = .bad →
      (f.discarded = true → exec (.badReplyFrame received) s = .next (s.withFsu { s.fsu with quietAt := s.fine + 2, engine := .idle }))
        ∧ (f.discarded = false → f.entry.tries < (slotOf s f.entry.slot).settings.retries →
          exec (.badReplyFrame received) s
            = .next (s.withFsu { s.fsu with
                quietAt := s.fine + 2, engine := .idle
                queue := enqueue { f.entry with tries := f.entry.tries + 1, due := s.fine + 100 } s.fsu.queue }))
        ∧ (f.discarded = false → (slotOf s f.entry.slot).settings.retries ≤ f.entry.tries →
          1 ≤ (slotOf s f.entry.slot).settings.period →
          ∃ t, exec (.badReplyFrame received) s = .next t ∧ visitFailed f.entry.slot s t
            ∧ ChangesOnly [.fsu, .mtu, .cdt, .dir, .cpd, .dsq, .nfu, .freeReads] s t))
    ∧ (∀ (s : State) (f : InFlight) (received : List Byte), awaiting s = some f → judge f.request received = .bad →
        exec (.dataReply received) s = exec (.badReplyFrame received) s ∧ exec (.doneReply received) s = exec (.badReplyFrame received) s
          ∧ exec (.errorReply received) s = exec (.badReplyFrame received) s)
    ∧ ∀ (s : State) (f : InFlight), heldInReset s = false → expired s = some f →
        (f.discarded = true → exec .replyWindowExpiry s = .next (s.withFsu { s.fsu with engine := .idle }))
          ∧ (f.discarded = false → f.entry.tries < (slotOf s f.entry.slot).settings.retries →
            exec .replyWindowExpiry s
              = .next (s.withFsu { s.fsu with
                  engine := .idle
                  queue := enqueue { f.entry with tries := f.entry.tries + 1, due := s.fine + 100 } s.fsu.queue }))
          ∧ (f.discarded = false → (slotOf s f.entry.slot).settings.retries ≤ f.entry.tries →
            1 ≤ (slotOf s f.entry.slot).settings.period →
            ∃ t, exec .replyWindowExpiry s = .next t ∧ visitFailed f.entry.slot s t
              ∧ ChangesOnly [.fsu, .mtu, .cdt, .dir, .cpd, .dsq, .nfu, .freeReads] s t)

/-! ### Metering -/

/-- SET-POINT: values out of range are RANGE, a slot that serves another point or does not suit is IN_USE (R37, R42); that a slot number
above 15 is RANGE, a setting outside its range of R41, is the model's reading (log entry 13); with the binding kept the other settings are
stored, and with a new binding the point also leaves its old slot: gap closed with its last booking, baselines, rates and marks of both
directions gone (R42, R53). A rebound wellhead point has its cavern's band evaluated from the new slot's pressure, or NONE, and reported
(R81, R82), and a changeover whose quiet answers the binding changes is tested (R59, R90). -/
def Obligations.SetPointStoresAndRebinds : Prop :=
  (∀ (fields : List Byte) (k : Fin 7) (s : State), heldInReset s = false → fits 0x30 fields = true →
      ordinal? 7 (byteAt fields 0) = some k → mark fields 1 = some true → 15 < byteAt fields 2 →
      exec (.setPoint .ops fields) s = .next (answered .ops 13 .range [0x30] s))
    ∧ ∀ (fields : List Byte) (k : Fin 7) (slot : Option (Fin 16)) (s : State), heldInReset s = false → fits 0x30 fields = true →
    ordinal? 7 (byteAt fields 0) = some k → readSlotNumber fields 1 = some slot →
    (num fields 3 2 = 0 ∨ num fields 5 2 = 0 ∨ 100000000 < num fields 7 4 ∨ (1 < k.val ∧ num fields 7 4 ≠ 0) →
        exec (.setPoint .ops fields) s = .next (answered .ops 13 .range [0x30] s))
      ∧ (1 ≤ num fields 3 2 → 1 ≤ num fields 5 2 → num fields 7 4 ≤ 100000000 → (k.val ≤ 1 ∨ num fields 7 4 = 0) →
          (¬ pointMayTake s k slot → exec (.setPoint .ops fields) s = .next (answered .ops 13 .inUse [0x30] s))
            ∧ (pointMayTake s k slot → (pointOf s k).slot = slot →
              exec (.setPoint .ops fields) s
                = .next (accepted .ops 0x30 11
                    (alterPoint k
                      (fun p => { p with weight := num fields 3 2, ceiling := num fields 5 2, capacity := num fields 7 4 }) s)))
            ∧ (pointMayTake s k slot → (pointOf s k).slot ≠ slot →
              ∃ t, exec (.setPoint .ops fields) s = .next t
                ∧ pointOf t k =
                  { pointOf (closeGap k s) k with
                    slot := slot, weight := num fields 3 2, ceiling := num fields 5 2, capacity := num fields 7 4, gap := none
                    readingTime := none
                    forward :=
                      { (pointOf (closeGap k s) k).forward with baseline := none, rate := 0, fresh := false, implausible := false }
                    reverse :=
                      if hasReverse k then
                        { (pointOf (closeGap k s) k).reverse with baseline := none, rate := 0, fresh := false, implausible := false }
                      else (pointOf s k).reverse }
                ∧ (∀ j, j ≠ k → pointOf t j = pointOf s j)
                ∧ conditionActive t (condCounter k) = (!hasReverse k && (pointOf s k).reverse.implausible)
                ∧ (∀ j : Fin 4, cavernOf t j =
                    if wellhead j = k then { cavernOf s j with band := nextBand (cavernOf s j) (cavernPressure t j) } else cavernOf s j)
                ∧ (∀ j : Fin 4, wellhead j = k → conditionActive t (condBand j) = decide ((cavernOf t j).band ≠ .normal))
                ∧ quietChangeTested s t
                ∧ t.pif = (accepted .ops 0x30 11 s).pif
                ∧ ChangesOnly [.pif, .mtu, .cdt, .dir, .cpd, .dsq, .nfu, .freeReads] s t))

/-- SET-BETA stores four coefficients of at most 1,023, and SET-CV a default CV of 8,000 to 13,500 and a CV source (R43). That a CV source
with a slot number above 15 is MALFORMED, as R197 says of a number that names no device slot, is the model's reading (log entry 13). A
source on a slot that is not DISABLED and lacks the channel in format U16 is IN_USE (R37, R43). -/
def Obligations.BetaAndCvSettingsAreStored : Prop :=
  (∀ (fields : List Byte) (s : State), heldInReset s = false → fits 0x31 fields = true →
      ((∀ i : Fin 4, num fields (2 * i.val) 2 ≤ 1023) →
          exec (.setBeta .ops fields) s
            = .next (accepted .ops 0x31 8 (s.withMtu { s.mtu with beta := tab fun i => num fields (2 * i.val) 2 })))
        ∧ ((∃ i : Fin 4, 1023 < num fields (2 * i.val) 2) → exec (.setBeta .ops fields) s = .next (answered .ops 10 .range [0x31] s)))
    ∧ (∀ (fields : List Byte) (s : State), heldInReset s = false → fits 0x32 fields = true → mark fields 2 = some true →
        15 < byteAt fields 3 → exec (.setCv .ops fields) s = .next (answered .ops 7 .malformed [0x32] s))
    ∧ ∀ (fields : List Byte) (source : Option Binding) (s : State), heldInReset s = false → fits 0x32 fields = true →
        readBinding fields 2 = some source →
        (num fields 0 2 < 8000 ∨ 13500 < num fields 0 2 ∨ (∃ b, source = some b ∧ 3 < b.channel) →
            exec (.setCv .ops fields) s = .next (answered .ops 7 .range [0x32] s))
          ∧ (8000 ≤ num fields 0 2 → num fields 0 2 ≤ 13500 → (∀ b, source = some b → b.channel ≤ 3) →
            (¬ mayBind s .u16 source → exec (.setCv .ops fields) s = .next (answered .ops 7 .inUse [0x32] s))
              ∧ (mayBind s .u16 source →
                exec (.setCv .ops fields) s
                  = .next (accepted .ops 0x32 5 (s.withMtu { s.mtu with cvDefault := num fields 0 2, cvSource := source }))))

/-- A good reading of a metered direction: without a baseline, or recovered, it rebases and books nothing; a plausible delta books its
base volume, sets the rate and the fresh mark; an implausible one books the substitution and sets the implausible mark (R46, R47, R49).
The base volume is formed stage by stage, each rounded half up, from the pressure and temperature limited to their ranges and the β of
the band; CLAMPED is set where a limit acted (R43, R48). A delta is the new value less the baseline modulo the counter's modulus (R47),
65,536 or 2³² by the channel's format (R40; another statement says which). -/
def Obligations.GoodReadingBooksItsDelta : Prop :=
  (∀ (beta : Vector Nat 4) (weight : Nat) (pressure temperature : Int) (pulses : Nat),
      ∃ (p tk fp ft fz fc fcz : Nat) (t : Int) (i : Fin 4),
        (p : Int) = max 0 (min 25000 pressure) ∧ t = max (-4000) (min 8000 temperature) ∧ (tk : Int) = t + 27315
          ∧ i = (if t < 0 then 0 else if t < 2000 then 1 else if t < 4000 then 2 else 3)
          ∧ roundsTo (p * 65536000) 101325 fp ∧ roundsTo 1790115840 tk ft
          ∧ 65536 ≤ fz ∧ roundsTo (p * nth beta i) 256 (fz - 65536)
          ∧ roundsTo (fp * ft) 65536 fc ∧ roundsTo (fc * fz) 65536 fcz
          ∧ roundsTo (pulses * weight * fcz) 65536 (baseVolume beta weight pressure temperature pulses))
    ∧ (∀ modulus baseline value : Nat, modulus = 65536 ∨ modulus = 4294967296 →
        counterDelta modulus baseline value < modulus ∧ (baseline + counterDelta modulus baseline value) % modulus = value % modulus)
    ∧ ∀ (beta : Vector Nat 4) (p : Point) (r : Reading) (modulus value : Nat) (d : Direction),
    (d.baseline = none ∨ r.recovered = true →
        takeDirection beta p r modulus value d
          = ⟨{ d with baseline := some value, fresh := false }, { MeterFlags.clear with rebased := true }, 0⟩)
      ∧ ∀ b, d.baseline = some b → r.recovered = false →
        (counterDelta modulus b value ≤ p.ceiling →
            (takeDirection beta p r modulus value d).direction
              = { d with
                  baseline := some value, fresh := true, implausible := false
                  rate := baseVolume beta p.weight r.pressure r.temperature (counterDelta modulus b value) * 10 / r.interval
                  hourVolume := if r.toHour then
                      min (2 ^ 64 - 1) (d.hourVolume + baseVolume beta p.weight r.pressure r.temperature (counterDelta modulus b value))
                    else d.hourVolume
                  unclocked := if r.toHour then d.unclocked
                    else min (2 ^ 64 - 1) (d.unclocked + baseVolume beta p.weight r.pressure r.temperature (counterDelta modulus b value)) }
              ∧ (takeDirection beta p r modulus value d).flags
                = { MeterFlags.clear with
                    clamped := decide (r.pressure < 0 ∨ 25000 < r.pressure ∨ r.temperature < -4000 ∨ 8000 < r.temperature) }
              ∧ (takeDirection beta p r modulus value d).estimated = 0)
          ∧ (p.ceiling < counterDelta modulus b value →
            (takeDirection beta p r modulus value d).direction
              = { d with
                  baseline := some value, implausible := true
                  hourVolume := if r.toHour then min (2 ^ 64 - 1) (d.hourVolume + d.rate * r.interval / 10) else d.hourVolume
                  unclocked := if r.toHour then d.unclocked else min (2 ^ 64 - 1) (d.unclocked + d.rate * r.interval / 10) }
              ∧ (takeDirection beta p r modulus value d).flags = { MeterFlags.clear with estimated := true }
              ∧ (takeDirection beta p r modulus value d).estimated = r.interval)

/-! ### Conditions -/

/-- ACK-CONDITIONS: no entry or more than 8, or a condition above 55, is MALFORMED, a level from Commercial is OWNER, one above 7 is RANGE;
else each entry's pending of this port is cleared and its level stored, condition 53 falls for Operations, and the response carries the
class formed from the new table (R66, R67, R68, R69). Under every command a condition that was inactive and is Active has both pendings set
when its level is 1 or more; a pending is set only on a condition with such a level; and no pending falls and no level changes but by an
ACK-CONDITIONS of its port and a reset (R63, R65, R67, R77). -/
def Obligations.AckConditionsClearsAndLevels : Prop :=
  (∀ (c : Instr) (s t : State) (n : Fin 56), exec c s = .next t →
      (conditionActive s n = false → conditionActive t n = true → 1 ≤ (nth t.cdt.conditions n).level →
          (nth t.cdt.conditions n).pendingOps = true ∧ (nth t.cdt.conditions n).pendingCom = true)
        ∧ (∀ p, (nth s.cdt.conditions n).pendingOf p = false → (nth t.cdt.conditions n).pendingOf p = true →
            1 ≤ (nth t.cdt.conditions n).level)
        ∧ ((∀ p fields lines, c ≠ .resetPart p fields lines) → (∀ lines, c ≠ .powerOn lines) → (∀ micros lines, c ≠ .pin micros lines) →
          (∀ p, (∀ fields, c ≠ .ackConditions p fields) → (nth s.cdt.conditions n).pendingOf p = true →
              (nth t.cdt.conditions n).pendingOf p = true)
            ∧ ((∀ fields, c ≠ .ackConditions .ops fields) → (nth t.cdt.conditions n).level = (nth s.cdt.conditions n).level)))
    ∧ (∀ (p : Port) (fields : List Byte) (s : State), heldInReset s = false → fits 0x40 fields = true →
      byteAt fields 0 = 0 ∨ 8 < byteAt fields 0 ∨ (∃ j, j < byteAt fields 0 ∧ 55 < byteAt fields (1 + 3 * j)) →
      exec (.ackConditions p fields) s = .next (answered p (fields.length + 2) .malformed [0x40] s))
    ∧ ∀ (p : Port) (fields : List Byte) (entries : List AckEntry) (s : State), heldInReset s = false → fits 0x40 fields = true →
        1 ≤ byteAt fields 0 → byteAt fields 0 ≤ 8 → readAckEntries fields 1 (byteAt fields 0) = some entries →
        (p = .com → (∃ e ∈ entries, e.level ≠ none) →
            exec (.ackConditions p fields) s = .next (answered p (fields.length + 2) .owner [0x40] s))
          ∧ (p = .ops → (∃ e ∈ entries, ∃ l, e.level = some l ∧ 7 < l) →
            exec (.ackConditions p fields) s = .next (answered p (fields.length + 2) .range [0x40] s))
          ∧ ((∀ e ∈ entries, ∀ l, e.level = some l → p = .ops ∧ l ≤ 7) →
            ∃ t, exec (.ackConditions p fields) s = .next t
              ∧ (∀ n, (∀ e ∈ entries, e.condition ≠ n) → nth t.cdt.conditions n = nth s.cdt.conditions n)
              ∧ (∀ e ∈ entries, (nth t.cdt.conditions e.condition).pendingOf p = false)
              ∧ (∀ n q, q ≠ p → (nth t.cdt.conditions n).pendingOf q = (nth s.cdt.conditions n).pendingOf q)
              ∧ (∀ before e after, entries = before ++ e :: after → (∀ x ∈ after, x.condition = e.condition → x.level = none) →
                  ∀ l, e.level = some l → (nth t.cdt.conditions e.condition).level = l)
              ∧ (∀ n, conditionActive t n
                  = (conditionActive s n && !(decide (n = condRetainedLost) && decide (p = .ops)
                      && entries.any fun e => decide (e.condition = condRetainedLost))))
              ∧ ClassFormed t
              ∧ t.pif = (answered p (fields.length + 2) .ok
                  ([0x40, BitVec.ofNat 8 t.cdt.derateClass]
                    ++ match t.cdt.lead with
                      | some n => [1, BitVec.ofNat 8 n.val]
                      | none => [0, 0]) s).pif
              ∧ ChangesOnly [.pif, .cdt, .nfu] s t)

/-- SET-DERATE-TABLE stores seven pairs that never rise from 100 and refuses any other table with RANGE; SET-ALERT writes the sending
port's threshold and mask; READ-EVENTS reports the sending port's flags, pendings, the class and the lead condition, and then
clears the flags of that port alone (R71, R72, R73, R75). -/
def Obligations.DerateTableAlertSettingsAndEventFlags : Prop :=
  (∀ (fields : List Byte) (s : State), heldInReset s = false → fits 0x41 fields = true →
      ((byteAt fields 0 ≤ 100 ∧ byteAt fields 1 ≤ 100 ∧ ∀ j, j < 12 → byteAt fields (j + 2) ≤ byteAt fields j) →
          exec (.setDerateTable .ops fields) s
            = .next (accepted .ops 0x41 14
                (s.withCdt { s.cdt with derate := tab fun i => ⟨byteAt fields (2 * i.val), byteAt fields (2 * i.val + 1)⟩ })))
        ∧ ((100 < byteAt fields 0 ∨ 100 < byteAt fields 1 ∨ ∃ j, j < 12 ∧ byteAt fields j < byteAt fields (j + 2)) →
          exec (.setDerateTable .ops fields) s = .next (answered .ops 16 .range [0x41] s)))
    ∧ (∀ (p : Port) (threshold : Byte) (m : Vector Bool 4) (s : State), heldInReset s = false →
        (1 ≤ threshold.toNat ∧ threshold.toNat ≤ 7 →
            exec (.setAlert p (threshold :: markBytes m)) s
              = .next (accepted p 0x42 5 (s.withCdt (s.cdt.alterAlert p fun a => { a with threshold := threshold.toNat, mask := m }))))
          ∧ (threshold.toNat = 0 ∨ 7 < threshold.toNat →
            exec (.setAlert p (threshold :: markBytes m)) s = .next (answered p 7 .range [0x42] s)))
    ∧ ∀ (p : Port) (s : State), heldInReset s = false →
        exec (.readEvents p []) s
          = .next (answered p 2 .ok
              (0x43 :: (markBytes (s.cdt.alertOf p).flags ++ conditionMarks (fun n => (nth s.cdt.conditions n).pendingOf p)
                ++ [BitVec.ofNat 8 s.cdt.derateClass]
                ++ match s.cdt.lead with
                  | some n => [1, BitVec.ofNat 8 n.val]
                  | none => [0, 0]))
              (s.withCdt (s.cdt.alterAlert p fun a => { a with flags := fill 4 false })))

/-! ### Caverns and direction -/

/-- SET-CAVERN stores settings in range and evaluates the band from the cavern's pressure, which condition BAND Ck follows; the band is that
of the table of R82, line by line, and NORMAL for a NONE pressure; SET-CAVERN-INVENTORY stores the gas-in-place and nothing else, up to
4,000,000,000 kWh and for caverns 1 to 4 (R80, R82, R83, R86). -/
def Obligations.CavernRequestsStoreAndBand : Prop :=
  (∀ (c : Cavern) (pressure : Channel),
      (pressure.quality = .noReading → nextBand c pressure = .normal)
        ∧ (pressure.quality ≠ .noReading →
          (c.band = .normal → (c.pmax : Int) ≤ pressure.value → nextBand c pressure = .high)
            ∧ (c.band = .normal → pressure.value < c.pmax → pressure.value ≤ c.pmin → nextBand c pressure = .low)
            ∧ (c.band = .normal → pressure.value < c.pmax → (c.pmin : Int) < pressure.value → nextBand c pressure = .normal)
            ∧ (c.band = .high → pressure.value ≤ c.pmin → nextBand c pressure = .low)
            ∧ (c.band = .high → (c.pmin : Int) < pressure.value → pressure.value ≤ (c.pmax : Int) - c.hysteresis →
              nextBand c pressure = .normal)
            ∧ (c.band = .high → (c.pmin : Int) < pressure.value → (c.pmax : Int) - c.hysteresis < pressure.value →
              nextBand c pressure = .high)
            ∧ (c.band = .low → (c.pmax : Int) ≤ pressure.value → nextBand c pressure = .high)
            ∧ (c.band = .low → pressure.value < c.pmax → (c.pmin : Int) + c.hysteresis ≤ pressure.value →
              nextBand c pressure = .normal)
            ∧ (c.band = .low → pressure.value < c.pmax → pressure.value < (c.pmin : Int) + c.hysteresis →
              nextBand c pressure = .low)))
    ∧ (∀ (fields : List Byte) (k : Fin 4) (service : Bool) (s : State), heldInReset s = false → fits 0x50 fields = true →
      ordinal? 4 (byteAt fields 0) = some k → service? (byteAt fields 1) = some service →
      (¬ cavernInRange (num fields 2 2) (num fields 4 2) (num fields 6 2) (num fields 8 4) (num fields 12 4) →
          exec (.setCavern .ops fields) s = .next (answered .ops 18 .range [0x50] s))
        ∧ (cavernInRange (num fields 2 2) (num fields 4 2) (num fields 6 2) (num fields 8 4) (num fields 12 4) →
          ∃ t c, exec (.setCavern .ops fields) s = .next t
            ∧ c = { cavernOf s k with
                inService := service, pmin := num fields 2 2, pmax := num fields 4 2, hysteresis := num fields 6 2
                injectionRate := num fields 8 4, withdrawalRate := num fields 12 4 }
            ∧ cavernOf t k = { c with band := nextBand c (cavernPressure s k) }
            ∧ (∀ j, j ≠ k → cavernOf t j = cavernOf s j)
            ∧ conditionActive t (condBand k) = decide (nextBand c (cavernPressure s k) ≠ .normal)
            ∧ t.dir.site = s.dir.site ∧ t.dir.direction = s.dir.direction
            ∧ t.pif = (accepted .ops 0x50 16 s).pif
            ∧ ChangesOnly [.pif, .dir, .cdt, .nfu] s t))
    ∧ (∀ (fields : List Byte) (s : State), heldInReset s = false → fits 0x51 fields = true →
        byteAt fields 0 = 0 ∨ 4 < byteAt fields 0 →
        exec (.setCavernInventory .ops fields) s = .next (answered .ops 7 .malformed [0x51] s))
    ∧ ∀ (k : Fin 4) (quantity : Nat) (s : State), heldInReset s = false → quantity < 2 ^ 32 →
        (quantity ≤ 4000000000 →
            exec (.setCavernInventory .ops (ubytes 1 (k.val + 1) ++ ubytes 4 quantity)) s
              = .next (accepted .ops 0x51 5 (alterCavern k (fun c => { c with gas := quantity }) s)))
          ∧ (4000000000 < quantity →
            exec (.setCavernInventory .ops (ubytes 1 (k.val + 1) ++ ubytes 4 quantity)) s = .next (answered .ops 7 .range [0x51] s))

/-- SET-SITE refuses settings out of range; else it stores them, a changeover whose minimum or quiet threshold it changes and that now
meets its tests completes, one whose limit it lowers to or below the time spent and that does not complete overruns, every other stays as
it is unless a unit's stop by the duty evaluation completes it, and that evaluation follows (R87, R90, R91, R106). SET-DUTY refuses
settings out of range, and else stores them and raises a duty evaluation (R106, R109). That nothing but the evaluation changes the units is
said of states in which units run only while the site injects, which every step keeps. -/
def Obligations.SiteAndDutySettingsAreStored : Prop :=
  (∀ (fields : List Byte) (s : State), heldInReset s = false → fits 0x52 fields = true →
      (¬ siteInRange (readSite fields) → exec (.setSite .ops fields) s = .next (answered .ops 30 .range [0x52] s))
        ∧ (siteInRange (readSite fields) →
            ∃ t, exec (.setSite .ops fields) s = .next t
              ∧ t.dir.site = readSite fields ∧ t.dir.caverns = s.dir.caverns
              ∧ t.dir.site =
                  ⟨num fields 0 4, num fields 4 4, num fields 8 4, num fields 12 2, num fields 14 2, num fields 16 4, num fields 20 4,
                    num fields 24 4⟩
              ∧ (RunOnlyInjecting s → t.cpd = (evaluate (s.withDir t.dir)).cpd)
              ∧ t.cpd.shortfall = t.cpd.demand - activeUnits t.cpd
              ∧ ((∀ c, s.dir.direction ≠ .changeover c) →
                  t.dir.direction = s.dir.direction
                    ∧ t.cpd.demand =
                        if s.dir.direction = .injecting then
                          min 4 (((openNet s).toNat + num fields 16 4 - 1) / num fields 16 4)
                        else 0)
              ∧ (∀ c, s.dir.direction = .changeover c →
                  t.dir.direction =
                    if ((s.dir.site.changeoverMinimum ≠ num fields 12 2 ∨ s.dir.site.quietThreshold ≠ num fields 8 4)
                          ∧ changeoverComplete (s.withDir { s.dir with site := readSite fields }) c = true)
                        ∨ ((∃ u, (unitOf t u).state ≠ (unitOf s u).state) ∧ changeoverComplete t c = true) then
                      c.target.direction
                    else if num fields 14 2 < s.dir.site.changeoverLimit ∧ c.start + num fields 14 2 * 10 ≤ timeBase s then
                      .changeover { c with overrun := true }
                    else .changeover c)
              ∧ (∀ c, s.dir.direction = .changeover c →
                  (t.dir.direction = .changeover c → conditionActive t condOverrun = conditionActive s condOverrun)
                    ∧ (c.overrun = false → t.dir.direction = .changeover { c with overrun := true } →
                      conditionActive t condOverrun = true))
              ∧ t.pif = (accepted .ops 0x52 28 s).pif
              ∧ ChangesOnly [.pif, .cdt, .dir, .cpd, .dsq, .nfu] s t))
    ∧ (∀ (fields : List Byte) (s : State), heldInReset s = false → fits 0x60 fields = true →
      (¬ dutyInRange (readDuty fields) → exec (.setDuty .ops fields) s = .next (answered .ops 10 .range [0x60] s))
        ∧ (dutyInRange (readDuty fields) →
            ∃ t, exec (.setDuty .ops fields) s = .next t
              ∧ t.cpd.settings = ⟨byteAt fields 0, num fields 1 2, num fields 3 2, num fields 5 2, byteAt fields 7⟩
              ∧ (RunOnlyInjecting s → t.cpd = (evaluate (s.withCpd { s.cpd with settings := t.cpd.settings })).cpd ∧ t.dir = s.dir)
              ∧ t.cpd.shortfall = t.cpd.demand - activeUnits t.cpd
              ∧ ((∀ c, s.dir.direction ≠ .changeover c) → t.cpd.demand = demandOf s)
              ∧ t.pif = (accepted .ops 0x60 8 s).pif
              ∧ ChangesOnly [.pif, .cdt, .dir, .cpd, .dsq, .nfu] s t))

/-- At the expiry of the changeover minimum a changeover that meets its three tests completes: the site takes the target direction,
DIRECTION_CHANGED is set and condition 55 falls. At the expiry of the limit one that has not completed overruns: condition 55 is Active and
the changeover goes on (R90, R91, R92). The tests: the minimum in force has passed since the start; each of M1 and M2 is unbound, or has its
counter of the old direction, pressure and temperature GOOD and a fresh rate below the quiet threshold in that direction (R59); and no unit
is in motion where the old direction is INJECTING. The completion is one change of direction, with what it does to units and trains (other
statements say what that is): from WITHDRAWING the units take the duty evaluation of INJECTING, from INJECTING they stand (R92, R108), and
the trains stand or resume (R92, R128, R129). That an expiry sent while its tests do not hold, before its limit, of a changeover
overrun already or outside a changeover changes nothing is the model's choice (log entry 2). -/
def Obligations.ChangeoverCompletesOrOverruns : Prop :=
  (∀ (s : State) (c : Changeover) (flow : Flow),
      (changeoverComplete s c = true ↔
          minimumPassed s c = true ∧ boundaryQuiet s c.target.other = true ∧ unitsClear s c = true)
        ∧ (minimumPassed s c = true ↔ c.start + s.dir.site.changeoverMinimum * 10 ≤ timeBase s)
        ∧ (unitsClear s c = true ↔
          c.target = .injecting
            ∨ ∀ u, (unitOf s u).state ≠ .starting ∧ (unitOf s u).state ≠ .running ∧ ∀ d, (unitOf s u).state ≠ .stopping d)
        ∧ (boundaryQuiet s flow = true ↔
          ∀ (k : Fin 7) (n : Fin 16) (d : Direction), k.val ≤ 1 → (pointOf s k).slot = some n →
            d = (if flow = .injecting then (pointOf s k).forward else (pointOf s k).reverse) →
            (channelAt (slotOf s n) (if flow = .injecting then 0 else 1)).quality = .good
              ∧ (channelAt (slotOf s n) 2).quality = .good ∧ (channelAt (slotOf s n) 3).quality = .good
              ∧ d.fresh = true ∧ d.rate * 36 / 10000 < s.dir.site.quietThreshold))
    ∧ (∀ (s : State) (c : Changeover), heldInReset s = false → s.dir.direction = .changeover c →
      (minimumPassed s c = true → boundaryQuiet s c.target.other = true → unitsClear s c = true →
          ∃ t, exec .changeoverMinimumExpiry s = .next t
            ∧ t.dir.direction = (if c.target = .injecting then .injecting else .withdrawing)
            ∧ t = changeDirection t.dir.direction s
            ∧ (c.target = .injecting → t.cpd = (evaluate (s.withDir { s.dir with direction := .injecting })).cpd ∧ t.dsq = s.dsq)
            ∧ (c.target = .withdrawing → t.cpd = s.cpd ∧ ∀ d, (trainOf s d).standby = true → trainOf t d = trainOf s d)
            ∧ nth t.cdt.ops.flags evDirectionChanged = true ∧ conditionActive t condOverrun = false
            ∧ t.dir.site = s.dir.site ∧ t.dir.caverns = s.dir.caverns
            ∧ ChangesOnly [.cdt, .dir, .cpd, .dsq, .nfu] s t)
        ∧ (minimumPassed s c = false ∨ boundaryQuiet s c.target.other = false ∨ unitsClear s c = false →
          exec .changeoverMinimumExpiry s = .next s)
        ∧ (c.start + s.dir.site.changeoverLimit * 10 ≤ timeBase s → c.overrun = false →
          ∃ t, exec .changeoverLimitExpiry s = .next t ∧ t.dir = { s.dir with direction := .changeover { c with overrun := true } }
            ∧ conditionActive t condOverrun = true ∧ ChangesOnly [.cdt, .dir, .nfu] s t)
        ∧ (timeBase s < c.start + s.dir.site.changeoverLimit * 10 ∨ c.overrun = true → exec .changeoverLimitExpiry s = .next s))
    ∧ ∀ s : State, (∀ c, s.dir.direction ≠ .changeover c) →
        exec .changeoverMinimumExpiry s = .next s ∧ exec .changeoverLimitExpiry s = .next s

/-! ### Compressors -/

/-- A unit number outside 1..4 is MALFORMED. SET-UNIT stores the service setting and acts on the unit's state by the tables of R110 and
R111, with a duty evaluation when the unit leaves STARTING, RUNNING, COOLDOWN or FAULTED. RESET-UNIT: a unit that is not FAULTED
is STATE; a FAULTED one goes to COOLDOWN or OUT by its service setting, its cause and attempt count cleared, its start list kept
and its condition fallen, with a duty evaluation (R110, R111). The CPD after each is what the unit's change and that evaluation alone make
of it, in states in which units run only while the site injects, which every step keeps. -/
def Obligations.UnitRequestsActOnTheUnitsState : Prop :=
  (∀ (number service : Byte) (s : State), heldInReset s = false → number.toNat = 0 ∨ 4 < number.toNat →
      exec (.setUnit .ops [number, service]) s = .next (answered .ops 4 .malformed [0x61] s)
        ∧ exec (.resetUnit .ops [number]) s = .next (answered .ops 3 .malformed [0x62] s))
    ∧ ((∀ (u : Fin 4) (s : State), heldInReset s = false →
      ∃ t, exec (.setUnit .ops (ubytes 1 (u.val + 1) ++ [1])) s = .next t
        ∧ (unitOf t u).inService = false
        ∧ (∀ out : UnitRecord,
            out = { unitOf s u with inService := false, state := .out, deadline := none, attempts := 0 } →
            ((unitOf s u).state = .out → dutyFollows u { unitOf s u with inService := false } false s t)
              ∧ ((unitOf s u).state = .ready → dutyFollows u out false s t)
              ∧ ((unitOf s u).state = .cooldown → dutyFollows u out true s t)
              ∧ ((unitOf s u).state = .faulted → dutyFollows u { out with cause := .noCause } true s t)
              ∧ ((unitOf s u).state = .starting ∨ (unitOf s u).state = .running →
                dutyFollows u
                  (if (unitOf s u).feedback then
                    { unitOf s u with
                      inService := false, state := .stopping .out, cutStart := none
                      deadline := some (timeBase s + s.cpd.settings.stopTimeout * 10) }
                  else out) true s t)
              ∧ ∀ d, (unitOf s u).state = .stopping d →
                dutyFollows u { unitOf s u with inService := false, state := .stopping .out } false s t)
        ∧ ((unitOf s u).state = .out ∨ (unitOf s u).state = .ready ∨ (unitOf s u).state = .cooldown ∨ (unitOf s u).state = .faulted →
            (unitOf t u).state = .out)
        ∧ ((unitOf s u).state = .ready ∨ (unitOf s u).state = .cooldown ∨ (unitOf s u).state = .faulted →
            (unitOf t u).deadline = none ∧ (unitOf t u).attempts = 0)
        ∧ ((unitOf s u).state = .faulted → (unitOf t u).cause = .noCause ∧ conditionActive t (condUnit u) = false)
        ∧ ((unitOf s u).state = .starting ∨ (unitOf s u).state = .running ∨ (unitOf s u).state = .cooldown
              ∨ (unitOf s u).state = .faulted → t.cpd.shortfall = t.cpd.demand - activeUnits t.cpd)
        ∧ ((unitOf s u).state = .starting ∨ (unitOf s u).state = .running →
            if (unitOf s u).feedback then
              (unitOf t u).state = .stopping .out ∧ (unitOf t u).deadline = some (timeBase s + s.cpd.settings.stopTimeout * 10)
            else (unitOf t u).state = .out)
        ∧ (∀ d, (unitOf s u).state = .stopping d →
            (unitOf t u).state = .stopping .out ∧ (unitOf t u).deadline = (unitOf s u).deadline)
        ∧ t.pif = (accepted .ops 0x61 2 s).pif
        ∧ ChangesOnly [.pif, .cdt, .dir, .cpd, .dsq, .nfu] s t)
    ∧ ∀ (u : Fin 4) (s : State), heldInReset s = false →
        ∃ t, exec (.setUnit .ops (ubytes 1 (u.val + 1) ++ [0])) s = .next t
          ∧ (unitOf t u).inService = true
          ∧ (∀ r : UnitRecord,
              r = (match (unitOf s u).state with
                | .out =>
                  { unitOf s u with
                    inService := true, state := .cooldown, deadline := some (timeBase s + s.cpd.settings.cooldown * 10), cutStart := none }
                | .stopping .out => { unitOf s u with inService := true, state := .stopping .cooldown }
                | _ => { unitOf s u with inService := true }) →
              dutyFollows u r false s t)
          ∧ ((unitOf s u).state = .out →
              (unitOf t u).state = .cooldown ∧ (unitOf t u).deadline = some (timeBase s + s.cpd.settings.cooldown * 10))
          ∧ (∀ d, (unitOf s u).state = .stopping d → (unitOf t u).state = .stopping .cooldown)
          ∧ ((∀ d, (unitOf s u).state ≠ .stopping d) → (unitOf s u).state ≠ .out → (unitOf t u).state = (unitOf s u).state)
          ∧ t.pif = (accepted .ops 0x61 2 s).pif
          ∧ ChangesOnly [.pif, .cdt, .dir, .cpd, .dsq, .nfu] s t)
    ∧ ∀ (u : Fin 4) (s : State), heldInReset s = false →
    ((unitOf s u).state ≠ .faulted → exec (.resetUnit .ops (ubytes 1 (u.val + 1))) s = .next (answered .ops 3 .state [0x62] s))
      ∧ ((unitOf s u).state = .faulted →
          ∃ t, exec (.resetUnit .ops (ubytes 1 (u.val + 1))) s = .next t
            ∧ dutyFollows u
                (if (unitOf s u).inService then
                  { unitOf s u with
                    state := .cooldown, deadline := some (timeBase s + s.cpd.settings.cooldown * 10), cutStart := none
                    cause := .noCause, attempts := 0 }
                else { unitOf s u with state := .out, deadline := none, cause := .noCause, attempts := 0 }) true s t
            ∧ (unitOf t u).state = (if (unitOf s u).inService then .cooldown else .out)
            ∧ ((unitOf s u).inService = true → (unitOf t u).deadline = some (timeBase s + s.cpd.settings.cooldown * 10))
            ∧ (unitOf t u).cause = .noCause ∧ (unitOf t u).attempts = 0 ∧ (unitOf t u).inService = (unitOf s u).inService
            ∧ (unitOf t u).startList = (unitOf s u).startList ∧ t.cpd.shortfall = t.cpd.demand - activeUnits t.cpd
            ∧ conditionActive t (condUnit u) = false
            ∧ t.pif = (accepted .ops 0x62 1 s).pif
            ∧ ChangesOnly [.pif, .cdt, .dir, .cpd, .dsq, .nfu] s t)

/-- A taken change of a feedback line acts on the unit's state by the table of R97: true starts RUNNING or is an unexpected run, false is
a trip or the end of a stop, and in the other states the level alone is recorded (R97, R99, R101, R102). A duty evaluation follows where R106
raises one, and nothing else changes a unit, in states in which units run only while the site injects, which every step keeps. The model's readings: a level
already recorded is no change (log entries 27 and 2), and a rise at the very fine count at which a change of direction cut the unit's
start puts it in STOPPING, as the last paragraph of R108 has it, with the stop timeout in force (log entry 43). -/
def Obligations.FeedbackChangeActsOnTheUnitsState : Prop :=
  ∀ (u : Fin 4) (s : State), heldInReset s = false →
    ((unitOf s u).feedback = false →
        ((unitOf s u).state = .out ∨ ((unitOf s u).state = .cooldown ∧ (unitOf s u).cutStart ≠ some s.fine)
              ∨ (unitOf s u).state = .ready →
            ∃ t, exec (.feedbackChange u true) s = .next t ∧ unitFaulted u .unexpectedRun t ∧ (unitOf t u).feedback = true
              ∧ dutyFollows u { unitOf s u with state := .faulted, cause := .unexpectedRun, deadline := none, feedback := true }
                  (decide ((unitOf s u).state = .cooldown)) s t
              ∧ ChangesOnly [.cdt, .dir, .cpd, .dsq, .nfu] s t)
          ∧ ((unitOf s u).state = .cooldown → (unitOf s u).cutStart = some s.fine →
            ∃ t, exec (.feedbackChange u true) s = .next t
              ∧ unitOf t u = { unitOf s u with
                  state := .stopping .cooldown, deadline := some (timeBase s + s.cpd.settings.stopTimeout * 10), feedback := true
                  cutStart := none }
              ∧ dutyFollows u (unitOf t u) false s t
              ∧ ChangesOnly [.cdt, .dir, .cpd, .dsq, .nfu] s t)
          ∧ ((unitOf s u).state = .starting →
            ∃ t, exec (.feedbackChange u true) s = .next t ∧ (unitOf t u).feedback = true ∧ (unitOf t u).attempts = 0
              ∧ (unitOf t u).totalStarts = min 4294967295 ((unitOf s u).totalStarts + 1)
              ∧ dutyFollows u
                  { unitOf s u with
                    state := .running, deadline := none, attempts := 0, totalStarts := min 4294967295 ((unitOf s u).totalStarts + 1)
                    feedback := true } true s t
              ∧ ((∀ c, s.dir.direction ≠ .changeover c) → activeUnits s.cpd ≤ demandOf s →
                  (unitOf t u).state = .running ∧ (unitOf t u).deadline = none)
              ∧ ChangesOnly [.cdt, .dir, .cpd, .dsq, .nfu] s t)
          ∧ ((unitOf s u).state = .faulted ∨ (unitOf s u).state = .running ∨ (∃ d, (unitOf s u).state = .stopping d) →
            exec (.feedbackChange u true) s = .next (alterUnit u (fun r => { r with feedback := true }) s)))
      ∧ ((unitOf s u).feedback = true →
        ((unitOf s u).state = .running →
            ∃ t, exec (.feedbackChange u false) s = .next t ∧ unitFaulted u .trip t ∧ (unitOf t u).feedback = false
              ∧ dutyFollows u { unitOf s u with state := .faulted, cause := .trip, deadline := none, feedback := false } true s t
              ∧ ChangesOnly [.cdt, .dir, .cpd, .dsq, .nfu] s t)
          ∧ (∀ d, (unitOf s u).state = .stopping d →
            ∃ t, exec (.feedbackChange u false) s = .next t ∧ (unitOf t u).feedback = false
              ∧ dutyFollows u
                  (if d = .out then { unitOf s u with state := .out, deadline := none, attempts := 0, feedback := false }
                  else
                    { unitOf s u with
                      state := .cooldown, deadline := some (timeBase s + s.cpd.settings.cooldown * 10), cutStart := none
                      feedback := false }) false s t
              ∧ (d = .cooldown →
                  (unitOf t u).state = .cooldown ∧ (unitOf t u).deadline = some (timeBase s + s.cpd.settings.cooldown * 10))
              ∧ (d = .out → (unitOf t u).state = .out)
              ∧ ChangesOnly [.cdt, .dir, .cpd, .dsq, .nfu] s t)
          ∧ ((unitOf s u).state = .out ∨ (unitOf s u).state = .cooldown ∨ (unitOf s u).state = .ready ∨ (unitOf s u).state = .starting
              ∨ (unitOf s u).state = .faulted →
            exec (.feedbackChange u false) s = .next (alterUnit u (fun r => { r with feedback := false }) s)))
      ∧ exec (.feedbackChange u (unitOf s u).feedback) s = .next s

/-- The expiries of a unit's timer and start list: a failed start returns to COOLDOWN or faults at the retry limit, a failed stop faults, a
cooldown ends in READY or, with the feedback true, in a fault, and the oldest start leaves the list after 3,600 s (R100, R101, R103,
R104). A duty evaluation follows where R106 raises one, and nothing else changes a unit, in states in which units run only while the site
injects, which every step keeps. The model's choices: each expiry is a command that is due from its deadline on (log entry 3), and before its deadline, without
one, or with an empty start list it changes nothing (log entry 2). -/
def Obligations.UnitTimersExpire : Prop :=
  ∀ (u : Fin 4) (s : State), heldInReset s = false →
    (∀ d, (unitOf s u).deadline = some d → d ≤ timeBase s →
        ((unitOf s u).state = .starting →
            ((unitOf s u).attempts ≤ s.cpd.settings.startRetries →
                ∃ t, exec (.startTimeout u) s = .next t ∧ (unitOf t u).state = .cooldown
                  ∧ dutyFollows u
                      { unitOf s u with
                        state := .cooldown, deadline := some (timeBase s + s.cpd.settings.cooldown * 10), cutStart := none } true s t
                  ∧ (unitOf t u).deadline = some (timeBase s + s.cpd.settings.cooldown * 10)
                  ∧ (unitOf t u).attempts = (unitOf s u).attempts ∧ ChangesOnly [.cdt, .dir, .cpd, .dsq, .nfu] s t)
              ∧ (s.cpd.settings.startRetries < (unitOf s u).attempts →
                ∃ t, exec (.startTimeout u) s = .next t ∧ unitFaulted u .startFailed t
                  ∧ dutyFollows u { unitOf s u with state := .faulted, cause := .startFailed, deadline := none } true s t
                  ∧ ChangesOnly [.cdt, .dir, .cpd, .dsq, .nfu] s t))
          ∧ ((∃ x, (unitOf s u).state = .stopping x) →
            ∃ t, exec (.stopTimeout u) s = .next t ∧ unitFaulted u .stopFailed t
              ∧ dutyFollows u { unitOf s u with state := .faulted, cause := .stopFailed, deadline := none } false s t
              ∧ ChangesOnly [.cdt, .dir, .cpd, .dsq, .nfu] s t)
          ∧ ((unitOf s u).state = .cooldown →
            ((unitOf s u).feedback = true →
                ∃ t, exec (.cooldownExpiry u) s = .next t ∧ unitFaulted u .unexpectedRun t
                  ∧ dutyFollows u { unitOf s u with state := .faulted, cause := .unexpectedRun, deadline := none } true s t
                  ∧ ChangesOnly [.cdt, .dir, .cpd, .dsq, .nfu] s t)
              ∧ ((unitOf s u).feedback = false →
                ∃ t, exec (.cooldownExpiry u) s = .next t ∧ ((unitOf t u).state = .ready ∨ (unitOf t u).state = .starting)
                  ∧ dutyFollows u { unitOf s u with state := .ready, deadline := none } true s t
                  ∧ ChangesOnly [.cdt, .dir, .cpd, .dsq, .nfu] s t)))
      ∧ ((unitOf s u).deadline = none ∨ (∃ d, (unitOf s u).deadline = some d ∧ timeBase s < d) →
        exec (.startTimeout u) s = .next s ∧ exec (.stopTimeout u) s = .next s ∧ exec (.cooldownExpiry u) s = .next s)
      ∧ (∀ first later, (unitOf s u).startList = first :: later →
        (first + 36000 ≤ timeBase s →
            ∃ t, exec (.startListExpiry u) s = .next t
              ∧ ((unitOf t u).startList = later ∨ (unitOf t u).startList = later ++ [timeBase s])
              ∧ dutyFollows u { unitOf s u with startList := later } true s t
              ∧ ChangesOnly [.cdt, .dir, .cpd, .dsq, .nfu] s t)
          ∧ (timeBase s < first + 36000 → exec (.startListExpiry u) s = .next s))
      ∧ ((unitOf s u).startList = [] → exec (.startListExpiry u) s = .next s)

/-- The start choice is the eligible unit with the fewest run seconds, the lowest number among equals, and the stop choice the RUNNING
unit with the most, the highest number among equals (R107). A duty evaluation stops RUNNING units until no more than the demand are
active or none is RUNNING, and no more than that, each by the stop choice, so that those left have run less than those stopped; or it
starts the start choice when fewer are active and none is STARTING; and it forms the shortfall (R106, R107). As the
site leaves INJECTING every STARTING and RUNNING unit is stopped and the demand and the shortfall become 0; as it enters INJECTING an
evaluation is taken (R108). -/
def Obligations.UnitsAreChosenStartedAndStopped : Prop :=
  (∀ (c : Cpd) (u : Fin 4),
      (startChoice c = some u ↔
          ((nth c.units u).state = .ready ∧ (nth c.units u).startList.length < c.settings.maxStarts)
            ∧ ∀ v, (nth c.units v).state = .ready → (nth c.units v).startList.length < c.settings.maxStarts → v ≠ u →
                (nth c.units u).runSeconds < (nth c.units v).runSeconds
                  ∨ ((nth c.units u).runSeconds = (nth c.units v).runSeconds ∧ u < v))
        ∧ (stopChoice c = some u ↔
          (nth c.units u).state = .running
            ∧ ∀ v, (nth c.units v).state = .running → v ≠ u →
                (nth c.units v).runSeconds < (nth c.units u).runSeconds
                  ∨ ((nth c.units v).runSeconds = (nth c.units u).runSeconds ∧ v < u)))
    ∧ (∀ s : State,
        (activeUnits (evaluate s).cpd ≤ demandOf s ∨ ∀ u, (unitOf (evaluate s) u).state ≠ .running)
          ∧ (∀ u, unitOf (evaluate s) u ≠ unitOf s u → demandOf s < activeUnits s.cpd →
              (unitOf s u).state = .running
                ∧ (if (unitOf s u).feedback then
                    (unitOf (evaluate s) u).state = .stopping .cooldown
                      ∧ (unitOf (evaluate s) u).deadline = some (timeBase s + s.cpd.settings.stopTimeout * 10)
                  else
                    (unitOf (evaluate s) u).state = .cooldown
                      ∧ (unitOf (evaluate s) u).deadline = some (timeBase s + s.cpd.settings.cooldown * 10)))
          ∧ (demandOf s < activeUnits s.cpd →
              countFin (fun u : Fin 4 => decide (unitOf (evaluate s) u ≠ unitOf s u))
                  = min (activeUnits s.cpd - demandOf s) (countFin fun u : Fin 4 => decide ((unitOf s u).state = .running))
                ∧ ∀ u v, (unitOf s u).state = .running → unitOf (evaluate s) u = unitOf s u →
                    unitOf (evaluate s) v ≠ unitOf s v →
                    (unitOf s u).runSeconds < (unitOf s v).runSeconds
                      ∨ ((unitOf s u).runSeconds = (unitOf s v).runSeconds ∧ u < v))
          ∧ (activeUnits s.cpd < demandOf s → (∀ v, (unitOf s v).state ≠ .starting) →
              ∀ u, startChoice s.cpd = some u →
                unitOf (evaluate s) u = { unitOf s u with
                    state := .starting, startList := (unitOf s u).startList ++ [timeBase s]
                    attempts := min 255 ((unitOf s u).attempts + 1)
                    deadline := some (timeBase s + s.cpd.settings.startTimeout * 10) }
                  ∧ ∀ v, v ≠ u → unitOf (evaluate s) v = unitOf s v)
          ∧ (activeUnits s.cpd = demandOf s
              ∨ (activeUnits s.cpd < demandOf s ∧ ((∃ v, (unitOf s v).state = .starting) ∨ startChoice s.cpd = none)) →
              ∀ u, unitOf (evaluate s) u = unitOf s u)
          ∧ (evaluate s).cpd.demand = demandOf s ∧ (evaluate s).cpd.shortfall = demandOf s - activeUnits (evaluate s).cpd
          ∧ ((evaluate s).cpd.reason = .noShortfall ↔ demandOf s ≤ activeUnits (evaluate s).cpd)
          ∧ ((evaluate s).cpd.reason = .startInProgress ↔
              activeUnits (evaluate s).cpd < demandOf s ∧ ∃ u, (unitOf (evaluate s) u).state = .starting))
    ∧ ∀ (new : SiteDirection) (s : State),
        (s.dir.direction = .injecting → new ≠ .injecting →
            (changeDirection new s).cpd.demand = 0 ∧ (changeDirection new s).cpd.shortfall = 0
              ∧ (changeDirection new s).cpd.reason = .noShortfall
              ∧ ∀ u,
                ((unitOf s u).state ≠ .starting → (unitOf s u).state ≠ .running →
                    unitOf (changeDirection new s) u = unitOf s u)
                  ∧ ((unitOf s u).state = .starting ∨ (unitOf s u).state = .running →
                    (unitOf (changeDirection new s) u).startList = (unitOf s u).startList
                      ∧ (unitOf (changeDirection new s) u).attempts = (unitOf s u).attempts
                      ∧ ((unitOf s u).feedback = true →
                        (unitOf (changeDirection new s) u).state = .stopping .cooldown
                          ∧ (unitOf (changeDirection new s) u).deadline = some (timeBase s + s.cpd.settings.stopTimeout * 10))
                      ∧ ((unitOf s u).feedback = false →
                        (unitOf (changeDirection new s) u).state = .cooldown
                          ∧ (unitOf (changeDirection new s) u).deadline = some (timeBase s + s.cpd.settings.cooldown * 10))))
          ∧ (s.dir.direction ≠ .injecting → new = .injecting →
            (changeDirection new s).cpd = (evaluate (s.withDir { s.dir with direction := new })).cpd)
          ∧ (s.dir.direction ≠ .injecting → new ≠ .injecting → (changeDirection new s).cpd = s.cpd)

/-! ### Dryers -/

/-- WRITE-STEP writes one entry of a bank that no train has selected or pending, and the step it carries is the one its fields spell (R118,
R120). A bank is valid when its first entry that is not WRITTEN is an END at index 1 or above (R119). SELECT-BANK: an invalid bank is STATE;
a train that is OFF, or whose selected bank is invalid, takes the bank at once at step 0, and any other train holds it pending until its
cycle ends (R119, R121). -/
def Obligations.BankRequestsWriteAndSelect : Prop :=
  ((∀ (fields : List Byte) (b : Fin 2) (i : Fin 24) (entry : BankEntry) (s : State), heldInReset s = false → fits 0x70 fields = true →
        ordinal? 2 (byteAt fields 0) = some b → index? 24 (byteAt fields 1) = some i → readEntry fields = some entry →
        ((∃ t, (trainOf s t).bank = b ∨ (trainOf s t).pendingBank = some b) →
            exec (.writeStep .ops fields) s = .next (answered .ops 21 .inUse [0x70] s))
          ∧ ((∀ t, (trainOf s t).bank ≠ b ∧ (trainOf s t).pendingBank ≠ some b) →
            exec (.writeStep .ops fields) s
              = .next (accepted .ops 0x70 19 (s.withDsq { s.dsq with banks := put s.dsq.banks b (put (nth s.dsq.banks b) i entry) }))))
      ∧ (∀ (fields : List Byte) (s : State), heldInReset s = false → fits 0x70 fields = true → readEntry fields = none →
          exec (.writeStep .ops fields) s = .next (answered .ops 21 .malformed [0x70] s))
      ∧ ∀ (b i : Byte) (r : StepRecord), 1 ≤ r.duration → r.duration ≤ 4095 → (r.heater && r.cooler) = false →
          (r.advance = .time → r.input = 0 ∧ r.sense = false) →
          readEntry (b :: i :: 1 :: stepBytes r) = some (.written r))
    ∧ (∀ bank : Vector BankEntry 24,
        bankValid bank = true ↔
          ∃ i : Fin 24, 1 ≤ i.val ∧ nth bank i = .endMark ∧ ∀ j : Fin 24, j < i → ∃ r, nth bank j = .written r)
    ∧ (∀ (d b : Fin 2) (s : State), heldInReset s = false →
      (bankValid (nth s.dsq.banks b) = false →
          exec (.selectBank .ops (ubytes 1 (d.val + 1) ++ ubytes 1 (b.val + 1))) s = .next (answered .ops 4 .state [0x71] s))
        ∧ (bankValid (nth s.dsq.banks b) = true →
          ((trainOf s d).state = .off →
              exec (.selectBank .ops (ubytes 1 (d.val + 1) ++ ubytes 1 (b.val + 1))) s
                = .next (accepted .ops 0x71 2 (alterTrain d (fun r => { r with bank := b, pendingBank := none, stepIndex := 0 }) s)))
            ∧ ((trainOf s d).state ≠ .off → bankValid (nth s.dsq.banks (trainOf s d).bank) = false →
              ∃ t, exec (.selectBank .ops (ubytes 1 (d.val + 1) ++ ubytes 1 (b.val + 1))) s = .next t
                ∧ (trainOf t d).bank = b ∧ (trainOf t d).pendingBank = none ∧ (trainOf t d).stepIndex = 0
                ∧ ((trainOf s d).state = .parked → s.dir.direction = .withdrawing ∨ (trainOf s d).standby = true →
                    (trainOf t d).state = .running ∨ (trainOf t d).state = .waitInput)
                ∧ t.pif = (accepted .ops 0x71 2 s).pif ∧ ChangesOnly [.pif, .dsq] s t)
            ∧ ((trainOf s d).state ≠ .off → bankValid (nth s.dsq.banks (trainOf s d).bank) = true →
              exec (.selectBank .ops (ubytes 1 (d.val + 1) ++ ubytes 1 (b.val + 1))) s
                = .next (accepted .ops 0x71 2
                    (alterTrain d (fun r => { r with pendingBank := if r.bank = b then none else some b }) s)))))

/-- SET-TRAIN: values out of range are RANGE; that a slot number above 15 is, a setting outside its range of R115, is the model's reading
(log entry 13); else the settings are stored. Enabling an OFF train parks it at step 0, or lets it enter step 0 where its running is
allowed (site WITHDRAWING or standby on) and its bank is valid; disabling turns a train OFF with every deadline cleared and its outputs
off; standby on resumes a PARKED train and ends a park request, standby off sets one; a FAULTED train stays FAULTED; an enable and a
changed binding judge the off-spec state afresh, a changed limit or hysteresis alone judges a GOOD channel by the good-reading lines, and
OFFSPEC Dk follows it (R128 to R130, R132). That an enable of a FAULTED train keeps its off-spec state is the model's choice (log entry
44), and so is that a limit or hysteresis changed together with the binding or an enable is judged afresh alone (log entry 45). A dew
point on a slot that is not DISABLED and lacks the channel in format S16 is IN_USE (R130). RESET-TRAIN: a train that is not FAULTED is
STATE; a FAULTED one leaves FAULTED at step 0 by its enabled setting, running where that is allowed, its cause cleared and TRAIN Dk
fallen, its fault step and banks kept, and its tower but for a SWAP step that it enters (R129, R131). -/
def Obligations.TrainRequestsStoreAndReset : Prop :=
  (∀ (fields : List Byte) (d : Fin 2) (s : State), heldInReset s = false → fits 0x72 fields = true →
      ordinal? 2 (byteAt fields 0) = some d → mark fields 1 ≠ none → mark fields 2 = some true → mark fields 11 ≠ none →
      15 < byteAt fields 3 → exec (.setTrain .ops fields) s = .next (answered .ops 14 .range [0x72] s))
    ∧ (∀ (fields : List Byte) (d : Fin 2) (c : TrainSettings) (s : State), heldInReset s = false → fits 0x72 fields = true →
      ordinal? 2 (byteAt fields 0) = some d → readTrainSettings fields = some c →
      ((5000 < c.hysteresis ∨ ∃ b, c.binding = some b ∧ 3 < b.channel) →
          exec (.setTrain .ops fields) s = .next (answered .ops 14 .range [0x72] s))
        ∧ (c.hysteresis ≤ 5000 → (∀ b, c.binding = some b → b.channel ≤ 3) →
          (¬ mayBind s .s16 c.binding → exec (.setTrain .ops fields) s = .next (answered .ops 14 .inUse [0x72] s))
            ∧ (mayBind s .s16 c.binding →
              ∃ t, exec (.setTrain .ops fields) s = .next t
                ∧ (trainOf t d).enabled = c.enabled ∧ (trainOf t d).binding = c.binding ∧ (trainOf t d).breakthrough = c.breakthrough
                ∧ (trainOf t d).specLimit = c.specLimit ∧ (trainOf t d).hysteresis = c.hysteresis ∧ (trainOf t d).standby = c.standby
                ∧ ((trainOf s d).state = .faulted → (trainOf t d).state = .faulted)
                ∧ ((trainOf s d).state ≠ .faulted → c.enabled = false →
                    (trainOf t d).state = .off ∧ (trainOf t d).stepIndex = 0 ∧ (trainOf t d).parkRequest = false
                      ∧ (trainOf t d).timeDeadline = none ∧ (trainOf t d).dwellDeadline = none ∧ (trainOf t d).timeoutDeadline = none
                      ∧ (trainOf t d).strokeDeadline = none ∧ dryerOutputs t d = fill 8 false ∧ (trainOf t d).offSpec = false)
                ∧ ((trainOf s d).state = .off → c.enabled = true →
                    (s.dir.direction ≠ .withdrawing ∧ c.standby = false) ∨ bankValid (nth s.dsq.banks (trainOf s d).bank) = false →
                    (trainOf t d).state = .parked ∧ (trainOf t d).stepIndex = 0)
                ∧ (∀ r, (trainOf s d).state = .off → c.enabled = true → s.dir.direction = .withdrawing ∨ c.standby = true →
                    bankValid (nth s.dsq.banks (trainOf s d).bank) = true → nth (nth s.dsq.banks (trainOf s d).bank) 0 = .written r →
                    enteredStep (timeBase s) 0 r { trainOf t d with tower := (trainOf s d).tower } (trainOf t d))
                ∧ (∀ (i : Fin 24) r, (trainOf s d).state = .parked → c.enabled = true → s.dir.direction ≠ .withdrawing →
                    (trainOf s d).standby = false → c.standby = true → bankValid (nth s.dsq.banks (trainOf s d).bank) = true →
                    i.val = (trainOf s d).stepIndex → nth (nth s.dsq.banks (trainOf s d).bank) i = .written r →
                    enteredStep (timeBase s) i.val r { trainOf t d with tower := (trainOf s d).tower } (trainOf t d))
                ∧ ((trainOf s d).state = .running ∨ (trainOf s d).state = .waitInput → c.enabled = true → s.dir.direction ≠ .withdrawing →
                    (trainOf s d).standby ≠ c.standby →
                    (trainOf t d).state = (trainOf s d).state ∧ (trainOf t d).parkRequest = !c.standby)
                ∧ (((trainOf s d).state = .off ∧ c.enabled = true)
                      ∨ ((trainOf s d).binding ≠ c.binding ∧ (trainOf t d).state ≠ .off) →
                    ((trainOf t d).offSpec = true ↔
                      (boundChannel s c.binding).quality = .noReading ∨ c.specLimit ≤ (boundChannel s c.binding).value))
                ∧ ((trainOf s d).state ≠ .off → (trainOf t d).state ≠ .off → (trainOf s d).binding = c.binding →
                    (((trainOf s d).specLimit = c.specLimit ∧ (trainOf s d).hysteresis = c.hysteresis)
                        ∨ (boundChannel s c.binding).quality ≠ .good →
                        (trainOf t d).offSpec = (trainOf s d).offSpec)
                      ∧ ((trainOf s d).specLimit ≠ c.specLimit ∨ (trainOf s d).hysteresis ≠ c.hysteresis →
                        (boundChannel s c.binding).quality = .good →
                        ((trainOf s d).offSpec = false →
                            ((trainOf t d).offSpec = true ↔ c.specLimit ≤ (boundChannel s c.binding).value))
                          ∧ ((trainOf s d).offSpec = true →
                            ((trainOf t d).offSpec = false ↔ (boundChannel s c.binding).value ≤ c.specLimit - c.hysteresis))))
                ∧ conditionActive t (condOffSpec d) = (trainOf t d).offSpec
                ∧ (∀ e, e ≠ d → trainOf t e = trainOf s e) ∧ t.dsq.banks = s.dsq.banks
                ∧ t.pif = (accepted .ops 0x72 12 s).pif
                ∧ ChangesOnly [.pif, .dsq, .cdt, .nfu] s t)))
    ∧ (∀ (d : Fin 2) (s : State), heldInReset s = false →
      ((trainOf s d).state ≠ .faulted → exec (.resetTrain .ops (ubytes 1 (d.val + 1))) s = .next (answered .ops 3 .state [0x73] s))
        ∧ ((trainOf s d).state = .faulted →
            ∃ t, exec (.resetTrain .ops (ubytes 1 (d.val + 1))) s = .next t
              ∧ (trainOf t d).cause = .noCause ∧ (trainOf t d).stepIndex = 0 ∧ (trainOf t d).faultStep = (trainOf s d).faultStep
              ∧ (trainOf t d).bank = (trainOf s d).bank ∧ (trainOf t d).pendingBank = (trainOf s d).pendingBank
              ∧ ((trainOf t d).state = .off ∨ (trainOf t d).state = .parked → (trainOf t d).tower = (trainOf s d).tower)
              ∧ ((trainOf s d).enabled = false → (trainOf t d).state = .off ∧ (trainOf t d).offSpec = false)
              ∧ ((trainOf s d).enabled = true →
                  (s.dir.direction ≠ .withdrawing ∧ (trainOf s d).standby = false)
                    ∨ bankValid (nth s.dsq.banks (trainOf s d).bank) = false →
                  (trainOf t d).state = .parked ∧ (trainOf t d).stepIndex = 0)
              ∧ (∀ r, (trainOf s d).enabled = true → s.dir.direction = .withdrawing ∨ (trainOf s d).standby = true →
                  bankValid (nth s.dsq.banks (trainOf s d).bank) = true → nth (nth s.dsq.banks (trainOf s d).bank) 0 = .written r →
                  enteredStep (timeBase s) 0 r { trainOf s d with cause := .noCause } (trainOf t d))
              ∧ conditionActive t (condTrain d) = false
              ∧ (∀ e, e ≠ d → trainOf t e = trainOf s e)
              ∧ t.pif = (accepted .ops 0x73 1 s).pif
              ∧ ChangesOnly [.pif, .dsq, .cdt, .nfu, .freeReads] s t))

/-- A step that ends without a fault parks a train with a park request before the next entry, enters a WRITTEN next entry with the deadlines
of its advance, and at an END counts the cycle, takes the pending bank and enters entry 0 (R122 to R125, R128). A reading at or above
the breakthrough level ends a step that has ADSORB_EXIT, counts an early advance, and ends no other (R127). A change of direction that
ends the running of a train sets its park request while it is in a step; one that allows it again ends the request, and resumes a PARKED
train with a valid bank at the entry of its step index, over an END by way of entry 0 (R128, R129). -/
def Obligations.EndedStepEntersTheNextEntry : Prop :=
  (∀ (d : Fin 2) (value : Int) (s : State),
      (∀ r, currentStep s.dsq.banks (trainOf s d) = some r → r.adsorbExit = true → (trainOf s d).breakthrough ≤ value →
          trainOf (breakthrough value d s) d
              = endStep s.dsq.banks (timeBase s)
                  { trainOf s d with earlyAdvances := min 65535 ((trainOf s d).earlyAdvances + 1) }
            ∧ ∀ e, e ≠ d → trainOf (breakthrough value d s) e = trainOf s e)
        ∧ ((∀ r, currentStep s.dsq.banks (trainOf s d) = some r → r.adsorbExit = false ∨ value < (trainOf s d).breakthrough) →
          breakthrough value d s = s))
    ∧ (∀ (new : SiteDirection) (d : Fin 2) (s : State),
        ((trainOf s d).standby = true ∨ (s.dir.direction = .withdrawing ↔ new = .withdrawing) →
            trainOf (changeDirection new s) d = trainOf s d)
          ∧ ((trainOf s d).standby = false → s.dir.direction = .withdrawing → new ≠ .withdrawing →
            trainOf (changeDirection new s) d =
              if (trainOf s d).state = .running ∨ (trainOf s d).state = .waitInput then { trainOf s d with parkRequest := true }
              else trainOf s d)
          ∧ ((trainOf s d).standby = false → s.dir.direction ≠ .withdrawing → new = .withdrawing →
            ((trainOf s d).state ≠ .parked ∨ bankValid (nth s.dsq.banks (trainOf s d).bank) = false →
                trainOf (changeDirection new s) d = { trainOf s d with parkRequest := false })
              ∧ ∀ (i : Fin 24) (r : StepRecord), (trainOf s d).state = .parked →
                bankValid (nth s.dsq.banks (trainOf s d).bank) = true → i.val = (trainOf s d).stepIndex →
                (nth (nth s.dsq.banks (trainOf s d).bank) i = .written r →
                    enteredStep (timeBase s) i.val r { trainOf s d with parkRequest := false } (trainOf (changeDirection new s) d))
                  ∧ (nth (nth s.dsq.banks (trainOf s d).bank) i = .endMark →
                    nth (nth s.dsq.banks ((trainOf s d).pendingBank.getD (trainOf s d).bank)) 0 = .written r →
                    enteredStep (timeBase s) 0 r
                      { trainOf s d with
                        parkRequest := false, cycles := min 65535 ((trainOf s d).cycles + 1)
                        bank := (trainOf s d).pendingBank.getD (trainOf s d).bank, pendingBank := none }
                      (trainOf (changeDirection new s) d))))
    ∧ ∀ (banks : Vector (Vector BankEntry 24) 2) (now : Nat) (t : Train),
    (t.parkRequest = true →
        endStep banks now t
          = { t with
              state := .parked, parkRequest := false, stepIndex := t.stepIndex + 1
              timeDeadline := none, dwellDeadline := none, timeoutDeadline := none, strokeDeadline := none })
      ∧ (∀ (i : Fin 24) (r : StepRecord), t.parkRequest = false → i.val = t.stepIndex + 1 → nth (nth banks t.bank) i = .written r →
          endStep banks now t
            = { t with
                stepIndex := t.stepIndex + 1
                tower := if r.swap then t.tower.other else t.tower
                state := if r.advance = .input then .waitInput else .running
                timeDeadline := if r.advance = .input then none else some (now + r.duration * (if r.longUnit then 16 else 1) * 10)
                dwellDeadline := if r.advance = .input then some (now + 10) else none
                timeoutDeadline := if r.advance = .input then some (now + r.duration * (if r.longUnit then 16 else 1) * 10) else none
                strokeDeadline := none })
      ∧ ∀ (i : Fin 24) (r : StepRecord), t.parkRequest = false → i.val = t.stepIndex + 1 → nth (nth banks t.bank) i = .endMark →
          nth (nth banks (t.pendingBank.getD t.bank)) 0 = .written r →
          (endStep banks now t).cycles = min 65535 (t.cycles + 1) ∧ (endStep banks now t).bank = t.pendingBank.getD t.bank
            ∧ (endStep banks now t).pendingBank = none ∧ (endStep banks now t).stepIndex = 0
            ∧ (endStep banks now t).state = (if r.advance = .input then .waitInput else .running)
            ∧ (endStep banks now t).tower = if r.swap then t.tower.other else t.tower

/-- A taken change of a position input records the level, and ends the step of a train that waits past the dwell for that input at that
level (R117, R124, R125). The time deadline ends a TIME step, ends a TIME_THEN_INPUT step whose input stands at sense and else begins its
stroke wait of 60 s; the dwell of an INPUT step ends it at sense and else only passes, and short of sense faults the train with
INPUT_TIMEOUT where the timeout falls at the same instant; the timeout ends the step at sense and else faults the train with
INPUT_TIMEOUT; the end of a stroke wait faults it with STROKE_TIMEOUT; a faulted train has its outputs off (R123 to R126). The model's
choices: a level already recorded is no change (log entries 27 and 2), and an expiry before its deadline, without one, or outside the
state it belongs to, RUNNING for the time deadline and WAIT_INPUT for the others, changes nothing (log entry 2). -/
def Obligations.StepInputsAndDeadlinesEndTheStep : Prop :=
  (∀ (d : Fin 2) (i : Fin 4) (level : Bool) (s : State), heldInReset s = false →
      (nth (trainOf s d).inputs i = level → exec (.positionInputChange d i level) s = .next s)
        ∧ (nth (trainOf s d).inputs i ≠ level →
          (∀ r, currentStep s.dsq.banks (trainOf s d) = some r → (trainOf s d).state = .waitInput → (trainOf s d).dwellDeadline = none →
              r.input = i → r.sense = level →
              exec (.positionInputChange d i level) s
                = .next (alterTrain d (fun x => endStep s.dsq.banks (timeBase s) { x with inputs := put x.inputs i level }) s))
            ∧ ((∀ r, currentStep s.dsq.banks (trainOf s d) = some r →
                  (trainOf s d).state ≠ .waitInput ∨ (trainOf s d).dwellDeadline ≠ none ∨ r.input ≠ i ∨ r.sense ≠ level) →
              exec (.positionInputChange d i level) s = .next (alterTrain d (fun x => { x with inputs := put x.inputs i level }) s))))
    ∧ (∀ (d : Fin 2) (r : StepRecord) (s : State), heldInReset s = false → currentStep s.dsq.banks (trainOf s d) = some r →
      (∀ e, (trainOf s d).state = .running → (trainOf s d).timeDeadline = some e →
          (e ≤ timeBase s →
              (r.advance = .time ∨ nth (trainOf s d).inputs r.input = r.sense →
                  exec (.stepTimeExpiry d) s = .next (alterTrain d (endStep s.dsq.banks (timeBase s)) s))
                ∧ (r.advance ≠ .time → nth (trainOf s d).inputs r.input ≠ r.sense →
                  exec (.stepTimeExpiry d) s
                    = .next (alterTrain d
                        (fun x => { x with state := .waitInput, timeDeadline := none, strokeDeadline := some (timeBase s + 600) }) s)))
            ∧ (timeBase s < e → exec (.stepTimeExpiry d) s = .next s))
        ∧ ∀ e, (trainOf s d).state = .waitInput → (trainOf s d).dwellDeadline = some e →
          (e ≤ timeBase s →
              (nth (trainOf s d).inputs r.input = r.sense →
                  exec (.dwellExpiry d) s = .next (alterTrain d (endStep s.dsq.banks (timeBase s)) s))
                ∧ (nth (trainOf s d).inputs r.input ≠ r.sense → (trainOf s d).timeoutDeadline ≠ some e →
                  exec (.dwellExpiry d) s = .next (alterTrain d (fun x => { x with dwellDeadline := none }) s))
                ∧ (nth (trainOf s d).inputs r.input ≠ r.sense → (trainOf s d).timeoutDeadline = some e →
                  ∃ t, exec (.dwellExpiry d) s = .next t ∧ trainFaulted d .inputTimeout s t ∧ dryerOutputs t d = fill 8 false
                    ∧ ChangesOnly [.cdt, .dsq, .nfu] s t))
            ∧ (timeBase s < e → exec (.dwellExpiry d) s = .next s))
    ∧ (∀ (d : Fin 2) (s : State),
        ((trainOf s d).timeDeadline = none ∨ (trainOf s d).state ≠ .running → exec (.stepTimeExpiry d) s = .next s)
          ∧ ((trainOf s d).dwellDeadline = none ∨ (trainOf s d).state ≠ .waitInput → exec (.dwellExpiry d) s = .next s)
          ∧ ((trainOf s d).timeoutDeadline = none ∨ (trainOf s d).state ≠ .waitInput → exec (.inputTimeout d) s = .next s)
          ∧ ((trainOf s d).strokeDeadline = none ∨ (trainOf s d).state ≠ .waitInput → exec (.strokeTimeout d) s = .next s))
    ∧ (∀ (d : Fin 2) (s : State), heldInReset s = false → (trainOf s d).state = .waitInput →
      (∀ r e, currentStep s.dsq.banks (trainOf s d) = some r → (trainOf s d).timeoutDeadline = some e → e ≤ timeBase s →
          (nth (trainOf s d).inputs r.input = r.sense →
              exec (.inputTimeout d) s = .next (alterTrain d (endStep s.dsq.banks (timeBase s)) s))
            ∧ (nth (trainOf s d).inputs r.input ≠ r.sense →
              ∃ t, exec (.inputTimeout d) s = .next t ∧ trainFaulted d .inputTimeout s t ∧ dryerOutputs t d = fill 8 false
                ∧ ChangesOnly [.cdt, .dsq, .nfu] s t))
        ∧ (∀ e, (trainOf s d).strokeDeadline = some e → e ≤ timeBase s →
          ∃ t, exec (.strokeTimeout d) s = .next t ∧ trainFaulted d .strokeTimeout s t ∧ dryerOutputs t d = fill 8 false
            ∧ ChangesOnly [.cdt, .dsq, .nfu] s t)
        ∧ ((trainOf s d).timeoutDeadline = none ∨ (∃ e, (trainOf s d).timeoutDeadline = some e ∧ timeBase s < e) →
          exec (.inputTimeout d) s = .next s)
        ∧ ((trainOf s d).strokeDeadline = none ∨ (∃ e, (trainOf s d).strokeDeadline = some e ∧ timeBase s < e) →
          exec (.strokeTimeout d) s = .next s))

/-! ### Accounts -/

/-- OPEN-ACCOUNT, SET-RIGHTS and CLOSE-ACCOUNT check in the order of their rules, a slot number above 15 first, and a request that
passes changes its slot and nothing else (R141 to R144). -/
def Obligations.AccountRequestsChangeTheirSlot : Prop :=
  (∀ (fields : List Byte) (s : State), heldInReset s = false → 15 < byteAt fields 0 →
      (fits 0x80 fields = true → exec (.openAccount .com fields) s = .next (answered .com 17 .malformed [0x80] s))
        ∧ (fits 0x81 fields = true → exec (.setRights .com fields) s = .next (answered .com 15 .malformed [0x81] s))
        ∧ (fits 0x82 fields = true → exec (.closeAccount .com fields) s = .next (answered .com 3 .malformed [0x82] s)))
    ∧ (∀ (a : Fin 16) (code space injection withdrawal : Nat) (s : State), heldInReset s = false → code < 2 ^ 16 → space < 2 ^ 32 →
      injection < 2 ^ 32 → withdrawal < 2 ^ 32 →
      ∀ fields, fields = ubytes 1 a.val ++ ubytes 2 code ++ ubytes 4 space ++ ubytes 4 injection ++ ubytes 4 withdrawal →
      (code = 0 ∨ 4000000000 < space ∨ 100000000 < injection ∨ 100000000 < withdrawal →
          exec (.openAccount .com fields) s = .next (answered .com 17 .range [0x80] s))
        ∧ (1 ≤ code → space ≤ 4000000000 → injection ≤ 100000000 → withdrawal ≤ 100000000 →
          ((accountOf s a).state ≠ .vacant → exec (.openAccount .com fields) s = .next (answered .com 17 .state [0x80] s))
            ∧ ((accountOf s a).state = .vacant →
              (∃ b, b ≠ a ∧ (accountOf s b).state ≠ .vacant ∧ (accountOf s b).code = some code) →
              exec (.openAccount .com fields) s = .next (answered .com 17 .inUse [0x80] s))
            ∧ ((accountOf s a).state = .vacant →
              (∀ b, b ≠ a → (accountOf s b).state ≠ .vacant → (accountOf s b).code ≠ some code) →
              exec (.openAccount .com fields) s
                = .next (accepted .com 0x80 15
                    (alterAccount a (fun _ => ⟨.active, some code, space, injection, withdrawal, 0⟩) s)))))
    ∧ (∀ (a : Fin 16) (space injection withdrawal : Nat) (s : State), heldInReset s = false → space < 2 ^ 32 → injection < 2 ^ 32 →
        withdrawal < 2 ^ 32 →
        ∀ fields, fields = ubytes 1 a.val ++ ubytes 4 space ++ ubytes 4 injection ++ ubytes 4 withdrawal →
        (4000000000 < space ∨ 100000000 < injection ∨ 100000000 < withdrawal →
            exec (.setRights .com fields) s = .next (answered .com 15 .range [0x81] s))
          ∧ (space ≤ 4000000000 → injection ≤ 100000000 → withdrawal ≤ 100000000 →
            ((accountOf s a).state = .vacant → exec (.setRights .com fields) s = .next (answered .com 15 .state [0x81] s))
              ∧ ((accountOf s a).state ≠ .vacant → (space : Int) < (accountOf s a).inventory + injectionReserve s a →
                exec (.setRights .com fields) s = .next (answered .com 15 .limit [0x81] s))
              ∧ ((accountOf s a).state ≠ .vacant → (accountOf s a).inventory + injectionReserve s a ≤ space →
                exec (.setRights .com fields) s
                  = .next (accepted .com 0x81 13
                      (alterAccount a (fun r => { r with space := space, injectionRight := injection, withdrawalRight := withdrawal }) s)))))
    ∧ ∀ (a : Fin 16) (s : State), heldInReset s = false →
        ((accountOf s a).state ≠ .active → exec (.closeAccount .com (ubytes 1 a.val)) s = .next (answered .com 3 .state [0x82] s))
          ∧ ((accountOf s a).state = .active →
            exec (.closeAccount .com (ubytes 1 a.val)) s
              = .next (accepted .com 0x82 1 (alterAccount a (fun r => { r with state := .closing }) s)))

/-- TRANSFER within the giver's free inventory and the receiver's free space moves the quantity and nothing else, and its response carries
both inventories, the giver's free inventory and the receiver's free space after it; beyond either it is LIMIT. A slot number above
15, or one slot on both sides, is MALFORMED (R146, R147). SETTLE-SUSPENSE moves a quantity between suspense and a shipper within its free
space, its free inventory and the range of the suspense balance; the book inventory stays. A slot number above 15 is MALFORMED (R148). -/
def Obligations.TransferAndSettleMoveInventory : Prop :=
  ((∀ (fields : List Byte) (s : State), heldInReset s = false → fits 0x83 fields = true →
        15 < byteAt fields 0 ∨ 15 < byteAt fields 1 ∨ byteAt fields 0 = byteAt fields 1 →
        exec (.transfer .com fields) s = .next (answered .com 8 .malformed [0x83] s))
      ∧ ∀ (g r : Fin 16) (quantity : Nat) (s : State), heldInReset s = false → g ≠ r → quantity < 2 ^ 32 →
      ∀ fields, fields = ubytes 1 g.val ++ ubytes 1 r.val ++ ubytes 4 quantity →
      (quantity = 0 ∨ 4000000000 < quantity → exec (.transfer .com fields) s = .next (answered .com 8 .range [0x83] s))
        ∧ (1 ≤ quantity → quantity ≤ 4000000000 →
          ((accountOf s g).state = .vacant ∨ (accountOf s r).state ≠ .active →
              exec (.transfer .com fields) s = .next (answered .com 8 .state [0x83] s))
            ∧ ((accountOf s g).state ≠ .vacant → (accountOf s r).state = .active →
              (freeInventory s g < quantity ∨ freeSpace s r < quantity →
                  exec (.transfer .com fields) s = .next (answered .com 8 .limit [0x83] s))
                ∧ ((quantity : Int) ≤ freeInventory s g → (quantity : Int) ≤ freeSpace s r →
                  ∃ t, exec (.transfer .com fields) s = .next t
                    ∧ accountOf t g = { accountOf s g with inventory := (accountOf s g).inventory - quantity }
                    ∧ accountOf t r = { accountOf s r with inventory := (accountOf s r).inventory + quantity }
                    ∧ (∀ a, a ≠ g → a ≠ r → accountOf t a = accountOf s a)
                    ∧ t.act.book = s.act.book ∧ t.act.suspense = s.act.suspense
                    ∧ t.pif = (answered .com 8 .ok
                        (0x83 :: (sbytes 4 ((accountOf s g).inventory - quantity) ++ sbytes 4 ((accountOf s r).inventory + quantity)
                          ++ sbytes 4 (freeInventory s g - quantity) ++ sbytes 4 (freeSpace s r - quantity))) s).pif
                    ∧ ChangesOnly [.pif, .act] s t))))
    ∧ ((∀ (fields : List Byte) (s : State), heldInReset s = false → fits 0x84 fields = true → 15 < byteAt fields 0 →
        exec (.settleSuspense .com fields) s = .next (answered .com 9 .malformed [0x84] s))
      ∧ ∀ (a : Fin 16) (quantity : Int) (s : State), heldInReset s = false → -(2 ^ 47) ≤ quantity → quantity < 2 ^ 47 →
      ∀ fields, fields = ubytes 1 a.val ++ sbytes 6 quantity →
      (quantity = 0 ∨ quantity < -4000000000 ∨ 4000000000 < quantity →
          exec (.settleSuspense .com fields) s = .next (answered .com 9 .range [0x84] s))
        ∧ (quantity ≠ 0 → -4000000000 ≤ quantity → quantity ≤ 4000000000 →
          ((accountOf s a).state = .vacant → exec (.settleSuspense .com fields) s = .next (answered .com 9 .state [0x84] s))
            ∧ ((accountOf s a).state ≠ .vacant →
              ((0 < quantity ∧ freeSpace s a < quantity) ∨ (quantity < 0 ∧ freeInventory s a < -quantity)
                  ∨ ¬ isTotal (s.act.suspense - quantity) →
                  exec (.settleSuspense .com fields) s = .next (answered .com 9 .limit [0x84] s))
                ∧ ((0 < quantity → quantity ≤ freeSpace s a) → (quantity < 0 → -quantity ≤ freeInventory s a) →
                  isTotal (s.act.suspense - quantity) →
                  ∃ t, exec (.settleSuspense .com fields) s = .next t
                    ∧ accountOf t a = { accountOf s a with inventory := (accountOf s a).inventory + quantity }
                    ∧ (∀ b, b ≠ a → accountOf t b = accountOf s b)
                    ∧ t.act.book = s.act.book ∧ t.act.suspense = s.act.suspense - quantity
                    ∧ t.pif = (answered .com 9 .ok
                        (0x84 :: (sbytes 4 ((accountOf s a).inventory + quantity) ++ sbytes 4 (freeInventory s a + quantity)
                          ++ sbytes 4 (freeSpace s a - quantity) ++ sbytes 6 (s.act.suspense - quantity))) s).pif
                    ∧ ChangesOnly [.pif, .act] s t))))

/-! ### Nominations -/

/-- NOMINATE, NOMINATE-DAY and CANCEL-NOMINATION check in the order MALFORMED, RANGE, CLOCK, STATE, LATE, and a run that passes is
written for its shipper and nothing else is; a mask is a run exactly if it marks one contiguous run of hours. NOMINATE-REST checks
in the same order, writes from the first nominable hour of today to hour 23, and is LATE when today has none (R156 to R158). An hour is
late when it is firmed, or lies in the rows at or before the open hour, which is an hour of today (R157). -/
def Obligations.NominationsWriteTheirRun : Prop :=
  ((∀ (s : State) (p : Fin 72),
      (clockRunning s = false → (lateHour s p = true ↔ (hourOf s p).site.firmed = true))
        ∧ ∀ l, clockRunning s = true → s.clock.lastClosed = some l →
          (lateHour s p = true ↔ (hourOf s p).site.firmed = true ∨ p.val ≤ 24 + l.next.hour % 24))
    ∧ (∀ mask first count : Nat, mask < 2 ^ 24 →
      (maskRun mask = some (first, count) ↔ 1 ≤ count ∧ first + count ≤ 24 ∧ mask = (2 ^ count - 1) * 2 ^ first))
    ∧ (∀ (fields : List Byte) (s : State), heldInReset s = false →
        (fits 0x90 fields = true → 15 < byteAt fields 0 ∨ 1 < byteAt fields 1 ∨ maskRun (num fields 2 3) = none →
            exec (.nominate .com fields) s = .next (answered .com 11 .malformed [0x90] s))
          ∧ (fits 0x91 fields = true → 15 < byteAt fields 0 ∨ 1 < byteAt fields 1 →
            exec (.nominateDay .com fields) s = .next (answered .com 8 .malformed [0x91] s))
          ∧ (fits 0x92 fields = true → 15 < byteAt fields 0 →
            exec (.nominateRest .com fields) s = .next (answered .com 7 .malformed [0x92] s))
          ∧ (fits 0x93 fields = true → 15 < byteAt fields 0 ∨ 1 < byteAt fields 1 ∨ maskRun (num fields 2 3) = none →
            exec (.cancelNomination .com fields) s = .next (answered .com 7 .malformed [0x93] s)))
    ∧ ∀ (a : Fin 16) (tomorrow : Bool) (first count : Nat) (q : Int) (quantity : Option Int) (c : Instr) (code : Byte) (n : Nat)
        (s : State), heldInReset s = false → 1 ≤ count → first + count ≤ 24 → -(2 ^ 31) ≤ q → q < 2 ^ 31 →
        ((c = .nominate .com (ubytes 1 a.val ++ markByte tomorrow ++ ubytes 3 ((2 ^ count - 1) * 2 ^ first) ++ sbytes 4 q)
              ∧ code = 0x90 ∧ n = 9 ∧ quantity = some q)
          ∨ (c = .nominateDay .com (ubytes 1 a.val ++ markByte tomorrow ++ sbytes 4 q) ∧ code = 0x91 ∧ n = 6 ∧ quantity = some q
              ∧ first = 0 ∧ count = 24)
          ∨ (c = .cancelNomination .com (ubytes 1 a.val ++ markByte tomorrow ++ ubytes 3 ((2 ^ count - 1) * 2 ^ first))
              ∧ code = 0x93 ∧ n = 5 ∧ quantity = none)) →
        ((quantity ≠ none → q < -100000000 ∨ 100000000 < q → exec c s = .next (answered .com (n + 2) .range [code] s))
          ∧ (quantity = none ∨ (-100000000 ≤ q ∧ q ≤ 100000000) →
            (clockRunning s = false → exec c s = .next (answered .com (n + 2) .clock [code] s))
              ∧ (clockRunning s = true →
                ((accountOf s a).state = .vacant ∨ ((accountOf s a).state = .closing ∧ quantity ≠ none ∧ 0 < q) →
                    exec c s = .next (answered .com (n + 2) .state [code] s))
                  ∧ ((accountOf s a).state = .active ∨ ((accountOf s a).state = .closing ∧ (quantity = none ∨ q ≤ 0)) →
                    (lateHour s (rowPosition tomorrow first) = true → exec c s = .next (answered .com (n + 2) .late [code] s))
                      ∧ (lateHour s (rowPosition tomorrow first) = false →
                        ∃ t, exec c s = .next t
                          ∧ runWritten a ((if tomorrow then 48 else 24) + first) count quantity s t
                          ∧ t.pif = (answered .com (n + 2) .ok
                              [code, if tomorrow then 1 else 0, BitVec.ofNat 8 first, BitVec.ofNat 8 count] s).pif
                          ∧ t.nfu = { s.nfu with hours := t.nfu.hours }
                          ∧ ChangesOnly [.pif, .nfu] s t))))))
    ∧ (∀ (a : Fin 16) (q : Int) (s : State), heldInReset s = false → -(2 ^ 31) ≤ q → q < 2 ^ 31 →
        (q < -100000000 ∨ 100000000 < q → exec (.nominateRest .com (ubytes 1 a.val ++ sbytes 4 q)) s = .next (answered .com 7 .range [0x92] s))
          ∧ (-100000000 ≤ q → q ≤ 100000000 → clockRunning s = false →
            exec (.nominateRest .com (ubytes 1 a.val ++ sbytes 4 q)) s = .next (answered .com 7 .clock [0x92] s))
          ∧ (-100000000 ≤ q → q ≤ 100000000 → clockRunning s = true →
            (accountOf s a).state = .vacant ∨ ((accountOf s a).state = .closing ∧ 0 < q) →
            exec (.nominateRest .com (ubytes 1 a.val ++ sbytes 4 q)) s = .next (answered .com 7 .state [0x92] s)))
    ∧ ∀ (a : Fin 16) (q : Int) (s : State), heldInReset s = false → clockRunning s = true → -100000000 ≤ q → q ≤ 100000000 →
    ((accountOf s a).state = .active ∨ ((accountOf s a).state = .closing ∧ q ≤ 0)) →
    ((∀ h, h < 24 → lateHour s (todayPosition h) = true) →
        exec (.nominateRest .com (ubytes 1 a.val ++ sbytes 4 q)) s = .next (answered .com 7 .late [0x92] s))
      ∧ ∀ first, first < 24 → lateHour s (todayPosition first) = false → (∀ h, h < first → lateHour s (todayPosition h) = true) →
        ∃ t, exec (.nominateRest .com (ubytes 1 a.val ++ sbytes 4 q)) s = .next t
          ∧ runWritten a (24 + first) (24 - first) (some q) s t
          ∧ t.pif = (answered .com 7 .ok [0x92, 0, BitVec.ofNat 8 first, BitVec.ofNat 8 (24 - first)] s).pif
          ∧ t.nfu = { s.nfu with hours := t.nfu.hours } ∧ ChangesOnly [.pif, .nfu] s t

/-- SET-LEAD holds a lead of 1 to 4 pending, SET-RATCHET stores its table, and SET-ALLOCATION the mode; nothing else changes. A lead
outside 1 to 4 and a rate above 1,000 are RANGE; an unknown table, a count of points outside 2 to 8, fills that do not rise from 0 to
1,000 and an unknown mode are MALFORMED (R160, R162, R189). -/
def Obligations.LeadRatchetAndAllocationAreStored : Prop :=
  (∀ (lead : Byte) (s : State), heldInReset s = false →
      (1 ≤ lead.toNat ∧ lead.toNat ≤ 4 →
          exec (.setLead .com [lead]) s
            = .next (accepted .com 0x94 1
                (s.withNfu { s.nfu with pendingLead := if lead.toNat = s.nfu.lead then none else some lead.toNat })))
        ∧ (lead.toNat = 0 ∨ 4 < lead.toNat → exec (.setLead .com [lead]) s = .next (answered .com 3 .range [0x94] s)))
    ∧ (∀ (withdrawal : Bool) (points : List RatchetPoint) (s : State), heldInReset s = false → 2 ≤ points.length →
        points.length ≤ 8 → (∀ p ∈ points, p.fill < 65536 ∧ p.rate < 65536) →
        ∀ fields, fields = markByte withdrawal ++ ubytes 1 points.length ++ points.flatMap (fun p => ubytes 2 p.fill ++ ubytes 2 p.rate) →
        (((points.map RatchetPoint.fill).Pairwise (· < ·) ∧ (points.map RatchetPoint.fill).head? = some 0
              ∧ (points.map RatchetPoint.fill).getLast? = some 1000) →
            ((∀ p ∈ points, p.rate ≤ 1000) →
                exec (.setRatchet .com fields) s
                  = .next (accepted .com 0x95 (2 + 4 * points.length)
                      (s.withNfu (if withdrawal then { s.nfu with withdrawalRatchet := points }
                        else { s.nfu with injectionRatchet := points }))))
              ∧ ((∃ p ∈ points, 1000 < p.rate) →
                exec (.setRatchet .com fields) s = .next (answered .com (4 + 4 * points.length) .range [0x95] s)))
          ∧ (¬ ((points.map RatchetPoint.fill).Pairwise (· < ·) ∧ (points.map RatchetPoint.fill).head? = some 0
              ∧ (points.map RatchetPoint.fill).getLast? = some 1000) →
            exec (.setRatchet .com fields) s = .next (answered .com (4 + 4 * points.length) .malformed [0x95] s)))
    ∧ (∀ (fields : List Byte) (s : State), heldInReset s = false → fits 0x95 fields = true →
        1 < byteAt fields 0 ∨ byteAt fields 1 < 2 ∨ 8 < byteAt fields 1 →
        exec (.setRatchet .com fields) s = .next (answered .com (fields.length + 2) .malformed [0x95] s))
    ∧ (∀ (mode : Byte) (s : State), heldInReset s = false → 1 < mode.toNat →
        exec (.setAllocation .com [mode]) s = .next (answered .com 3 .malformed [0xA0] s))
    ∧ ∀ (mode : AllocationMode) (s : State), heldInReset s = false →
        exec (.setAllocation .com (ubytes 1 mode.byte)) s = .next (accepted .com 0xA0 1 (s.withCau { s.cau with mode := mode }))

/-- Largest remainder: first shares by whole division, the rest one unit each to the largest remainders, the lower slot first among equals;
the shares add to the target, every share is 0 where no basis is above 0, and where the target does not exceed the sum of the bases no
share exceeds its basis (R168). The target may exceed that sum, as for the extra and the fuel of a close (R180, R181); that the steps
then run on as they stand, one unit of the rest to each in the order of remainders, is the model's reading (log entry 36). -/
def Obligations.LargestRemainderSharesTheTarget : Prop :=
  ∀ (total : Nat) (basis : Vector Nat 16),
    (0 < sumNat (nth basis) ∨ total = 0 → sumNat (nth (largestRemainder total basis)) = total)
      ∧ (sumNat (nth basis) = 0 → ∀ i, nth (largestRemainder total basis) i = 0)
      ∧ (∀ i, nth basis i = 0 → nth (largestRemainder total basis) i = 0)
      ∧ (total ≤ sumNat (nth basis) → ∀ i, nth (largestRemainder total basis) i ≤ nth basis i)
      ∧ (∀ i, nth (largestRemainder total basis) i = total * nth basis i / sumNat (nth basis)
          ∨ nth (largestRemainder total basis) i = total * nth basis i / sumNat (nth basis) + 1)
      ∧ ∀ i j, 0 < nth basis i →
          nth (largestRemainder total basis) j = total * nth basis j / sumNat (nth basis) + 1 →
          nth (largestRemainder total basis) i = total * nth basis i / sumNat (nth basis) → i ≠ j →
          total * nth basis i % sumNat (nth basis) < total * nth basis j % sumNat (nth basis)
            ∨ (total * nth basis i % sumNat (nth basis) = total * nth basis j % sumNat (nth basis) ∧ j < i)

/-- The firm of an hour (R164). Rights: each request is cut to the rate right of its shipper and to its free inventory or free space
(R165); a rate right is the right times the rate that the ratchet table gives its fill, straight between two points, rounded down (R163).
Capacity: in each direction the least of four contributions at the percentage of the derate class (R60, R71, R84, R112, R134, R166).
Curtailment: a net beyond its capacity is brought to it by largest remainder among those that flow with it (R167). Recording: the hour,
and each held entry with REDUCED where the rights step cut it and CURTAILED where the curtailment did (R169). No other hour changes, and
the firm of a firmed hour does nothing (R164). -/
def Obligations.FirmBringsTheNetWithinCapacities : Prop :=
  (∀ (table : List RatchetPoint) (fill : Nat), fillsValid table = true →
      (∀ a ∈ table, a.fill = fill → ratchetRate fill table = a.rate)
        ∧ ∀ before a b after, table = before ++ a :: b :: after → a.fill < fill → fill < b.fill →
          floorsTo (((b.rate : Int) - a.rate) * ((fill : Int) - a.fill)) ((b.fill : Int) - a.fill) (ratchetRate fill table - a.rate))
    ∧ (∀ (s : State) (a : Fin 16), 0 ≤ (accountOf s a).inventory →
        ∃ fill : Nat,
          ((accountOf s a).space = 0 → fill = 1000)
            ∧ ((accountOf s a).space ≠ 0 → floorsTo ((accountOf s a).inventory * 1000) (accountOf s a).space fill)
            ∧ floorsTo ((accountOf s a).injectionRight * ratchetRate fill s.nfu.injectionRatchet) 1000 (injectionLimit s a)
            ∧ floorsTo ((accountOf s a).withdrawalRight * ratchetRate fill s.nfu.withdrawalRatchet) 1000 (withdrawalLimit s a))
    ∧ (∀ (s : State) (a : Fin 16) (q : Int), rightsStep s a q (rightsQuantity s a q))
    ∧ (∀ s : State, CapacitiesFormed s (injectionCapacity s) (withdrawalCapacity s))
    ∧ (∀ (p : Fin 72) (s : State), (hourOf s p).site.firmed = true → firm p s = s)
    ∧ ∀ (p : Fin 72) (s : State) (q : Vector Int 16), (hourOf s p).site.firmed = false →
    q = (tab fun a => rightsQuantity s a (requestedOf s p a)) →
    (hourOf (firm p s) p).site.firmed = true ∧ (hourOf (firm p s) p).site.closed = (hourOf s p).site.closed
      ∧ (hourOf (firm p s) p).site.refirmed = (hourOf s p).site.refirmed
      ∧ (hourOf (firm p s) p).site.direction = directionOf (hourOf (firm p s) p).site.net
      ∧ ((hourOf (firm p s) p).site.curtailed = true ↔
          ∃ a, (accountOf s a).held = true ∧ (confirmedOf (firm p s) p a).natAbs < (nth q a).natAbs)
      ∧ (∀ a, (accountOf s a).held = true →
          curtailed q (injectionCapacity s) (withdrawalCapacity s) a (confirmedOf (firm p s) p a)
            ∧ entryOf (firm p s) p a =
              { entryOf s p a with
                confirmed := some (confirmedOf (firm p s) p a)
                reduced := decide (nth q a ≠ requestedOf s p a)
                curtailed := decide ((confirmedOf (firm p s) p a).natAbs < (nth q a).natAbs) })
      ∧ (∀ a, (accountOf s a).state = .vacant → entryOf (firm p s) p a = entryOf s p a)
      ∧ nth (firm p s).cdt.com.flags evHourFirmed = true ∧ ChangesOnly [.cdt, .nfu] s (firm p s)
      ∧ (hourOf (firm p s) p).site.injectionCapacity = injectionCapacity s
      ∧ (hourOf (firm p s) p).site.withdrawalCapacity = withdrawalCapacity s
      ∧ (hourOf (firm p s) p).site.net ≤ injectionCapacity s ∧ -(withdrawalCapacity s : Int) ≤ (hourOf (firm p s) p).site.net
      ∧ (hourOf (firm p s) p).site.net = (sumInt fun a : Fin 16 => if (accountOf s a).held then confirmedOf (firm p s) p a else 0)
      ∧ (∀ a, (accountOf s a).held = true → (confirmedOf (firm p s) p a).natAbs ≤ (nth q a).natAbs)
      ∧ ∀ r, r ≠ p → hourOf (firm p s) r = hourOf s r

/-- A re-firm concerns the firmed, unclosed hours not yet started: it lowers each recorded capacity to the capacity of this instant where
that is lower, and never raises one; it brings the confirmed net within them by confirmations lowered only in magnitude, marks what it
lowered, and sets the REFIRMED flag when a capacity was lowered. The confirmations are those of the curtailment on the old ones: an hour
whose net lies within the capacities keeps them all, and else those that flow with the net share by largest remainder (R168, R171). Free
inventory and free space never fall, and a report that raises the derate class is followed by a re-firm (R70, R150, R170). A report of
what the Active item already says is no event; a rise sets the item and, with a level of 1 or more, both pendings; a fall clears the item
and leaves the pendings; no other condition changes, and the class and the lead are formed again (R64, R65). -/
def Obligations.RefirmOnlyLowers : Prop :=
  (∀ (p : Fin 72) (s : State),
      ((hourOf s p).site.firmed = false ∨ (hourOf s p).site.closed = true ∨ (∃ o, openPosition s = some o ∧ p ≤ o) →
          hourOf (refirm s) p = hourOf s p)
        ∧ ((hourOf s p).site.firmed = true → (hourOf s p).site.closed = false → (∀ o, openPosition s = some o → o < p) →
          (hourOf (refirm s) p).site.injectionCapacity = min (hourOf s p).site.injectionCapacity (injectionCapacity s)
            ∧ (hourOf (refirm s) p).site.withdrawalCapacity = min (hourOf s p).site.withdrawalCapacity (withdrawalCapacity s)
            ∧ hourOf (refirm s) p = refirmCell (injectionCapacity s) (withdrawalCapacity s) (hourOf s p)
            ∧ (hourOf (refirm s) p).site.net = sumInt (confirmedOf (refirm s) p)
            ∧ (hourOf (refirm s) p).site.net ≤ (hourOf (refirm s) p).site.injectionCapacity
            ∧ -((hourOf (refirm s) p).site.withdrawalCapacity : Int) ≤ (hourOf (refirm s) p).site.net
            ∧ (hourOf (refirm s) p).site.direction = directionOf (hourOf (refirm s) p).site.net
            ∧ (hourOf (refirm s) p).site.firmed = true ∧ (hourOf (refirm s) p).site.closed = false
            ∧ (hourOf (refirm s) p).site.curtailed = (hourOf s p).site.curtailed
            ∧ ((hourOf (refirm s) p).site.refirmed = true ↔
                (hourOf s p).site.refirmed = true ∨ injectionCapacity s < (hourOf s p).site.injectionCapacity
                  ∨ withdrawalCapacity s < (hourOf s p).site.withdrawalCapacity)
            ∧ (∀ a,
                curtailed (tab fun b => confirmedOf s p b) (min (hourOf s p).site.injectionCapacity (injectionCapacity s))
                  (min (hourOf s p).site.withdrawalCapacity (withdrawalCapacity s)) a (confirmedOf (refirm s) p a))
            ∧ (sumInt (confirmedOf s p) ≤ (min (hourOf s p).site.injectionCapacity (injectionCapacity s) : Nat) →
                -((min (hourOf s p).site.withdrawalCapacity (withdrawalCapacity s) : Nat) : Int) ≤ sumInt (confirmedOf s p) →
                ∀ a, entryOf (refirm s) p a = entryOf s p a)
            ∧ ∀ a : Fin 16,
              (0 ≤ confirmedOf s p a → 0 ≤ confirmedOf (refirm s) p a ∧ confirmedOf (refirm s) p a ≤ confirmedOf s p a)
                ∧ (confirmedOf s p a ≤ 0 → confirmedOf s p a ≤ confirmedOf (refirm s) p a ∧ confirmedOf (refirm s) p a ≤ 0)
                ∧ (confirmedOf (refirm s) p a = confirmedOf s p a → entryOf (refirm s) p a = entryOf s p a)
                ∧ (confirmedOf (refirm s) p a ≠ confirmedOf s p a →
                  entryOf (refirm s) p a
                    = { entryOf s p a with confirmed := some (confirmedOf (refirm s) p a), refirmed := true })))
    ∧ (∀ s : State,
        (nth (refirm s).cdt.com.flags evRefirmed = true ↔
            nth s.cdt.com.flags evRefirmed = true
              ∨ ∃ p : Fin 72, (hourOf s p).site.firmed = true ∧ (hourOf s p).site.closed = false
                  ∧ (∀ o, openPosition s = some o → o < p)
                  ∧ (injectionCapacity s < (hourOf s p).site.injectionCapacity
                      ∨ withdrawalCapacity s < (hourOf s p).site.withdrawalCapacity))
          ∧ (∀ a, freeInventory s a ≤ freeInventory (refirm s) a ∧ freeSpace s a ≤ freeSpace (refirm s) a)
          ∧ ChangesOnly [.cdt, .nfu] s (refirm s))
    ∧ (∀ (n : Fin 56) (active : Bool) (c : Cdt),
        ((nth c.conditions n).active = active → c.follow n active = c)
          ∧ ((nth c.conditions n).active ≠ active →
            nth (c.follow n active).conditions n =
                { nth c.conditions n with
                  active := active
                  pendingOps := (nth c.conditions n).pendingOps || (active && decide (1 ≤ (nth c.conditions n).level))
                  pendingCom := (nth c.conditions n).pendingCom || (active && decide (1 ≤ (nth c.conditions n).level)) }
              ∧ (∀ m, m ≠ n → nth (c.follow n active).conditions m = nth c.conditions m)
              ∧ c.follow n active =
                { c with
                  conditions := (c.follow n active).conditions
                  derateClass := formClass (c.follow n active).conditions
                  lead := formLead (c.follow n active).conditions }))
    ∧ ∀ (n : Fin 56) (active : Bool) (s : State),
        ((s.cdt.follow n active).derateClass ≤ s.cdt.derateClass → report n active s = s.withCdt (s.cdt.follow n active))
          ∧ (s.cdt.derateClass < (s.cdt.follow n active).derateClass →
            report n active s = refirm (s.withCdt (s.cdt.follow n active)))

/-! ### Outputs -/

/-- Out of reset the output lines follow the state: the alert lines (R76), the flow permits (R88), the run requests (R96), the dryer outputs
by the train's state, its on-stream tower and its step (R116), and the driver enable with the frame it sends (R14, R16, R207). The frame of
a READ or a WRITE is spelled byte by byte, and its CRC as the division of R14 from 0xFFFF on. (Held in reset they are off or released:
another statement.) -/
def Obligations.OutputsFollowTheState : Prop :=
  (∀ (address start count register value : Nat) (body : List Byte),
      (body = [BitVec.ofNat 8 address, 0x31] ++ ubytes 2 start ++ ubytes 1 count →
          requestFrame (.read address start count) = 0xC5 :: (body ++ ubytes 2 (crc16 body).toNat ++ [0x5C]))
        ∧ (body = [BitVec.ofNat 8 address, 0x32] ++ ubytes 2 register ++ ubytes 2 value →
          requestFrame (.write address register value) = 0xC5 :: (body ++ ubytes 2 (crc16 body).toNat ++ [0x5C]))
        ∧ (crc16 []).toNat = 0xFFFF
        ∧ ∀ b : Byte, (crc16 (body ++ [b])).toNat = crcDivided 8 ((crc16 body).toNat ^^^ (b.toNat * 256)))
    ∧ ∀ s : State, heldInReset s = false →
    (∀ p, alertAsserted s p = true ↔
        (∃ n, (nth s.cdt.conditions n).pendingOf p = true ∧ (s.cdt.alertOf p).threshold ≤ (nth s.cdt.conditions n).level)
          ∨ ∃ e, nth (s.cdt.alertOf p).flags e = true ∧ nth (s.cdt.alertOf p).mask e = true)
      ∧ (injectionPermit s = true ↔ s.dir.direction = .injecting)
      ∧ (withdrawalPermit s = true ↔ s.dir.direction = .withdrawing)
      ∧ (∀ u, runRequest s u = true ↔ (unitOf s u).state = .starting ∨ (unitOf s u).state = .running)
      ∧ (∀ d, ((trainOf s d).state = .off ∨ (trainOf s d).state = .faulted → dryerOutputs s d = fill 8 false)
          ∧ ((trainOf s d).state = .parked → ∀ l : Fin 8,
              nth (dryerOutputs s d) l =
                if (trainOf s d).tower = .a then decide (l.val = 0 ∨ l.val = 1) else decide (l.val = 3 ∨ l.val = 4))
          ∧ ∀ r, currentStep s.dsq.banks (trainOf s d) = some r →
              nth (dryerOutputs s d) 6 = r.heater ∧ nth (dryerOutputs s d) 7 = r.cooler
                ∧ ∀ a b : Pattern, a = (if (trainOf s d).tower = .a then r.onStream else r.offStream) →
                  b = (if (trainOf s d).tower = .a then r.offStream else r.onStream) →
                  nth (dryerOutputs s d) 0 = a.inlet ∧ nth (dryerOutputs s d) 1 = a.outlet ∧ nth (dryerOutputs s d) 2 = a.regeneration
                    ∧ nth (dryerOutputs s d) 3 = b.inlet ∧ nth (dryerOutputs s d) 4 = b.outlet
                    ∧ nth (dryerOutputs s d) 5 = b.regeneration)
      ∧ (∀ frame, transmitting s = some frame ↔
          ∃ f, s.fsu.engine = .awaitReply f ∧ f.windowEnd = none ∧ frame = requestFrame f.request)
      ∧ (driverEnabled s = true ↔ ∃ frame, transmitting s = some frame)

/-! ### Resets -/

/-- A RESET-PART, a power-on, and the release of a pin that was low for at least 10 µs with power present are each a reset of their kind; a
shorter pulse is none; and loss of power and a low pin hold the part in reset (R201 to R205). The model's readings: POWER_ON ends both
holds in any state, and a PIN without main power ends the pin's hold alone (log entry 23, DEDUCED); the tests of retained memory are one
mark, which a failed retention supply clears (log entry 24, DEDUCED); and Commercial REFIRMED may stand after a reset whose re-firm marks
an hour (log entry 42). -/
def Obligations.ResetsTakeTheirValues : Prop :=
  (∀ (lines : Lines) (s : State), heldInReset s = false →
      ∃ t, exec (.resetPart .ops [] lines) s = .next t ∧ ResetTaken .command lines s t
        ∧ t.pif.ops = ⟨some ⟨.ok, [0xB1]⟩, none, [0xFF, 0xFF]⟩ ∧ t.pif.com.response = none ∧ t.pif.com.image = none)
    ∧ (∀ (lines : Lines) (s : State), ∃ t, exec (.powerOn lines) s = .next t ∧ ResetTaken .powerOn lines s t
        ∧ ∀ p, (t.pif.portOf p).response = none ∧ (t.pif.portOf p).image = none)
    ∧ (∀ (micros : Nat) (lines : Lines) (s : State),
        (s.pif.powerLost = false → 10 ≤ micros →
            ∃ t, exec (.pin micros lines) s = .next t ∧ ResetTaken .pin lines s t
              ∧ ∀ p, (t.pif.portOf p).response = none ∧ (t.pif.portOf p).image = none)
          ∧ (s.pif.powerLost = true ∨ micros < 10 → exec (.pin micros lines) s = .next (s.withPif { s.pif with pinLow := false })))
    ∧ ∀ (failed : Bool) (s : State),
        exec (.heldInReset .pinLow) s = .next (s.withPif { s.pif with pinLow := true })
          ∧ exec (.heldInReset (.powerLost failed)) s
              = .next (s.withPif { s.pif with powerLost := true, retainedIntact := s.pif.retainedIntact && !failed })

/-! ### What every step keeps -/

/-- The state after reset meets every property below. -/
def Obligations.ResetStateIsSound : Prop := Sound State.reset

/-- The derate class always equals the highest level among Active conditions, or 0 when no Active condition has a level of at least 1, and
the lead condition is the lowest numbered Active condition of that level, or none (R69). -/
def Obligations.StepKeepsDerateClassFormed : Prop :=
  (∀ table : Vector Condition 56,
      (∀ n, (nth table n).active = true → (nth table n).level ≤ formClass table)
        ∧ (formClass table = 0 ∨ ∃ n, (nth table n).active = true ∧ (nth table n).level = formClass table)
        ∧ ∀ n, formLead table = some n ↔
            (nth table n).active = true ∧ 1 ≤ (nth table n).level
              ∧ (∀ m, (nth table m).active = true → (nth table m).level ≤ (nth table n).level)
              ∧ ∀ m, m < n → (nth table m).active = true → (nth table m).level < (nth table n).level)
    ∧ ∀ s t : State, ClassFormed s → step s = .next t → ClassFormed t

/-- The inventories and the suspense balance always add to the book inventory, modulo 2⁴⁸ (R139), and no two slots that are not VACANT
ever carry the same shipper code (R141). -/
def Obligations.StepKeepsBooksBalancedAndCodesDistinct : Prop :=
  ∀ s t : State, step s = .next t → (BooksBalance s → BooksBalance t) ∧ (CodesDistinct s → CodesDistinct t)

/-- No shipper's inventory ever falls below its firmed, unclosed withdrawal confirmations, and its inventory with its firmed, unclosed
injection confirmations never exceeds its space right (R140), while confirmations stand only in firmed hours of held slots and
only hours past are closed. Settings are in their ranges, which every step keeps. -/
def Obligations.StepKeepsFreeInventoryAndFreeSpace : Prop :=
  ∀ s t : State, ClockInRange s → SettingsInRange s → RowsKept s → AccountLaws s → step s = .next t → RowsKept t ∧ AccountLaws t

/-- The poll queue stays in its order, with one entry for every slot that is polled, queued or in flight, and none for any other (R30). -/
def Obligations.StepKeepsPollQueue : Prop :=
  ∀ s t : State, QueueKept s → step s = .next t → QueueKept t

/-- At most one compressor unit is STARTING, whatever happens (R107), and units are STARTING or RUNNING only while the site is INJECTING:
the demand is 0 in every other state, and leaving INJECTING stops them (R105, R108). -/
def Obligations.StepKeepsOneUnitStarting : Prop :=
  ∀ s t : State, step s = .next t → (OneStarting s → OneStarting t) ∧ (RunOnlyInjecting s → RunOnlyInjecting t)

/-- Gas-day time stays a time of the gas day, and the history within its 48 records (R3, R6, R186). -/
def Obligations.StepKeepsClockAndHistoryInRange : Prop :=
  ∀ s t : State, ClockInRange s → HistoryWithin s → step s = .next t → ClockInRange t ∧ HistoryWithin t

/-- Every setting stays in the range its rule gives: field line, slots, script, points, β and CV, levels, derate table, alert thresholds,
caverns, site, duty, trains, banks, leads and ratchets (R15, R19, R23, R41, R43, R63, R71, R73, R79, R87, R109, R115, R118, R160, R162). -/
def Obligations.StepKeepsSettingsInRange : Prop :=
  ∀ s t : State, SettingsInRange s → step s = .next t → SettingsInRange t
end

