-- ==== Sys2Proof/Laws/State.lean ====
section
/-! SUPPORT. What a field of the state reads after one block is replaced: one lemma for each field and each replacement, so that no
proof unfolds a record update. -/

namespace Sys2Proof.Machine.State

@[simp] theorem withFine_fine (s : State) (x : Nat) : (s.withFine x).fine = x := rfl
@[simp] theorem withFine_clock (s : State) (x : Nat) : (s.withFine x).clock = s.clock := rfl
@[simp] theorem withFine_fsu (s : State) (x : Nat) : (s.withFine x).fsu = s.fsu := rfl
@[simp] theorem withFine_mtu (s : State) (x : Nat) : (s.withFine x).mtu = s.mtu := rfl
@[simp] theorem withFine_cdt (s : State) (x : Nat) : (s.withFine x).cdt = s.cdt := rfl
@[simp] theorem withFine_dir (s : State) (x : Nat) : (s.withFine x).dir = s.dir := rfl
@[simp] theorem withFine_cpd (s : State) (x : Nat) : (s.withFine x).cpd = s.cpd := rfl
@[simp] theorem withFine_dsq (s : State) (x : Nat) : (s.withFine x).dsq = s.dsq := rfl
@[simp] theorem withFine_act (s : State) (x : Nat) : (s.withFine x).act = s.act := rfl
@[simp] theorem withFine_nfu (s : State) (x : Nat) : (s.withFine x).nfu = s.nfu := rfl
@[simp] theorem withFine_cau (s : State) (x : Nat) : (s.withFine x).cau = s.cau := rfl
@[simp] theorem withFine_pif (s : State) (x : Nat) : (s.withFine x).pif = s.pif := rfl
@[simp] theorem withFine_freeReads (s : State) (x : Nat) : (s.withFine x).freeReads = s.freeReads := rfl
@[simp] theorem withFine_pending (s : State) (x : Nat) : (s.withFine x).pending = s.pending := rfl

@[simp] theorem withClock_fine (s : State) (x : Clock) : (s.withClock x).fine = s.fine := rfl
@[simp] theorem withClock_clock (s : State) (x : Clock) : (s.withClock x).clock = x := rfl
@[simp] theorem withClock_fsu (s : State) (x : Clock) : (s.withClock x).fsu = s.fsu := rfl
@[simp] theorem withClock_mtu (s : State) (x : Clock) : (s.withClock x).mtu = s.mtu := rfl
@[simp] theorem withClock_cdt (s : State) (x : Clock) : (s.withClock x).cdt = s.cdt := rfl
@[simp] theorem withClock_dir (s : State) (x : Clock) : (s.withClock x).dir = s.dir := rfl
@[simp] theorem withClock_cpd (s : State) (x : Clock) : (s.withClock x).cpd = s.cpd := rfl
@[simp] theorem withClock_dsq (s : State) (x : Clock) : (s.withClock x).dsq = s.dsq := rfl
@[simp] theorem withClock_act (s : State) (x : Clock) : (s.withClock x).act = s.act := rfl
@[simp] theorem withClock_nfu (s : State) (x : Clock) : (s.withClock x).nfu = s.nfu := rfl
@[simp] theorem withClock_cau (s : State) (x : Clock) : (s.withClock x).cau = s.cau := rfl
@[simp] theorem withClock_pif (s : State) (x : Clock) : (s.withClock x).pif = s.pif := rfl
@[simp] theorem withClock_freeReads (s : State) (x : Clock) : (s.withClock x).freeReads = s.freeReads := rfl
@[simp] theorem withClock_pending (s : State) (x : Clock) : (s.withClock x).pending = s.pending := rfl

@[simp] theorem withFsu_fine (s : State) (x : Fsu) : (s.withFsu x).fine = s.fine := rfl
@[simp] theorem withFsu_clock (s : State) (x : Fsu) : (s.withFsu x).clock = s.clock := rfl
@[simp] theorem withFsu_fsu (s : State) (x : Fsu) : (s.withFsu x).fsu = x := rfl
@[simp] theorem withFsu_mtu (s : State) (x : Fsu) : (s.withFsu x).mtu = s.mtu := rfl
@[simp] theorem withFsu_cdt (s : State) (x : Fsu) : (s.withFsu x).cdt = s.cdt := rfl
@[simp] theorem withFsu_dir (s : State) (x : Fsu) : (s.withFsu x).dir = s.dir := rfl
@[simp] theorem withFsu_cpd (s : State) (x : Fsu) : (s.withFsu x).cpd = s.cpd := rfl
@[simp] theorem withFsu_dsq (s : State) (x : Fsu) : (s.withFsu x).dsq = s.dsq := rfl
@[simp] theorem withFsu_act (s : State) (x : Fsu) : (s.withFsu x).act = s.act := rfl
@[simp] theorem withFsu_nfu (s : State) (x : Fsu) : (s.withFsu x).nfu = s.nfu := rfl
@[simp] theorem withFsu_cau (s : State) (x : Fsu) : (s.withFsu x).cau = s.cau := rfl
@[simp] theorem withFsu_pif (s : State) (x : Fsu) : (s.withFsu x).pif = s.pif := rfl
@[simp] theorem withFsu_freeReads (s : State) (x : Fsu) : (s.withFsu x).freeReads = s.freeReads := rfl
@[simp] theorem withFsu_pending (s : State) (x : Fsu) : (s.withFsu x).pending = s.pending := rfl

@[simp] theorem withMtu_fine (s : State) (x : Mtu) : (s.withMtu x).fine = s.fine := rfl
@[simp] theorem withMtu_clock (s : State) (x : Mtu) : (s.withMtu x).clock = s.clock := rfl
@[simp] theorem withMtu_fsu (s : State) (x : Mtu) : (s.withMtu x).fsu = s.fsu := rfl
@[simp] theorem withMtu_mtu (s : State) (x : Mtu) : (s.withMtu x).mtu = x := rfl
@[simp] theorem withMtu_cdt (s : State) (x : Mtu) : (s.withMtu x).cdt = s.cdt := rfl
@[simp] theorem withMtu_dir (s : State) (x : Mtu) : (s.withMtu x).dir = s.dir := rfl
@[simp] theorem withMtu_cpd (s : State) (x : Mtu) : (s.withMtu x).cpd = s.cpd := rfl
@[simp] theorem withMtu_dsq (s : State) (x : Mtu) : (s.withMtu x).dsq = s.dsq := rfl
@[simp] theorem withMtu_act (s : State) (x : Mtu) : (s.withMtu x).act = s.act := rfl
@[simp] theorem withMtu_nfu (s : State) (x : Mtu) : (s.withMtu x).nfu = s.nfu := rfl
@[simp] theorem withMtu_cau (s : State) (x : Mtu) : (s.withMtu x).cau = s.cau := rfl
@[simp] theorem withMtu_pif (s : State) (x : Mtu) : (s.withMtu x).pif = s.pif := rfl
@[simp] theorem withMtu_freeReads (s : State) (x : Mtu) : (s.withMtu x).freeReads = s.freeReads := rfl
@[simp] theorem withMtu_pending (s : State) (x : Mtu) : (s.withMtu x).pending = s.pending := rfl

@[simp] theorem withCdt_fine (s : State) (x : Cdt) : (s.withCdt x).fine = s.fine := rfl
@[simp] theorem withCdt_clock (s : State) (x : Cdt) : (s.withCdt x).clock = s.clock := rfl
@[simp] theorem withCdt_fsu (s : State) (x : Cdt) : (s.withCdt x).fsu = s.fsu := rfl
@[simp] theorem withCdt_mtu (s : State) (x : Cdt) : (s.withCdt x).mtu = s.mtu := rfl
@[simp] theorem withCdt_cdt (s : State) (x : Cdt) : (s.withCdt x).cdt = x := rfl
@[simp] theorem withCdt_dir (s : State) (x : Cdt) : (s.withCdt x).dir = s.dir := rfl
@[simp] theorem withCdt_cpd (s : State) (x : Cdt) : (s.withCdt x).cpd = s.cpd := rfl
@[simp] theorem withCdt_dsq (s : State) (x : Cdt) : (s.withCdt x).dsq = s.dsq := rfl
@[simp] theorem withCdt_act (s : State) (x : Cdt) : (s.withCdt x).act = s.act := rfl
@[simp] theorem withCdt_nfu (s : State) (x : Cdt) : (s.withCdt x).nfu = s.nfu := rfl
@[simp] theorem withCdt_cau (s : State) (x : Cdt) : (s.withCdt x).cau = s.cau := rfl
@[simp] theorem withCdt_pif (s : State) (x : Cdt) : (s.withCdt x).pif = s.pif := rfl
@[simp] theorem withCdt_freeReads (s : State) (x : Cdt) : (s.withCdt x).freeReads = s.freeReads := rfl
@[simp] theorem withCdt_pending (s : State) (x : Cdt) : (s.withCdt x).pending = s.pending := rfl

@[simp] theorem withDir_fine (s : State) (x : Dir) : (s.withDir x).fine = s.fine := rfl
@[simp] theorem withDir_clock (s : State) (x : Dir) : (s.withDir x).clock = s.clock := rfl
@[simp] theorem withDir_fsu (s : State) (x : Dir) : (s.withDir x).fsu = s.fsu := rfl
@[simp] theorem withDir_mtu (s : State) (x : Dir) : (s.withDir x).mtu = s.mtu := rfl
@[simp] theorem withDir_cdt (s : State) (x : Dir) : (s.withDir x).cdt = s.cdt := rfl
@[simp] theorem withDir_dir (s : State) (x : Dir) : (s.withDir x).dir = x := rfl
@[simp] theorem withDir_cpd (s : State) (x : Dir) : (s.withDir x).cpd = s.cpd := rfl
@[simp] theorem withDir_dsq (s : State) (x : Dir) : (s.withDir x).dsq = s.dsq := rfl
@[simp] theorem withDir_act (s : State) (x : Dir) : (s.withDir x).act = s.act := rfl
@[simp] theorem withDir_nfu (s : State) (x : Dir) : (s.withDir x).nfu = s.nfu := rfl
@[simp] theorem withDir_cau (s : State) (x : Dir) : (s.withDir x).cau = s.cau := rfl
@[simp] theorem withDir_pif (s : State) (x : Dir) : (s.withDir x).pif = s.pif := rfl
@[simp] theorem withDir_freeReads (s : State) (x : Dir) : (s.withDir x).freeReads = s.freeReads := rfl
@[simp] theorem withDir_pending (s : State) (x : Dir) : (s.withDir x).pending = s.pending := rfl

@[simp] theorem withCpd_fine (s : State) (x : Cpd) : (s.withCpd x).fine = s.fine := rfl
@[simp] theorem withCpd_clock (s : State) (x : Cpd) : (s.withCpd x).clock = s.clock := rfl
@[simp] theorem withCpd_fsu (s : State) (x : Cpd) : (s.withCpd x).fsu = s.fsu := rfl
@[simp] theorem withCpd_mtu (s : State) (x : Cpd) : (s.withCpd x).mtu = s.mtu := rfl
@[simp] theorem withCpd_cdt (s : State) (x : Cpd) : (s.withCpd x).cdt = s.cdt := rfl
@[simp] theorem withCpd_dir (s : State) (x : Cpd) : (s.withCpd x).dir = s.dir := rfl
@[simp] theorem withCpd_cpd (s : State) (x : Cpd) : (s.withCpd x).cpd = x := rfl
@[simp] theorem withCpd_dsq (s : State) (x : Cpd) : (s.withCpd x).dsq = s.dsq := rfl
@[simp] theorem withCpd_act (s : State) (x : Cpd) : (s.withCpd x).act = s.act := rfl
@[simp] theorem withCpd_nfu (s : State) (x : Cpd) : (s.withCpd x).nfu = s.nfu := rfl
@[simp] theorem withCpd_cau (s : State) (x : Cpd) : (s.withCpd x).cau = s.cau := rfl
@[simp] theorem withCpd_pif (s : State) (x : Cpd) : (s.withCpd x).pif = s.pif := rfl
@[simp] theorem withCpd_freeReads (s : State) (x : Cpd) : (s.withCpd x).freeReads = s.freeReads := rfl
@[simp] theorem withCpd_pending (s : State) (x : Cpd) : (s.withCpd x).pending = s.pending := rfl

@[simp] theorem withDsq_fine (s : State) (x : Dsq) : (s.withDsq x).fine = s.fine := rfl
@[simp] theorem withDsq_clock (s : State) (x : Dsq) : (s.withDsq x).clock = s.clock := rfl
@[simp] theorem withDsq_fsu (s : State) (x : Dsq) : (s.withDsq x).fsu = s.fsu := rfl
@[simp] theorem withDsq_mtu (s : State) (x : Dsq) : (s.withDsq x).mtu = s.mtu := rfl
@[simp] theorem withDsq_cdt (s : State) (x : Dsq) : (s.withDsq x).cdt = s.cdt := rfl
@[simp] theorem withDsq_dir (s : State) (x : Dsq) : (s.withDsq x).dir = s.dir := rfl
@[simp] theorem withDsq_cpd (s : State) (x : Dsq) : (s.withDsq x).cpd = s.cpd := rfl
@[simp] theorem withDsq_dsq (s : State) (x : Dsq) : (s.withDsq x).dsq = x := rfl
@[simp] theorem withDsq_act (s : State) (x : Dsq) : (s.withDsq x).act = s.act := rfl
@[simp] theorem withDsq_nfu (s : State) (x : Dsq) : (s.withDsq x).nfu = s.nfu := rfl
@[simp] theorem withDsq_cau (s : State) (x : Dsq) : (s.withDsq x).cau = s.cau := rfl
@[simp] theorem withDsq_pif (s : State) (x : Dsq) : (s.withDsq x).pif = s.pif := rfl
@[simp] theorem withDsq_freeReads (s : State) (x : Dsq) : (s.withDsq x).freeReads = s.freeReads := rfl
@[simp] theorem withDsq_pending (s : State) (x : Dsq) : (s.withDsq x).pending = s.pending := rfl

@[simp] theorem withAct_fine (s : State) (x : Act) : (s.withAct x).fine = s.fine := rfl
@[simp] theorem withAct_clock (s : State) (x : Act) : (s.withAct x).clock = s.clock := rfl
@[simp] theorem withAct_fsu (s : State) (x : Act) : (s.withAct x).fsu = s.fsu := rfl
@[simp] theorem withAct_mtu (s : State) (x : Act) : (s.withAct x).mtu = s.mtu := rfl
@[simp] theorem withAct_cdt (s : State) (x : Act) : (s.withAct x).cdt = s.cdt := rfl
@[simp] theorem withAct_dir (s : State) (x : Act) : (s.withAct x).dir = s.dir := rfl
@[simp] theorem withAct_cpd (s : State) (x : Act) : (s.withAct x).cpd = s.cpd := rfl
@[simp] theorem withAct_dsq (s : State) (x : Act) : (s.withAct x).dsq = s.dsq := rfl
@[simp] theorem withAct_act (s : State) (x : Act) : (s.withAct x).act = x := rfl
@[simp] theorem withAct_nfu (s : State) (x : Act) : (s.withAct x).nfu = s.nfu := rfl
@[simp] theorem withAct_cau (s : State) (x : Act) : (s.withAct x).cau = s.cau := rfl
@[simp] theorem withAct_pif (s : State) (x : Act) : (s.withAct x).pif = s.pif := rfl
@[simp] theorem withAct_freeReads (s : State) (x : Act) : (s.withAct x).freeReads = s.freeReads := rfl
@[simp] theorem withAct_pending (s : State) (x : Act) : (s.withAct x).pending = s.pending := rfl

@[simp] theorem withNfu_fine (s : State) (x : Nfu) : (s.withNfu x).fine = s.fine := rfl
@[simp] theorem withNfu_clock (s : State) (x : Nfu) : (s.withNfu x).clock = s.clock := rfl
@[simp] theorem withNfu_fsu (s : State) (x : Nfu) : (s.withNfu x).fsu = s.fsu := rfl
@[simp] theorem withNfu_mtu (s : State) (x : Nfu) : (s.withNfu x).mtu = s.mtu := rfl
@[simp] theorem withNfu_cdt (s : State) (x : Nfu) : (s.withNfu x).cdt = s.cdt := rfl
@[simp] theorem withNfu_dir (s : State) (x : Nfu) : (s.withNfu x).dir = s.dir := rfl
@[simp] theorem withNfu_cpd (s : State) (x : Nfu) : (s.withNfu x).cpd = s.cpd := rfl
@[simp] theorem withNfu_dsq (s : State) (x : Nfu) : (s.withNfu x).dsq = s.dsq := rfl
@[simp] theorem withNfu_act (s : State) (x : Nfu) : (s.withNfu x).act = s.act := rfl
@[simp] theorem withNfu_nfu (s : State) (x : Nfu) : (s.withNfu x).nfu = x := rfl
@[simp] theorem withNfu_cau (s : State) (x : Nfu) : (s.withNfu x).cau = s.cau := rfl
@[simp] theorem withNfu_pif (s : State) (x : Nfu) : (s.withNfu x).pif = s.pif := rfl
@[simp] theorem withNfu_freeReads (s : State) (x : Nfu) : (s.withNfu x).freeReads = s.freeReads := rfl
@[simp] theorem withNfu_pending (s : State) (x : Nfu) : (s.withNfu x).pending = s.pending := rfl

@[simp] theorem withCau_fine (s : State) (x : Cau) : (s.withCau x).fine = s.fine := rfl
@[simp] theorem withCau_clock (s : State) (x : Cau) : (s.withCau x).clock = s.clock := rfl
@[simp] theorem withCau_fsu (s : State) (x : Cau) : (s.withCau x).fsu = s.fsu := rfl
@[simp] theorem withCau_mtu (s : State) (x : Cau) : (s.withCau x).mtu = s.mtu := rfl
@[simp] theorem withCau_cdt (s : State) (x : Cau) : (s.withCau x).cdt = s.cdt := rfl
@[simp] theorem withCau_dir (s : State) (x : Cau) : (s.withCau x).dir = s.dir := rfl
@[simp] theorem withCau_cpd (s : State) (x : Cau) : (s.withCau x).cpd = s.cpd := rfl
@[simp] theorem withCau_dsq (s : State) (x : Cau) : (s.withCau x).dsq = s.dsq := rfl
@[simp] theorem withCau_act (s : State) (x : Cau) : (s.withCau x).act = s.act := rfl
@[simp] theorem withCau_nfu (s : State) (x : Cau) : (s.withCau x).nfu = s.nfu := rfl
@[simp] theorem withCau_cau (s : State) (x : Cau) : (s.withCau x).cau = x := rfl
@[simp] theorem withCau_pif (s : State) (x : Cau) : (s.withCau x).pif = s.pif := rfl
@[simp] theorem withCau_freeReads (s : State) (x : Cau) : (s.withCau x).freeReads = s.freeReads := rfl
@[simp] theorem withCau_pending (s : State) (x : Cau) : (s.withCau x).pending = s.pending := rfl

@[simp] theorem withPif_fine (s : State) (x : Pif) : (s.withPif x).fine = s.fine := rfl
@[simp] theorem withPif_clock (s : State) (x : Pif) : (s.withPif x).clock = s.clock := rfl
@[simp] theorem withPif_fsu (s : State) (x : Pif) : (s.withPif x).fsu = s.fsu := rfl
@[simp] theorem withPif_mtu (s : State) (x : Pif) : (s.withPif x).mtu = s.mtu := rfl
@[simp] theorem withPif_cdt (s : State) (x : Pif) : (s.withPif x).cdt = s.cdt := rfl
@[simp] theorem withPif_dir (s : State) (x : Pif) : (s.withPif x).dir = s.dir := rfl
@[simp] theorem withPif_cpd (s : State) (x : Pif) : (s.withPif x).cpd = s.cpd := rfl
@[simp] theorem withPif_dsq (s : State) (x : Pif) : (s.withPif x).dsq = s.dsq := rfl
@[simp] theorem withPif_act (s : State) (x : Pif) : (s.withPif x).act = s.act := rfl
@[simp] theorem withPif_nfu (s : State) (x : Pif) : (s.withPif x).nfu = s.nfu := rfl
@[simp] theorem withPif_cau (s : State) (x : Pif) : (s.withPif x).cau = s.cau := rfl
@[simp] theorem withPif_pif (s : State) (x : Pif) : (s.withPif x).pif = x := rfl
@[simp] theorem withPif_freeReads (s : State) (x : Pif) : (s.withPif x).freeReads = s.freeReads := rfl
@[simp] theorem withPif_pending (s : State) (x : Pif) : (s.withPif x).pending = s.pending := rfl

@[simp] theorem withFreeReads_fine (s : State) (x : Nat) : (s.withFreeReads x).fine = s.fine := rfl
@[simp] theorem withFreeReads_clock (s : State) (x : Nat) : (s.withFreeReads x).clock = s.clock := rfl
@[simp] theorem withFreeReads_fsu (s : State) (x : Nat) : (s.withFreeReads x).fsu = s.fsu := rfl
@[simp] theorem withFreeReads_mtu (s : State) (x : Nat) : (s.withFreeReads x).mtu = s.mtu := rfl
@[simp] theorem withFreeReads_cdt (s : State) (x : Nat) : (s.withFreeReads x).cdt = s.cdt := rfl
@[simp] theorem withFreeReads_dir (s : State) (x : Nat) : (s.withFreeReads x).dir = s.dir := rfl
@[simp] theorem withFreeReads_cpd (s : State) (x : Nat) : (s.withFreeReads x).cpd = s.cpd := rfl
@[simp] theorem withFreeReads_dsq (s : State) (x : Nat) : (s.withFreeReads x).dsq = s.dsq := rfl
@[simp] theorem withFreeReads_act (s : State) (x : Nat) : (s.withFreeReads x).act = s.act := rfl
@[simp] theorem withFreeReads_nfu (s : State) (x : Nat) : (s.withFreeReads x).nfu = s.nfu := rfl
@[simp] theorem withFreeReads_cau (s : State) (x : Nat) : (s.withFreeReads x).cau = s.cau := rfl
@[simp] theorem withFreeReads_pif (s : State) (x : Nat) : (s.withFreeReads x).pif = s.pif := rfl
@[simp] theorem withFreeReads_freeReads (s : State) (x : Nat) : (s.withFreeReads x).freeReads = x := rfl
@[simp] theorem withFreeReads_pending (s : State) (x : Nat) : (s.withFreeReads x).pending = s.pending := rfl

@[simp] theorem withPending_fine (s : State) (x : List Instr) : (s.withPending x).fine = s.fine := rfl
@[simp] theorem withPending_clock (s : State) (x : List Instr) : (s.withPending x).clock = s.clock := rfl
@[simp] theorem withPending_fsu (s : State) (x : List Instr) : (s.withPending x).fsu = s.fsu := rfl
@[simp] theorem withPending_mtu (s : State) (x : List Instr) : (s.withPending x).mtu = s.mtu := rfl
@[simp] theorem withPending_cdt (s : State) (x : List Instr) : (s.withPending x).cdt = s.cdt := rfl
@[simp] theorem withPending_dir (s : State) (x : List Instr) : (s.withPending x).dir = s.dir := rfl
@[simp] theorem withPending_cpd (s : State) (x : List Instr) : (s.withPending x).cpd = s.cpd := rfl
@[simp] theorem withPending_dsq (s : State) (x : List Instr) : (s.withPending x).dsq = s.dsq := rfl
@[simp] theorem withPending_act (s : State) (x : List Instr) : (s.withPending x).act = s.act := rfl
@[simp] theorem withPending_nfu (s : State) (x : List Instr) : (s.withPending x).nfu = s.nfu := rfl
@[simp] theorem withPending_cau (s : State) (x : List Instr) : (s.withPending x).cau = s.cau := rfl
@[simp] theorem withPending_pif (s : State) (x : List Instr) : (s.withPending x).pif = s.pif := rfl
@[simp] theorem withPending_freeReads (s : State) (x : List Instr) : (s.withPending x).freeReads = s.freeReads := rfl
@[simp] theorem withPending_pending (s : State) (x : List Instr) : (s.withPending x).pending = x := rfl

@[simp] theorem withFine_self (s : State) : s.withFine s.fine = s := rfl
@[simp] theorem withFine_twice (s : State) (x y : Nat) : (s.withFine x).withFine y = s.withFine y := rfl
@[simp] theorem withClock_self (s : State) : s.withClock s.clock = s := rfl
@[simp] theorem withClock_twice (s : State) (x y : Clock) : (s.withClock x).withClock y = s.withClock y := rfl
@[simp] theorem withFsu_self (s : State) : s.withFsu s.fsu = s := rfl
@[simp] theorem withFsu_twice (s : State) (x y : Fsu) : (s.withFsu x).withFsu y = s.withFsu y := rfl
@[simp] theorem withMtu_self (s : State) : s.withMtu s.mtu = s := rfl
@[simp] theorem withMtu_twice (s : State) (x y : Mtu) : (s.withMtu x).withMtu y = s.withMtu y := rfl
@[simp] theorem withCdt_self (s : State) : s.withCdt s.cdt = s := rfl
@[simp] theorem withCdt_twice (s : State) (x y : Cdt) : (s.withCdt x).withCdt y = s.withCdt y := rfl
@[simp] theorem withDir_self (s : State) : s.withDir s.dir = s := rfl
@[simp] theorem withDir_twice (s : State) (x y : Dir) : (s.withDir x).withDir y = s.withDir y := rfl
@[simp] theorem withCpd_self (s : State) : s.withCpd s.cpd = s := rfl
@[simp] theorem withCpd_twice (s : State) (x y : Cpd) : (s.withCpd x).withCpd y = s.withCpd y := rfl
@[simp] theorem withDsq_self (s : State) : s.withDsq s.dsq = s := rfl
@[simp] theorem withDsq_twice (s : State) (x y : Dsq) : (s.withDsq x).withDsq y = s.withDsq y := rfl
@[simp] theorem withAct_self (s : State) : s.withAct s.act = s := rfl
@[simp] theorem withAct_twice (s : State) (x y : Act) : (s.withAct x).withAct y = s.withAct y := rfl
@[simp] theorem withNfu_self (s : State) : s.withNfu s.nfu = s := rfl
@[simp] theorem withNfu_twice (s : State) (x y : Nfu) : (s.withNfu x).withNfu y = s.withNfu y := rfl
@[simp] theorem withCau_self (s : State) : s.withCau s.cau = s := rfl
@[simp] theorem withCau_twice (s : State) (x y : Cau) : (s.withCau x).withCau y = s.withCau y := rfl
@[simp] theorem withPif_self (s : State) : s.withPif s.pif = s := rfl
@[simp] theorem withPif_twice (s : State) (x y : Pif) : (s.withPif x).withPif y = s.withPif y := rfl
@[simp] theorem withFreeReads_self (s : State) : s.withFreeReads s.freeReads = s := rfl
@[simp] theorem withFreeReads_twice (s : State) (x y : Nat) : (s.withFreeReads x).withFreeReads y = s.withFreeReads y := rfl
@[simp] theorem withPending_self (s : State) : s.withPending s.pending = s := rfl
@[simp] theorem withPending_twice (s : State) (x y : List Instr) : (s.withPending x).withPending y = s.withPending y := rfl

end Sys2Proof.Machine.State
end

