-- ==== Sys2Proof/Laws/Tables.lean ====
section
/-! SUPPORT. Reading a table after it is built or changed, and reading one record of a block after a record of it, or another block,
is changed. -/

namespace Sys2Proof

variable {α β : Type} {n : Nat}

@[simp] theorem nth_tab (f : Fin n → α) (i : Fin n) : nth (tab f) i = f i := by
  simp [nth, tab]

@[simp] theorem nth_put_same (v : Vector α n) (i : Fin n) (x : α) : nth (put v i x) i = x := by
  simp [nth, put]

@[simp] theorem nth_put_other (v : Vector α n) {i j : Fin n} (x : α) (h : j ≠ i) : nth (put v i x) j = nth v j := by
  have : i.val ≠ j.val := fun e => h (Fin.ext e.symm)
  simp [nth, put, Vector.getElem_set_ne, this]

/-- Reading a table after one entry is replaced. -/
theorem nth_put (v : Vector α n) (i j : Fin n) (x : α) : nth (put v i x) j = if j = i then x else nth v j := by
  by_cases h : j = i <;> simp [h]

@[simp] theorem nth_alter_same (v : Vector α n) (i : Fin n) (f : α → α) : nth (alter v i f) i = f (nth v i) := by
  simp [alter]

@[simp] theorem nth_alter_other (v : Vector α n) {i j : Fin n} (f : α → α) (h : j ≠ i) : nth (alter v i f) j = nth v j := by
  simp [alter, h]

/-- Reading a table after one entry is changed. -/
theorem nth_alter (v : Vector α n) (i j : Fin n) (f : α → α) : nth (alter v i f) j = if j = i then f (nth v j) else nth v j := by
  by_cases h : j = i
  · subst h; simp
  · simp [h]

@[simp] theorem nth_fill (x : α) (i : Fin n) : nth (fill n x) i = x := by
  simp [nth, fill]

@[simp] theorem nth_each (v : Vector α n) (f : α → β) (i : Fin n) : nth (each v f) i = f (nth v i) := by
  simp [each]

/-- Two tables that read the same everywhere are the same. -/
theorem table_ext {v w : Vector α n} (h : ∀ i, nth v i = nth w i) : v = w := by
  apply Vector.ext
  intro i hi
  exact h ⟨i, hi⟩

@[simp] theorem sumNat_eq (f : Fin n → Nat) : sumNat f = ∑ i, f i := by
  simp [sumNat, List.sum_ofFn]

@[simp] theorem sumInt_eq (f : Fin n → Int) : sumInt f = ∑ i, f i := by
  simp [sumInt, List.sum_ofFn]

@[simp] theorem someFin_eq_true (p : Fin n → Bool) : someFin p = true ↔ ∃ i, p i = true := by
  simp [someFin, List.any_eq_true, List.mem_ofFn]

@[simp] theorem someFin_eq_false (p : Fin n → Bool) : someFin p = false ↔ ∀ i, p i = false := by
  rw [← Bool.not_eq_true, someFin_eq_true]; simp

@[simp] theorem allFin_eq_true (p : Fin n → Bool) : allFin p = true ↔ ∀ i, p i = true := by
  simp [allFin, List.all_eq_true, List.mem_ofFn]

/-- The index that is found meets what was searched for. -/
theorem firstFin_spec {p : Fin n → Bool} {i : Fin n} (h : firstFin p = some i) : p i = true :=
  List.find?_some h

/-- Nothing is found when no index meets what was searched for. -/
theorem firstFin_eq_none {p : Fin n → Bool} : firstFin p = none ↔ ∀ i, p i = false := by
  simp [firstFin, List.find?_eq_none]

/-- What every pass of a walk over the indexes keeps, the whole walk keeps. -/
theorem overFin_keeps {σ : Type} (P : σ → Prop) (f : Fin n → σ → σ) (h : ∀ i s, P s → P (f i s)) {s : σ} (hs : P s) :
    P (overFin n f s) := by
  unfold overFin
  induction List.finRange n generalizing s with
  | nil => exact hs
  | cons i l ih => exact ih (h i s hs)

namespace Machine

variable (s : State)

@[simp] theorem slotOf_alterSlot_same (n : Fin 16) (f : Slot → Slot) : slotOf (alterSlot n f s) n = f (slotOf s n) := by
  simp [slotOf, alterSlot]

@[simp] theorem slotOf_alterSlot_other {n m : Fin 16} (f : Slot → Slot) (h : m ≠ n) : slotOf (alterSlot n f s) m = slotOf s m := by
  simp [slotOf, alterSlot, h]

@[simp] theorem pointOf_alterPoint_same (k : Fin 7) (f : Point → Point) : pointOf (alterPoint k f s) k = f (pointOf s k) := by
  simp [pointOf, alterPoint]

@[simp] theorem pointOf_alterPoint_other {k m : Fin 7} (f : Point → Point) (h : m ≠ k) :
    pointOf (alterPoint k f s) m = pointOf s m := by
  simp [pointOf, alterPoint, h]

@[simp] theorem cavernOf_alterCavern_same (k : Fin 4) (f : Cavern → Cavern) : cavernOf (alterCavern k f s) k = f (cavernOf s k) := by
  simp [cavernOf, alterCavern]

@[simp] theorem cavernOf_alterCavern_other {k m : Fin 4} (f : Cavern → Cavern) (h : m ≠ k) :
    cavernOf (alterCavern k f s) m = cavernOf s m := by
  simp [cavernOf, alterCavern, h]

@[simp] theorem unitOf_alterUnit_same (u : Fin 4) (f : UnitRecord → UnitRecord) : unitOf (alterUnit u f s) u = f (unitOf s u) := by
  simp [unitOf, alterUnit]

@[simp] theorem unitOf_alterUnit_other {u m : Fin 4} (f : UnitRecord → UnitRecord) (h : m ≠ u) :
    unitOf (alterUnit u f s) m = unitOf s m := by
  simp [unitOf, alterUnit, h]

@[simp] theorem trainOf_alterTrain_same (t : Fin 2) (f : Train → Train) : trainOf (alterTrain t f s) t = f (trainOf s t) := by
  simp [trainOf, alterTrain]

@[simp] theorem trainOf_alterTrain_other {t m : Fin 2} (f : Train → Train) (h : m ≠ t) :
    trainOf (alterTrain t f s) m = trainOf s m := by
  simp [trainOf, alterTrain, h]

@[simp] theorem accountOf_alterAccount_same (a : Fin 16) (f : Account → Account) :
    accountOf (alterAccount a f s) a = f (accountOf s a) := by
  simp [accountOf, alterAccount]

@[simp] theorem accountOf_alterAccount_other {a m : Fin 16} (f : Account → Account) (h : m ≠ a) :
    accountOf (alterAccount a f s) m = accountOf s m := by
  simp [accountOf, alterAccount, h]

@[simp] theorem hourOf_alterHour_same (p : Fin 72) (f : HourCell → HourCell) : hourOf (alterHour p f s) p = f (hourOf s p) := by
  simp [hourOf, alterHour]

@[simp] theorem hourOf_alterHour_other {p m : Fin 72} (f : HourCell → HourCell) (h : m ≠ p) :
    hourOf (alterHour p f s) m = hourOf s m := by
  simp [hourOf, alterHour, h]

end Machine

end Sys2Proof
end

