-- ==== Sys2Proof/Laws/Ports.lean ====
section
/-! SUPPORT. What the handling of a request frame comes to: held in reset, refused by a check of R195, or answered by the request's
own rule; and the two ports kept apart. -/

namespace Sys2Proof.Machine

open Sys2Proof.Safety

variable {s : State}

@[simp] theorem portOf_alterPort_same (f : Pif) (p : Port) (g : PortState → PortState) :
    (f.alterPort p g).portOf p = g (f.portOf p) := by
  cases p <;> rfl

@[simp] theorem portOf_alterPort_other (f : Pif) {p q : Port} (g : PortState → PortState) (h : q ≠ p) :
    (f.alterPort p g).portOf q = f.portOf q := by
  cases p <;> cases q <;> first | rfl | exact absurd rfl h

@[simp] theorem alterPort_alterPort (p : Port) (g h : PortState → PortState) (s : State) :
    alterPort p h (alterPort p g s) = alterPort p (h ∘ g) s := by
  cases p <;> rfl

@[simp] theorem heldInReset_alterPort (p : Port) (g : PortState → PortState) (s : State) :
    heldInReset (alterPort p g s) = heldInReset s := by
  cases p <;> rfl

theorem unlessHeld_held (f : State → State) (h : heldInReset s = true) : unlessHeld f s = .next s := by
  simp [unlessHeld, h]

theorem unlessHeld_released (f : State → State) (h : heldInReset s = false) : unlessHeld f s = .next (f s) := by
  simp [unlessHeld, h]

@[simp] theorem onlyIf_true (f : State → State) (s : State) : onlyIf true f s = f s := rfl

@[simp] theorem onlyIf_false (f : State → State) (s : State) : onlyIf false f s = s := rfl

/-- A refusal leaves the part as it was, but for the port that is answered (R195). -/
theorem conclude_refuse (p : Port) (code bytes : Nat) (s : State) (status : Status) :
    driveIdle p bytes (conclude p code s (.refuse status)) = answered p bytes status (ubytes 1 code) s := by
  cases p <;> rfl

/-- A request that is taken leaves what its rule leaves, and the port that is answered. -/
theorem conclude_taken (p : Port) (code bytes : Nat) (s after : State) (payload : List Byte) :
    driveIdle p bytes (conclude p code s (.taken after payload)) = answered p bytes .ok (ubytes 1 code ++ payload) after := by
  cases p <;> rfl

/-- While the part is held in reset no request is taken (R202). -/
theorem serve_held {owner : Option Port} {code : Nat} {p : Port} {fields : List Byte} {own : State → Answer}
    (h : heldInReset s = true) : serve owner code p fields own s = .next s :=
  unlessHeld_held _ h

/-- A request whose length is not its layout's is refused with MALFORMED (R195 check 2). -/
theorem serve_malformed {owner : Option Port} {code : Nat} {p : Port} {fields : List Byte} {own : State → Answer}
    (h : heldInReset s = false) (hf : fits code fields = false) :
    serve owner code p fields own s = .next (answered p (fields.length + 2) .malformed (ubytes 1 code) s) := by
  rw [serve, unlessHeld_released _ h]
  simp [judged, hf, conclude_refuse]

/-- A request that the port does not own is refused with OWNER (R195 check 3, R198). -/
theorem serve_foreign {owner : Option Port} {code : Nat} {p : Port} {fields : List Byte} {own : State → Answer}
    (h : heldInReset s = false) (hf : fits code fields = true) (ho : mayOwn owner p = false) :
    serve owner code p fields own s = .next (answered p (fields.length + 2) .owner (ubytes 1 code) s) := by
  rw [serve, unlessHeld_released _ h]
  simp [judged, hf, ho, conclude_refuse]

/-- A request that its own rule refuses. -/
theorem serve_refused {owner : Option Port} {code : Nat} {p : Port} {fields : List Byte} {own : State → Answer} {status : Status}
    (h : heldInReset s = false) (hf : fits code fields = true) (ho : mayOwn owner p = true) (hr : own s = .refuse status) :
    serve owner code p fields own s = .next (answered p (fields.length + 2) status (ubytes 1 code) s) := by
  rw [serve, unlessHeld_released _ h]
  simp [judged, hf, ho, hr, conclude_refuse]

/-- A request that its own rule takes. -/
theorem serve_taken {owner : Option Port} {code : Nat} {p : Port} {fields : List Byte} {own : State → Answer} {after : State}
    {payload : List Byte} (h : heldInReset s = false) (hf : fits code fields = true) (ho : mayOwn owner p = true)
    (hr : own s = .taken after payload) :
    serve owner code p fields own s
      = .next (answered p (fields.length + 2) .ok (ubytes 1 code ++ payload) after) := by
  rw [serve, unlessHeld_released _ h]
  simp [judged, hf, ho, hr, conclude_taken]

/-- Everything a request can do: it is ignored in reset, refused with nothing else changed, or taken by its own rule. -/
theorem serve_cases (owner : Option Port) (code : Nat) (p : Port) (fields : List Byte) (own : State → Answer) (s : State) :
    (heldInReset s = true ∧ serve owner code p fields own s = .next s)
      ∨ (heldInReset s = false
          ∧ ((∃ status, serve owner code p fields own s = .next (answered p (fields.length + 2) status (ubytes 1 code) s))
            ∨ ∃ after payload, own s = .taken after payload
                ∧ serve owner code p fields own s
                    = .next (answered p (fields.length + 2) .ok (ubytes 1 code ++ payload) after))) := by
  by_cases h : heldInReset s = true
  · exact .inl ⟨h, serve_held h⟩
  · have h := Bool.eq_false_iff.mpr h
    refine .inr ⟨h, ?_⟩
    by_cases hf : fits code fields = true
    · by_cases ho : mayOwn owner p = true
      · cases hr : own s with
        | refuse status => exact .inl ⟨status, serve_refused h hf ho hr⟩
        | taken after payload => exact .inr ⟨after, payload, rfl, serve_taken h hf ho hr⟩
      · exact .inl ⟨.owner, serve_foreign h hf (Bool.eq_false_iff.mpr ho)⟩
    · exact .inl ⟨.malformed, serve_malformed h (Bool.eq_false_iff.mpr hf)⟩

end Sys2Proof.Machine
end

