-- ==== Sys2Proof/Laws/Frames.lean ====
section
/-! SUPPORT. Which blocks each shared operation can change: one lemma for each, so that a frame is read off without unfolding the
operation. -/

namespace Sys2Proof.Safety

open Sys2Proof.Machine

variable {s t u : State} {l m : List Block}

theorem agree_refl (b : Block) (s : State) : agree b s s := by cases b <;> rfl

theorem agree_trans {b : Block} (h : agree b s t) (k : agree b t u) : agree b s u := by
  cases b <;> exact Eq.trans h k

theorem ChangesOnly.refl (l : List Block) (s : State) : ChangesOnly l s s := fun b _ => agree_refl b s

theorem ChangesOnly.trans (h : ChangesOnly l s t) (k : ChangesOnly l t u) : ChangesOnly l s u :=
  fun b hb => agree_trans (h b hb) (k b hb)

theorem ChangesOnly.mono (h : ChangesOnly l s t) (k : ∀ b ∈ l, b ∈ m) : ChangesOnly m s t :=
  fun b hb => h b fun hl => hb (k b hl)

/-- A walk over the indexes changes only what each of its passes changes. -/
theorem ChangesOnly.overFin {n : Nat} {f : Fin n → State → State} (h : ∀ i s, ChangesOnly l s (f i s)) (s : State) :
    ChangesOnly l s (overFin n f s) :=
  overFin_keeps (ChangesOnly l s) f (fun i t ht => ht.trans (h i t)) (ChangesOnly.refl l s)

end Sys2Proof.Safety

namespace Sys2Proof.Machine

open Sys2Proof.Safety

/-- A replacement of one block changes that block only. -/
theorem withFsu_changes (s : State) (x : Fsu) : ChangesOnly [.fsu] s (s.withFsu x) := by
  intro b hb; cases b <;> first | rfl | simp at hb
theorem withMtu_changes (s : State) (x : Mtu) : ChangesOnly [.mtu] s (s.withMtu x) := by
  intro b hb; cases b <;> first | rfl | simp at hb
theorem withCdt_changes (s : State) (x : Cdt) : ChangesOnly [.cdt] s (s.withCdt x) := by
  intro b hb; cases b <;> first | rfl | simp at hb
theorem withDir_changes (s : State) (x : Dir) : ChangesOnly [.dir] s (s.withDir x) := by
  intro b hb; cases b <;> first | rfl | simp at hb
theorem withCpd_changes (s : State) (x : Cpd) : ChangesOnly [.cpd] s (s.withCpd x) := by
  intro b hb; cases b <;> first | rfl | simp at hb
theorem withDsq_changes (s : State) (x : Dsq) : ChangesOnly [.dsq] s (s.withDsq x) := by
  intro b hb; cases b <;> first | rfl | simp at hb
theorem withAct_changes (s : State) (x : Act) : ChangesOnly [.act] s (s.withAct x) := by
  intro b hb; cases b <;> first | rfl | simp at hb
theorem withNfu_changes (s : State) (x : Nfu) : ChangesOnly [.nfu] s (s.withNfu x) := by
  intro b hb; cases b <;> first | rfl | simp at hb
theorem withCau_changes (s : State) (x : Cau) : ChangesOnly [.cau] s (s.withCau x) := by
  intro b hb; cases b <;> first | rfl | simp at hb
theorem withPif_changes (s : State) (x : Pif) : ChangesOnly [.pif] s (s.withPif x) := by
  intro b hb; cases b <;> first | rfl | simp at hb
theorem withClock_changes (s : State) (x : Clock) : ChangesOnly [.clock] s (s.withClock x) := by
  intro b hb; cases b <;> first | rfl | simp at hb
theorem withFine_changes (s : State) (x : Nat) : ChangesOnly [.fine] s (s.withFine x) := by
  intro b hb; cases b <;> first | rfl | simp at hb
theorem withFreeReads_changes (s : State) (x : Nat) : ChangesOnly [.freeReads] s (s.withFreeReads x) := by
  intro b hb; cases b <;> first | rfl | simp at hb

theorem alterPort_changes (p : Port) (g : PortState → PortState) (s : State) : ChangesOnly [.pif] s (alterPort p g s) :=
  withPif_changes s _
theorem alterSlot_changes (n : Fin 16) (f : Slot → Slot) (s : State) : ChangesOnly [.fsu] s (alterSlot n f s) := withFsu_changes s _
theorem alterPoint_changes (k : Fin 7) (f : Point → Point) (s : State) : ChangesOnly [.mtu] s (alterPoint k f s) :=
  withMtu_changes s _
theorem alterUnit_changes (u : Fin 4) (f : UnitRecord → UnitRecord) (s : State) : ChangesOnly [.cpd] s (alterUnit u f s) :=
  withCpd_changes s _
theorem alterTrain_changes (t : Fin 2) (f : Train → Train) (s : State) : ChangesOnly [.dsq] s (alterTrain t f s) :=
  withDsq_changes s _

/-! ### Conditions and firming -/

theorem setEventCom_changes (e : Fin 4) (s : State) : ChangesOnly [.cdt] s (setEventCom e s) := withCdt_changes s _

theorem setEventOps_changes (e : Fin 4) (s : State) : ChangesOnly [.cdt] s (setEventOps e s) := withCdt_changes s _

/-- A re-firm changes the hours, and the event flag it sets. -/
theorem refirm_changes (s : State) : ChangesOnly [.cdt, .nfu] s (refirm s) := by
  unfold refirm
  split
  · exact ((withNfu_changes s _).mono (by decide)).trans ((setEventCom_changes _ _).mono (by decide))
  · exact (withNfu_changes s _).mono (by decide)

/-- A report changes the condition table, and by a re-firm the hours. -/
theorem report_changes (n : Fin 56) (a : Bool) (s : State) : ChangesOnly [.cdt, .nfu] s (report n a s) := by
  unfold report
  dsimp only
  split
  · exact ((withCdt_changes s _).mono (by decide)).trans (refirm_changes _)
  · exact (withCdt_changes s _).mono (by decide)

theorem takeReports_changes (fuel : Nat) (l : List (Fin 56 × Bool)) (s : State) :
    ChangesOnly [.cdt, .nfu, .freeReads] s (takeReports fuel l s) := by
  induction fuel generalizing l s with
  | zero => exact ChangesOnly.refl _ s
  | succ fuel ih =>
    match l with
    | [] => exact ChangesOnly.refl _ s
    | [r] => exact (report_changes r.1 r.2 s).mono (by decide)
    | a :: b :: rest =>
      simp only [takeReports]
      split
      · exact (((withFreeReads_changes s _).mono (by decide)).trans ((report_changes _ _ _).mono (by decide))).trans (ih _ _)
      · exact ChangesOnly.refl _ s

/-- The reports of one event change the condition table, the hours, and the count of free reads. -/
theorem reportAll_changes (l : List (Fin 56 × Bool)) (s : State) : ChangesOnly [.cdt, .nfu, .freeReads] s (reportAll l s) :=
  takeReports_changes _ _ s

/-- A firm changes its hour, and the event flag it sets. -/
theorem firm_changes (p : Fin 72) (s : State) : ChangesOnly [.cdt, .nfu] s (firm p s) := by
  unfold firm
  split
  · exact ChangesOnly.refl _ s
  · exact ((withNfu_changes s _).mono (by decide)).trans ((setEventCom_changes _ _).mono (by decide))

theorem firmAtZero_changes (p : Fin 72) (s : State) : ChangesOnly [.cdt, .nfu] s (firmAtZero p s) := by
  unfold firmAtZero
  split
  · exact ChangesOnly.refl _ s
  · exact ((withNfu_changes s _).mono (by decide)).trans ((setEventCom_changes _ _).mono (by decide))

theorem firmRun_changes (start count : Nat) (s : State) : ChangesOnly [.cdt, .nfu] s (firmRun start count s) := by
  induction count generalizing start s with
  | zero => exact ChangesOnly.refl _ s
  | succ count ih =>
    simp only [firmRun]
    split
    · exact (firm_changes _ s).trans (ih _ _)
    · exact ChangesOnly.refl _ s

/-! ### Metering -/

theorem setMeterFlags_changes (toHour : Bool) (f : MeterFlags) (s : State) : ChangesOnly [.mtu] s (setMeterFlags toHour f s) := by
  unfold setMeterFlags; split <;> exact withMtu_changes s _

theorem bookGap_changes (toHour : Bool) (k : Fin 7) (s : State) : ChangesOnly [.mtu] s (bookGap toHour k s) := by
  unfold bookGap
  split
  · exact ChangesOnly.refl _ s
  · exact (alterPoint_changes _ _ s).trans (setMeterFlags_changes _ _ _)

theorem closeGap_changes (k : Fin 7) (s : State) : ChangesOnly [.mtu] s (closeGap k s) :=
  (bookGap_changes _ k s).trans (alterPoint_changes _ _ _)

theorem openGapOf_changes (n : Fin 16) (s : State) : ChangesOnly [.mtu] s (openGapOf n s) := by
  unfold openGapOf; split
  · exact alterPoint_changes _ _ s
  · exact ChangesOnly.refl _ s

theorem disablePoint_changes (n : Fin 16) (s : State) : ChangesOnly [.mtu] s (disablePoint n s) := by
  unfold disablePoint; split
  · exact (closeGap_changes _ s).trans (alterPoint_changes _ _ _)
  · exact ChangesOnly.refl _ s

theorem unbindPoint_changes (k : Fin 7) (s : State) : ChangesOnly [.mtu] s (unbindPoint k s) :=
  (closeGap_changes k s).trans (alterPoint_changes _ _ _)

theorem goodReading_changes (k : Fin 7) (n : Fin 16) (recovered : Bool) (s : State) :
    ChangesOnly [.mtu] s (goodReading k n recovered s) := by
  have process (s : State) : ChangesOnly [.mtu] s (processDirections k (slotOf s n) recovered s) :=
    (alterPoint_changes _ _ s).trans (setMeterFlags_changes _ _ _)
  unfold goodReading
  split
  · exact (closeGap_changes k s).trans ((alterPoint_changes _ _ _).trans (setMeterFlags_changes _ _ _))
  · exact process s

theorem mergeUnclocked_changes (s : State) : ChangesOnly [.mtu] s (mergeUnclocked s) :=
  ((ChangesOnly.overFin (bookGap_changes false) s).trans (withMtu_changes _ _)).trans (setMeterFlags_changes _ _ _)

/-- The CV latch changes the MTU and reports condition 39. -/
theorem latchCv_changes (s : State) : ChangesOnly [.mtu, .cdt, .nfu] s (latchCv s) := by
  have m (s : State) (x : Mtu) : ChangesOnly [.mtu, .cdt, .nfu] s (s.withMtu x) := (withMtu_changes s x).mono (by decide)
  have r (n : Fin 56) (a : Bool) (s : State) : ChangesOnly [.mtu, .cdt, .nfu] s (report n a s) := (report_changes n a s).mono (by decide)
  unfold latchCv
  split
  · exact ((m s _).trans (m _ _)).trans (r _ _ _)
  · dsimp only
    split
    · exact ((m s _).trans (m _ _)).trans (r _ _ _)
    · exact ((m s _).trans ((setMeterFlags_changes _ _ _).mono (by decide))).trans (r _ _ _)

/-! ### Direction, compressors and dryers -/

theorem evaluate_changes (s : State) : ChangesOnly [.cpd] s (evaluate s) := withCpd_changes s _

theorem leaveInjecting_changes (s : State) : ChangesOnly [.cpd] s (leaveInjecting s) := withCpd_changes s _

theorem dryersFollow_changes (old new : SiteDirection) (s : State) : ChangesOnly [.dsq] s (dryersFollow old new s) := withDsq_changes s _

theorem evaluateBand_changes (k : Fin 4) (s : State) : ChangesOnly [.dir] s (evaluateBand k s) := withDir_changes s _

/-- A change of direction changes the DIR, and what it hands on: units, trains, conditions and hours. -/
theorem changeDirection_changes (new : SiteDirection) (s : State) :
    ChangesOnly [.cdt, .dir, .cpd, .dsq, .nfu] s (changeDirection new s) := by
  have step (s : State) : ChangesOnly [.cdt, .dir, .cpd, .dsq, .nfu] s (setEventOps evDirectionChanged (s.withDir { s.dir with direction := new })) :=
    ((withDir_changes s _).mono (by decide)).trans ((setEventOps_changes _ _).mono (by decide))
  have left (s : State) : ChangesOnly [.cdt, .dir, .cpd, .dsq, .nfu] s (leaveInjecting s) := (leaveInjecting_changes s).mono (by decide)
  have duty (s : State) : ChangesOnly [.cdt, .dir, .cpd, .dsq, .nfu] s (evaluate s) := (evaluate_changes s).mono (by decide)
  have follow (old new : SiteDirection) (s : State) : ChangesOnly [.cdt, .dir, .cpd, .dsq, .nfu] s (dryersFollow old new s) :=
    (dryersFollow_changes old new s).mono (by decide)
  have rep (n : Fin 56) (a : Bool) (s : State) : ChangesOnly [.cdt, .dir, .cpd, .dsq, .nfu] s (report n a s) :=
    (report_changes n a s).mono (by decide)
  unfold changeDirection
  refine ChangesOnly.trans ?_ (rep _ _ _)
  refine ChangesOnly.trans ?_ (follow _ _ _)
  dsimp only
  split <;> split
  · exact ((step s).trans (left _)).trans (duty _)
  · exact (step s).trans (duty _)
  · exact (step s).trans (left _)
  · exact step s

theorem testCompletion_changes (s : State) : ChangesOnly [.cdt, .dir, .cpd, .dsq, .nfu] s (testCompletion s) := by
  unfold testCompletion
  split
  · split
    · exact changeDirection_changes _ s
    · exact ChangesOnly.refl _ s
  · exact ChangesOnly.refl _ s

/-- A test of the changeover after a change of units. -/
theorem unitsReported_changes {before after : State} (h : ChangesOnly [.cdt, .dir, .cpd, .dsq, .nfu] before after) :
    ChangesOnly [.cdt, .dir, .cpd, .dsq, .nfu] before (unitsReported before after) := by
  unfold unitsReported
  split
  · exact h
  · exact h.trans (testCompletion_changes after)

theorem dutyEvaluation_changes (s : State) : ChangesOnly [.cdt, .dir, .cpd, .dsq, .nfu] s (dutyEvaluation s) :=
  unitsReported_changes ((evaluate_changes s).mono (by decide))

theorem takeTarget_changes (p : Fin 72) (s : State) : ChangesOnly [.cdt, .dir, .cpd, .dsq, .nfu] s (takeTarget p s) := by
  unfold takeTarget
  dsimp only
  split
  · exact ChangesOnly.refl _ s
  · exact unitsReported_changes (changeDirection_changes _ s)

theorem faultUnit_changes (cause : UnitCause) (u : Fin 4) (s : State) :
    ChangesOnly [.cdt, .dir, .cpd, .dsq, .nfu] s (faultUnit cause u s) := by
  have told : ChangesOnly [.cdt, .dir, .cpd, .dsq, .nfu] s
      (unitsReported s (setEventOps evUnitTripped (report (condUnit u) true
        (alterUnit u (fun r => { r with state := .faulted, cause := cause, deadline := none }) s)))) :=
    unitsReported_changes
      ((((alterUnit_changes u _ s).mono (by decide)).trans ((report_changes _ _ _).mono (by decide))).trans
        ((setEventOps_changes _ _).mono (by decide)))
  unfold faultUnit
  dsimp only
  split
  · exact told.trans (dutyEvaluation_changes _)
  · exact told

theorem changeUnit_changes (u : Fin 4) (f : UnitRecord → UnitRecord) (evaluates : Bool) (s : State) :
    ChangesOnly [.cdt, .dir, .cpd, .dsq, .nfu] s (changeUnit u f evaluates s) := by
  have told : ChangesOnly [.cdt, .dir, .cpd, .dsq, .nfu] s (unitsReported s (alterUnit u f s)) :=
    unitsReported_changes ((alterUnit_changes u f s).mono (by decide))
  unfold changeUnit
  dsimp only
  split
  · exact told.trans (dutyEvaluation_changes _)
  · exact told

theorem faultTrain_changes (cause : TrainCause) (t : Fin 2) (s : State) : ChangesOnly [.cdt, .dsq, .nfu] s (faultTrain cause t s) :=
  (((alterTrain_changes t _ s).mono (by decide)).trans ((report_changes _ _ _).mono (by decide))).trans
    ((setEventOps_changes _ _).mono (by decide))

/-! ### The field line -/

theorem receiverHeard_changes (s : State) : ChangesOnly [.fsu] s (receiverHeard s) := withFsu_changes s _

/-- Bytes that end no transaction are heard, or, while the part transmits, are not. -/
theorem bytesHeard_cases (received : List Byte) (s : State) : bytesHeard received s = s ∨ bytesHeard received s = receiverHeard s := by
  unfold bytesHeard
  split
  · exact .inl rfl
  · exact .inr rfl

theorem bytesHeard_changes (received : List Byte) (s : State) : ChangesOnly [.fsu] s (bytesHeard received s) := by
  rcases bytesHeard_cases received s with h | h <;> rw [h]
  · exact .refl _ s
  · exact receiverHeard_changes s

theorem queueEntry_changes (e : Entry) (s : State) : ChangesOnly [.fsu] s (queueEntry e s) := withFsu_changes s _

theorem withdrawSlot_changes (n : Fin 16) (s : State) : ChangesOnly [.fsu] s (withdrawSlot n s) := withFsu_changes s _

theorem scheduleVisit_changes (n : Fin 16) (time : Nat) (s : State) : ChangesOnly [.fsu] s (scheduleVisit n time s) :=
  (alterSlot_changes n _ s).trans (queueEntry_changes _ _)

theorem scheduleNext_changes (n : Fin 16) (s : State) : ChangesOnly [.fsu] s (scheduleNext n s) :=
  (alterSlot_changes n _ s).trans (scheduleVisit_changes n _ _)

theorem bandsFollow_changes (before s : State) : ChangesOnly [.dir] s (bandsFollow before s) :=
  ChangesOnly.overFin (fun k s => by split; exact ChangesOnly.refl _ s; exact evaluateBand_changes k s) s

/-- The end of a slot's event changes what its reports and a completed changeover change. -/
theorem slotEventEnds_changes (before : State) (n : Fin 16) (s : State) :
    ChangesOnly [.cdt, .dir, .cpd, .dsq, .nfu, .freeReads] s (slotEventEnds before n s) := by
  have h := (reportAll_changes (slotReports s n) s).mono (m := [.cdt, .dir, .cpd, .dsq, .nfu, .freeReads]) (by decide)
  unfold slotEventEnds quietReported
  split
  · exact h
  · exact h.trans ((testCompletion_changes _).mono (by decide))

/-- What any event of the field line or of a slot can change: never the clock, the accounts, the history, the ports. -/
abbrev slotBlocks : List Block := [.fsu, .mtu, .cdt, .dir, .cpd, .dsq, .nfu, .freeReads]

theorem failVisit_changes (n : Fin 16) (s : State) : ChangesOnly slotBlocks s (failVisit n s) := by
  unfold failVisit
  refine ChangesOnly.trans (ChangesOnly.trans (ChangesOnly.trans ?_ ((bandsFollow_changes _ _).mono (by decide)))
    ((scheduleNext_changes _ _).mono (by decide))) ((slotEventEnds_changes _ _ _).mono (by decide))
  dsimp only
  split
  · exact ((alterSlot_changes n _ s).mono (by decide)).trans ((openGapOf_changes n _).mono (by decide))
  · exact (alterSlot_changes n _ s).mono (by decide)

theorem faultSlot_changes (n : Fin 16) (code : Nat) (s : State) : ChangesOnly slotBlocks s (faultSlot n code s) := by
  unfold faultSlot
  refine ChangesOnly.trans (ChangesOnly.trans ?_ ((bandsFollow_changes _ _).mono (by decide)))
    ((slotEventEnds_changes _ _ _).mono (by decide))
  dsimp only
  split
  · exact (alterSlot_changes n _ s).mono (by decide)
  · exact ((alterSlot_changes n _ s).mono (by decide)).trans ((openGapOf_changes n _).mono (by decide))

theorem succeedVisit_changes (n : Fin 16) (words : List WordBytes) (s : State) : ChangesOnly slotBlocks s (succeedVisit n words s) := by
  have slot (f : Slot → Slot) (s : State) : ChangesOnly slotBlocks s (alterSlot n f s) := (alterSlot_changes n f s).mono (by decide)
  have train (t : Fin 2) (f : Train → Train) (s : State) : ChangesOnly slotBlocks s (alterTrain t f s) :=
    (alterTrain_changes t f s).mono (by decide)
  have meter (r : Bool) (s : State) : ChangesOnly slotBlocks s (meterTakes n r s) := by
    unfold meterTakes; split
    · exact (goodReading_changes _ _ _ s).mono (by decide)
    · exact ChangesOnly.refl _ s
  have caverns (s : State) : ChangesOnly slotBlocks s (cavernsTake n s) :=
    ChangesOnly.overFin (fun k s => by
      split
      · exact (evaluateBand_changes k s).mono (by decide)
      · exact ChangesOnly.refl _ s) s
  have through (value : Int) (t : Fin 2) (s : State) : ChangesOnly slotBlocks s (breakthrough value t s) := by
    unfold breakthrough; split
    · split
      · exact (train _ _ s).trans (train _ _ _)
      · exact ChangesOnly.refl _ s
    · exact ChangesOnly.refl _ s
  have dryers (s : State) : ChangesOnly slotBlocks s (dryersTake n s) :=
    ChangesOnly.overFin (fun t s => by
      split
      · exact (train t _ s).trans (through _ t _)
      · exact ChangesOnly.refl _ s) s
  unfold succeedVisit
  exact (((((slot _ s).trans (meter _ _)).trans (caverns _)).trans (dryers _)).trans
    ((slot _ _).trans ((scheduleNext_changes _ _).mono (by decide)))).trans ((slotEventEnds_changes _ _ _).mono (by decide))

/-! ### The close and the start of an hour -/

/-- What an hour boundary can change: never the fine count, the ports, the field line. -/
abbrev hourBlocks : List Block := [.clock, .mtu, .cdt, .dir, .cpd, .dsq, .act, .nfu, .cau]

theorem completeClose_changes (h : HourId) (g : Gathered) (s : State) :
    ChangesOnly [.clock, .cdt, .dir, .act, .nfu, .cau] s (completeClose h g s) := by
  have act (x : Act) (s : State) : ChangesOnly [.clock, .cdt, .dir, .act, .nfu, .cau] s (s.withAct x) := (withAct_changes s x).mono (by decide)
  have nfu (x : Nfu) (s : State) : ChangesOnly [.clock, .cdt, .dir, .act, .nfu, .cau] s (s.withNfu x) := (withNfu_changes s x).mono (by decide)
  have posted (p : Fin 72) (m : HourMetering) (al fu : Vector Int 16) :
      ChangesOnly [.clock, .cdt, .dir, .act, .nfu, .cau] s (postClose p m al fu s) :=
    (((act _ s).trans (nfu _ _)).trans ((withDir_changes _ _).mono (by decide))).trans ((report_changes _ _ _).mono (by decide))
  have finished (u : State) : ChangesOnly [.clock, .cdt, .dir, .act, .nfu, .cau] u (finishClose h u) :=
    (((((setEventCom_changes _ u).mono (by decide)).trans ((setEventOps_changes _ _).mono (by decide))).trans (act _ _)).trans
      (nfu _ _)).trans ((withClock_changes _ _).mono (by decide))
  exact ((posted _ _ _ _).trans ((withCau_changes _ _).mono (by decide))).trans (finished _)

theorem rollover_changes (s : State) : ChangesOnly [.cdt, .nfu] s (rollover s) :=
  ((withNfu_changes s _).mono (by decide)).trans ((setEventCom_changes _ _).mono (by decide))

theorem startHour_changes (p : Fin 72) (s : State) : ChangesOnly hourBlocks s (startHour p s) := by
  have lead (s : State) : ChangesOnly hourBlocks s (changeLead p s) := by
    unfold changeLead; split
    · exact ChangesOnly.refl _ s
    · exact ((withNfu_changes s _).mono (by decide)).trans ((firmRun_changes _ _ _).mono (by decide))
  exact (((((latchCv_changes s).mono (by decide)).trans (lead _)).trans ((takeTarget_changes p _).mono (by decide))).trans
    ((dutyEvaluation_changes _).mono (by decide))).trans ((withClock_changes _ _).mono (by decide))

theorem closeHour_changes (h : HourId) (s : State) : ChangesOnly hourBlocks s (closeHour h s) := by
  have booked : ChangesOnly hourBlocks s (bookOpenGaps s) := (ChangesOnly.overFin (bookGap_changes true) s).mono (by decide)
  have cleared (s : State) : ChangesOnly hourBlocks s (clearGathered s) :=
    ((withMtu_changes s _).mono (by decide)).trans ((withDsq_changes _ _).mono (by decide))
  exact (booked.trans (cleared _)).trans ((completeClose_changes _ _ _).mono (by decide))

/-- The event of an hour boundary changes neither the fine count, nor the field line, nor a port. -/
theorem hourBoundaryEvent_changes (s : State) : ChangesOnly hourBlocks s (hourBoundaryEvent s) := by
  have roll (h : HourId) (s : State) : ChangesOnly hourBlocks s (rolloverAfter h s) := by
    unfold rolloverAfter; split
    · exact (rollover_changes s).mono (by decide)
    · exact ChangesOnly.refl _ s
  unfold hourBoundaryEvent
  split
  · next h _ => exact ((closeHour_changes h s).trans (roll h _)).trans (startHour_changes _ _)
  · exact ChangesOnly.refl _ s

theorem firmPointEvent_changes (s : State) : ChangesOnly [.cdt, .nfu] s (firmPointEvent s) := by
  unfold firmPointEvent; split
  · exact firmRun_changes _ _ s
  · exact ChangesOnly.refl _ s

end Sys2Proof.Machine
end

