-- ==== Sys2Proof/Laws/Numbers.lean ====
section
/-! SUPPORT. Numbers as bytes (R206): lengths, and the bytes of a short list one by one. -/

namespace Sys2Proof.Machine

@[simp] theorem length_ubytes (n x : Nat) : (ubytes n x).length = n := by
  induction n generalizing x with
  | zero => rfl
  | succ n ih => simp [ubytes, ih]

@[simp] theorem length_sbytes (n : Nat) (z : Int) : (sbytes n z).length = n := by
  simp [sbytes]

@[simp] theorem length_optionBytes {α : Type} (n : Nat) (enc : α → List Byte) (h : ∀ x, (enc x).length = n) (x : Option α) :
    (optionBytes n enc x).length = n + 1 := by
  cases x <;> simp [optionBytes, h]

/-- One byte more of a number is its highest power of 256 less. -/
theorem num_succ (fields : List Byte) (start length : Nat) :
    num fields start (length + 1) = num fields start length * 256 + byteAt fields (start + length) := by
  simp [num, List.range_succ]

@[simp] theorem num_zero (fields : List Byte) (start : Nat) : num fields start 0 = 0 := rfl

/-- A byte is below 256. -/
theorem byteAt_lt (fields : List Byte) (i : Nat) : byteAt fields i < 256 := by
  unfold byteAt; exact (fields.getD i 0).isLt

/-- A number of `length` bytes is below 256 to their number. -/
theorem num_lt (fields : List Byte) (start length : Nat) : num fields start length < 256 ^ length := by
  induction length with
  | zero => simp
  | succ n ih =>
    have := byteAt_lt fields (start + n)
    rw [num_succ, pow_succ]
    omega

end Sys2Proof.Machine
end

