-- ==== Sys2Proof/Laws/Requests.lean ====
section
/-! SUPPORT. Every request but READ is one call of `serve` with its owner and its code; READ is answered in pieces of its own. -/

namespace Sys2Proof.Machine

open Sys2Proof.Safety

/-- A request other than READ is judged and answered by `serve`, with the owner of its code. -/
theorem exec_request {c : Instr} {p : Port} {code : Byte} {fields : List Byte} (hc : requestParts c = some (p, code, fields))
    (hr : code ≠ 0xB0) : ∃ own : State → Answer, ∀ s, exec c s = serve (ownedBy code.toNat) code.toNat p fields own s := by
  cases c <;> simp only [requestParts, Option.some.injEq, Prod.mk.injEq, reduceCtorEq] at hc <;> obtain ⟨rfl, rfl, rfl⟩ := hc <;>
    first
    | exact ⟨_, fun s => rfl⟩
    | exact absurd rfl hr

/-- The only request with READ's code is READ. -/
theorem read_of_code {c : Instr} {p : Port} {fields : List Byte} (hc : requestParts c = some (p, 0xB0, fields)) :
    c = .read p fields := by
  cases c <;> simp_all [requestParts]

/-- A READ that is refused leaves the part as it was, but for the port. -/
theorem refuseRead_eq (p : Port) (bytes : Nat) (status : Status) (s : State) :
    driveIdle p bytes (refuseRead p status s) = answered p bytes status [0xB0] s := by
  cases p <;> rfl

/-- A READ whose length is wrong is MALFORMED. -/
theorem execRead_malformed {s : State} {p : Port} {fields : List Byte} (h : heldInReset s = false) (hf : fits 0xB0 fields = false) :
    execRead p fields s = .next (answered p (fields.length + 2) .malformed [0xB0] s) := by
  rw [execRead, unlessHeld_released _ h]
  simp [hf, refuseRead_eq]

/-- A READ whose length is right is taken by the rules of R199 and R200. -/
theorem execRead_fits {s : State} {p : Port} {fields : List Byte} (h : heldInReset s = false) (hf : fits 0xB0 fields = true) :
    execRead p fields s = .next (driveIdle p (fields.length + 2) (takeRead p fields s)) := by
  rw [execRead, unlessHeld_released _ h]
  simp [hf]

/-- Every command that neither ends nor begins a hold is taken only out of reset (R202). -/
theorem exec_event {c : Instr} (h1 : ∀ cause, c ≠ .heldInReset cause) (h2 : ∀ lines, c ≠ .powerOn lines)
    (h3 : ∀ micros lines, c ≠ .pin micros lines) (s : State) : ∃ f, exec c s = unlessHeld f s := by
  by_cases hr : (requestParts c).isSome
  · obtain ⟨⟨p, code, fields⟩, hc⟩ := Option.isSome_iff_exists.mp hr
    by_cases hd : code = 0xB0
    · subst hd; obtain rfl := read_of_code hc
      simp only [exec, execRead]; exact ⟨_, rfl⟩
    · obtain ⟨own, ho⟩ := exec_request hc hd
      exact ⟨_, ho s⟩
  · cases c
    case heldInReset x => exact absurd rfl (h1 x)
    case powerOn x => exact absurd rfl (h2 x)
    case pin x y => exact absurd rfl (h3 x y)
    all_goals first
      | exact absurd rfl hr
      | exact ⟨_, rfl⟩
      | (simp only [exec, execUnknownRequest, execReplyWindowExpiry]; exact ⟨_, rfl⟩)

end Sys2Proof.Machine
end

