-- ==== Sys2Proof/Tests/Slice0.lean ====
section
/-! SUPPORT. Our own tests, each named: ill-formed commands that WellFormed refuses, worked examples of the manual, and for every
statement with hypotheses a state and operands that meet them, clause by clause, at the ends of their ranges. -/

namespace Sys2Proof.Tests

open Sys2Proof.Machine Sys2Proof.Safety

set_option Elab.async false

/-! ### Helpers -/

/-- Bytes from their numbers. -/
def bytes (l : List Nat) : List Byte := l.map (BitVec.ofNat 8)

/-- Every discrete input line low. -/
def low : Lines := ⟨fill 4 false, fill 2 (fill 4 false)⟩

/-- The part out of reset. -/
def on : State := State.reset

/-- The part with its reset pin low. -/
def pinned : State := on.withPif { on.pif with pinLow := true }

/-- The state after a command. -/
def after (c : Instr) (s : State) : State :=
  match exec c s with
  | .next t => t
  | _ => s

/-- That a command is answered with a next state. -/
def answered (c : Instr) (s : State) : Bool :=
  match exec c s with
  | .next _ => true
  | _ => false

theorem exec_after {c : Instr} {s : State} (h : answered c s = true) : exec c s = .next (after c s) := by
  unfold answered at h
  unfold after
  split at h
  · rename_i t ht
    rw [ht]
  · cases h

theorem step_after {c : Instr} {s : State} (h : answered c s = true) (hp : s.pending = []) :
    step (s.withPending [c]) = .next (after c s) := by
  have hs : (s.withPending [c]).withPending [] = s := by
    rw [← hp]
    rfl
  have : step (s.withPending [c]) = exec c ((s.withPending [c]).withPending []) := rfl
  rw [this, hs, exec_after h]

/-- The status of the response that a port holds after a command. -/
def status (p : Port) (c : Instr) (s : State) : Option Status := ((after c s).pif.portOf p).response.map Response.status

/-- The clock running on day 310 at a second of the day, the hours before closed. -/
def running (seconds : Nat) : State :=
  on.withClock ⟨.running, 310, seconds, 0, some (HourId.previous ⟨310, seconds / 3600⟩), false⟩

/-- M1 with a gap open since 0 and a rate of 7 mL/s, at 1.5 s. -/
def gapped : State :=
  (alterPoint 0 (fun p => { p with gap := some 0, forward := { p.forward with rate := 7, unclocked := 5 } }) on).withFine 1500

/-- A part whose last closed hour is (412, 21), the clock UNSET. -/
def stopped : State := on.withClock ⟨.unset, 0, 0, 0, some ⟨412, 21⟩, false⟩

/-- The fields of a SET-CLOCK. -/
def clockFields (day seconds abandon : Nat) : List Byte := ubytes 2 day ++ ubytes 4 seconds ++ ubytes 1 abandon

/-- Slot 0 with a state. -/
def slot0 (x : SlotState) : State := alterSlot 0 (fun sl => { sl with enabled := decide (x ≠ .disabled), state := x }) on

/-- Unit U1 changed. -/
def unit0 (f : UnitRecord → UnitRecord) : State := alterUnit 0 f on

/-- A step that waits for input I0 true. -/
def waitStep (a : Advance) : StepRecord :=
  ⟨⟨true, true, false⟩, ⟨false, false, true⟩, false, true, a, 0, true, 30, false, true, false⟩

/-- Train D1 changed, Bank 1 holding one step and END. -/
def train0 (a : Advance) (f : Train → Train) : State :=
  alterTrain 0 f (on.withDsq { on.dsq with banks := put on.dsq.banks 0 (put (put (fill 24 .empty) 0 (.written (waitStep a))) 1 .endMark) })

/-- An ACTIVE shipper slot. -/
def shipper (space : Nat) (inventory : Int) (code : Nat) : Account := ⟨.active, some code, space, 100000, 100000, inventory⟩

/-- Two shippers, in slots 0 and 1. -/
def twoShippers (s : State) : State :=
  (alterAccount 1 (fun _ => shipper 1000000 400000 1317) (alterAccount 0 (fun _ => shipper 900000 600000 1201) s)).withAct
    { (alterAccount 1 (fun _ => shipper 1000000 400000 1317) (alterAccount 0 (fun _ => shipper 900000 600000 1201) s)).act with
      book := 1001250, suspense := 1250 }

/-! ### Well-formed commands -/

theorem test_wf_request_of_63_field_bytes : (Instr.setSlot .ops (List.replicate 63 0)).wellFormed = false := by decide +kernel
theorem test_wf_request_of_62_field_bytes : (Instr.setSlot .ops (List.replicate 62 0)).wellFormed = true := by decide +kernel
theorem test_wf_unknown_request_that_is_a_request : (Instr.unknownRequest .ops 0x22 1 [5]).wellFormed = false := by decide +kernel
theorem test_wf_unknown_request_with_code_0 : (Instr.unknownRequest .ops 0 63 []).wellFormed = false := by decide +kernel
theorem test_wf_unknown_request_with_length_63 : (Instr.unknownRequest .com 0x22 63 []).wellFormed = true := by decide +kernel
theorem test_wf_ignored_transaction_of_two_bytes : (Instr.ignoredTransaction .ops [0x22, 1] false).wellFormed = false := by decide +kernel
theorem test_wf_ignored_transaction_that_is_a_collect : (Instr.ignoredTransaction .ops [0] false).wellFormed = false := by decide +kernel
theorem test_wf_ignored_transaction_over_a_reset : (Instr.ignoredTransaction .ops [0x22, 1] true).wellFormed = true := by decide +kernel
theorem test_wf_collect_of_no_byte : (Instr.collect .com 0).wellFormed = false := by decide +kernel
theorem test_wf_reply_of_no_byte :
    (Instr.dataReply []).wellFormed = false ∧ (Instr.doneReply []).wellFormed = false ∧ (Instr.errorReply []).wellFormed = false
      ∧ (Instr.badReplyFrame []).wellFormed = false := by decide +kernel
theorem test_wf_pin_of_9_microseconds : (Instr.pin 9 low).wellFormed = false ∧ (Instr.pin 10 low).wellFormed = true := by decide +kernel

/-! ### Worked examples -/

/-- 01_the_gas_day_clock.md, setting the clock after an outage: three missed hours, then (413, 1) open. -/
theorem test_clock_after_an_outage :
    status .ops (.setClock .ops (clockFields 413 6000 0)) stopped = some .ok
      ∧ ((after (.setClock .ops (clockFields 413 6000 0)) stopped).pif.ops.response.map Response.fields) = some [0x10, 3, 0]
      ∧ (after (.setClock .ops (clockFields 413 6000 0)) stopped).clock = ⟨.running, 413, 6000, 0, some ⟨413, 0⟩, false⟩
      ∧ (hourOf (after (.setClock .ops (clockFields 413 6000 0)) stopped) (todayPosition 3)).site.firmed = true
      ∧ (hourOf (after (.setClock .ops (clockFields 413 6000 0)) stopped) (todayPosition 4)).site.firmed = false := by decide +kernel

/-- The same request for day 415 is 52 hours ahead: RANGE without abandon, (415, 0) the last closed hour with it. -/
theorem test_clock_abandons_beyond_48_hours :
    status .ops (.setClock .ops (clockFields 415 6000 0)) stopped = some .range
      ∧ (after (.setClock .ops (clockFields 415 6000 1)) stopped).clock.lastClosed = some ⟨415, 0⟩ := by decide +kernel

/-- 01_the_gas_day_clock.md, trims near marked instants. -/
theorem test_trims_near_marked_instants :
    (after (.trimClock .ops (sbytes 1 90)) (running 39540)).clock = ⟨.running, 310, 39630, 0, some ⟨310, 10⟩, true⟩
      ∧ status .ops (.trimClock .ops (sbytes 1 (-60))) (running 39630) = some .state
      ∧ (after (.trimClock .ops (sbytes 1 (-20))) (running 39630)).clock.seconds = 39610
      ∧ (hourOf (after (.trimClock .ops (sbytes 1 60)) (running 41350)) (todayPosition 13)).site.firmed = true
      ∧ status .ops (.trimClock .ops (sbytes 1 (-50))) (running 41440) = some .state := by decide +kernel

/-- 02_field_line_and_device_slots.md, decoding one block. -/
theorem test_decoding_one_block :
    [decodeChannel ⟨0, .u16, false⟩, decodeChannel ⟨0, .u16, true⟩, decodeChannel ⟨1, .s16, false⟩, decodeChannel ⟨1, .u32, false⟩,
        decodeChannel ⟨1, .u32, true⟩].map (fun f => f (wordsOf (bytes [3, 232, 255, 56, 0, 1])))
      = [1000, 59395, -200, 4281860097, 16791807] := by decide +kernel

/-- 02_field_line_and_device_slots.md, an overrun: scheduled at 10.0 s, answered at 12.03 s, k = 3. -/
theorem test_overrun_skips_two_instants : periodsOn 10000 1 12030 = 3 := by decide +kernel

/-- 05_caverns_and_flow_direction.md, R82: NORMAL, HIGH, HIGH, NORMAL, NORMAL. -/
theorem test_band_follows_its_hysteresis :
    ([18950, 19000, 18900, 18700, 18700].scanl
        (fun b p => nextBand { Cavern.initial with pmin := 6000, pmax := 19000, hysteresis := 300, band := b } ⟨p, .good, some 0⟩) .normal).tail
      = [.normal, .high, .high, .normal, .normal] := by decide +kernel

/-- 05_caverns_and_flow_direction.md, R85: a net of −41,730 on 812,400,000 kWh. -/
theorem test_gas_in_place_takes_the_net : addGas 812400000 (-41730) = 812358270 ∧ addGas 5 (-6) = 0 := by decide +kernel

/-- 03_metering_points_and_base_volume.md, a boundary run drops off the line: 7,240,000,000 mL at CV 11,000 are 79,640 kWh. -/
theorem test_energy_of_an_hour : roundDiv (7240000000 * 11000) (10 ^ 9) = 79640 := by decide +kernel

/-- 03_metering_points_and_base_volume.md, the two worked conversions of R48: 283,243,332 mL on M1, 174,250 mL on M3. -/
theorem test_worked_conversions :
    baseVolume (put (fill 4 0) 2 201) 1000 15000 3000 1800 = 283243332
      ∧ baseVolume (put (fill 4 0) 0 262) 100 300 (-4500) 500 = 174250 := by
  decide +kernel

/-- The three shippers of the PRO_RATA close of 10_hour_close_and_allocation.md, hour (310, 15) firmed with their confirmations, slot 2's
later withdrawals of 300,000 in the next hour. -/
def threeShippers : State :=
  let s := alterAccount 2 (fun _ => shipper 50000000 5000000 3) (alterAccount 1 (fun _ => shipper 100000000 85100000 2)
    (alterAccount 0 (fun _ => shipper 900000000 600000000 1) (on.withCau { on.cau with mode := .proRata })))
  let confirm (p : Fin 72) (l : List Int) (s : State) : State :=
    alterHour p (fun c => { c with
      site := { c.site with firmed := true }, entries := tab fun a => { HourEntry.clear with confirmed := l[a.val]? } }) s
  confirm 40 [0, 0, -300000] (confirm 39 [600000, 300000, -150000] s)

/-- That example: allocations +606,669, +303,335 and −150,000, fuel 5,220, 2,610 and 1,291. -/
theorem test_pro_rata_close :
    let q := closingQuantity threeShippers 39
    let al := allocate threeShippers q 760004
    (nth al 0, nth al 1, nth al 2) = (606669, 303335, -150000)
      ∧ (nth (shareFuel threeShippers q al 9121) 0, nth (shareFuel threeShippers q al 9121) 1, nth (shareFuel threeShippers q al 9121) 2)
        = (5220, 2610, 1291)
      ∧ (nth (allocate threeShippers q 0) 0, nth (allocate threeShippers q 0) 1) = (100000, 50000) := by decide +kernel

/-- R42 with R41, R130 with R115: a slot number of 16 is RANGE; R43 says nothing of it, and R197 makes it MALFORMED in SET-CV. -/
theorem test_bound_slot_16 :
    status .ops (.setPoint .ops (bytes [1, 1, 16, 0, 1, 0, 1, 0, 0, 0, 0])) on = some .range
      ∧ status .ops (.setTrain .ops (bytes [1, 0, 1, 16, 0, 0, 0, 0, 0, 0, 0, 0])) on = some .range
      ∧ status .ops (.setCv .ops (ubytes 2 8000 ++ bytes [1, 16, 0])) on = some .malformed := by decide +kernel

/-- 11_ports_and_requests.md, R206 and R197: an unowned request is OWNER and changes nothing. -/
theorem test_unowned_request : status .com (.setFieldLine .com [50]) on = some .owner := by decide +kernel

/-- R206: two's complement, most significant byte first. -/
theorem test_twos_complement : sbytes 2 (-1500) = [0xFA, 0x24] ∧ snum [0xFA, 0x24] 0 2 = -1500 := by decide +kernel

/-- R14: the published check value of the CRC with polynomial 0x1021 and initial value 0xFFFF, unreflected (from outside the manual). -/
theorem test_crc_check_value : crc16 (bytes [49, 50, 51, 52, 53, 54, 55, 56, 57]) = 0x29B1 := by decide +kernel

/-! ### Witnesses: steps and ports -/

theorem test_EmptyQueueCountsOneMillisecond_met :
    on.pending = [] ∧ heldInReset on = false ∧ pinned.pending = [] ∧ heldInReset pinned = true := by decide +kernel

/-- The hundredth millisecond is a step of the time base, and the one before it is not; U1 RUNNING counts a tenth at it. -/
theorem test_EmptyQueueCountsOneMillisecond_hundredth_met :
    let s := (alterUnit 0 (fun r => { r with state := .running }) on).withFine 199
    s.pending = [] ∧ heldInReset s = false ∧ s.fine % 100 = 99 ∧ (s.withFine 198).fine % 100 ≠ 99
      ∧ idle s = after .timeBaseStep s ∧ timeBase (idle s) = 2 ∧ (unitOf (idle s) 0).runTenths = 1 ∧ idle (s.withFine 198) = s := by
  decide +kernel

theorem test_HeldPartTakesNothing_met :
    heldInReset pinned = true ∧ (∀ cause, Instr.timeBaseStep ≠ .heldInReset cause) ∧ (∀ lines, Instr.timeBaseStep ≠ .powerOn lines)
      ∧ ∀ micros lines, Instr.timeBaseStep ≠ .pin micros lines := ⟨by decide +kernel, nofun, nofun, nofun⟩

/-- A frame of 62 field bytes, a RESET-PART, and the two unknown frames at the ends of their ranges. -/
theorem test_TransactionBytesSpellTheirCommand_met :
    requestParts (.setSlot .ops (List.replicate 62 0)) = some (.ops, 0x21, List.replicate 62 0)
      ∧ (Instr.setSlot .ops (List.replicate 62 0)).wellFormed = true
      ∧ (∀ q fs l, Instr.setSlot .ops (List.replicate 62 0) = .resetPart q fs l → l = low)
      ∧ requestParts (.resetPart .ops [] low) = some (.ops, 0xB1, []) ∧ (Instr.resetPart .ops [] low).wellFormed = true
      ∧ (∀ q fs l, Instr.resetPart .ops [] low = .resetPart q fs l → l = low)
      ∧ 62 < (63 : Byte).toNat ∧ ([] : List Byte).length ≠ (1 : Byte).toNat ∧ layoutOf (0x12 : Byte).toNat [] = .noRequest := by
  refine ⟨by decide +kernel, by decide +kernel, nofun, by decide +kernel, by decide +kernel, ?_, by decide +kernel, by decide +kernel, by decide +kernel⟩
  intro q fs l h
  cases h
  rfl

theorem test_NumbersReadAsWritten_met :
    255 < 256 ^ 1 ∧ -(256 ^ 1 : Nat) ≤ 2 * (-128 : Int) ∧ 2 * (-128 : Int) < (256 ^ 1 : Nat)
      ∧ 2 * (127 : Int) < (256 ^ 1 : Nat) := by decide +kernel

theorem test_RequestsAreCheckedForLengthOwnerAndNumber_met :
    requestParts (.setClock .ops []) = some (.ops, 0x10, []) ∧ fits 0x10 [] = false ∧ heldInReset on = false
      ∧ requestParts (.setLead .ops [2]) = some (.ops, 0x94, [2]) ∧ fits 0x94 [2] = true ∧ ownedBy 0x94 = some .com
      ∧ requestParts (.enableSlot .ops [16]) = some (.ops, 0x22, [16]) ∧ fits 0x22 [16] = true ∧ ownedBy 0x22 = some .ops
      ∧ namesNone 0x22 [16] = true ∧ namesNone 0x22 [15] = false ∧ namesNone 0x71 [2, 3] = true ∧ namesNone 0x71 [0, 2] = true
      ∧ namesNone 0x71 [1, 2] = false ∧ namesNone 0x40 [1, 56, 0, 0] = true ∧ fits 0x40 [1, 56, 0, 0] = true
      ∧ namesNone 0x40 [1, 55, 0, 0] = false := by decide +kernel

/-- R206: for every code with such bytes, fields one past a byte's list, and the same fields with that byte the last of its list. -/
theorem test_RequestsAreCheckedForLengthOwnerAndNumber_bytes_met :
    let bad (code : Nat) (fields : List Byte) : Bool := fits code fields && !namesNone code fields && badByte code fields
    let with_ (b : Nat) : List (Nat × List Byte) :=
      [(0x10, clockFields 413 0 b), (0x30, bytes [1, b, 0] ++ bytes (List.replicate 8 0)), (0x32, ubytes 2 8000 ++ bytes [b, 0, 0]),
        (0x40, bytes [2, 55, 1, 7, 0, b, 0]), (0x42, bytes [9, 0, 0, 0, b]), (0x50, bytes [1, b] ++ bytes (List.replicate 14 0)),
        (0x61, bytes [1, b]), (0x70, bytes [1, 0, 1] ++ bytes (List.replicate 15 0) ++ bytes [b]),
        (0x72, bytes [2, 0, 0, 0, 0, 0, 0, 0, 0, 0, 0, b]), (0x90, bytes [0, b, 0, 0, 0, 0, 0, 0, 0]), (0x91, bytes [0, b, 0, 0, 0, 0]),
        (0x93, bytes [0, b, 0, 0, 0]), (0x95, bytes [b, 2, 0, 0, 0, 0, 0, 0, 0, 0]), (0xA0, bytes [b]), (0xB0, bytes [18, 0, b, 0, 0])]
    ((with_ 2).all fun x => bad x.1 x.2) = true ∧ ((with_ 1).all fun x => !badByte x.1 x.2) = true
      ∧ bad 0x70 (bytes [1, 0, 3] ++ bytes (List.replicate 16 0)) = true ∧ badByte 0x70 (bytes [1, 0, 2] ++ bytes (List.replicate 16 0)) = false
      ∧ bad 0x21 (ubytes 1 0 ++ bytes [1, 0, 0, 1, 1, 0, 4, 0] ++ bytes (List.replicate 23 0)) = true
      ∧ bad 0x21 (ubytes 1 0 ++ bytes [1, 0, 0, 1, 1, 0, 3, 1, 2] ++ bytes (List.replicate 21 0) ++ bytes [2]) = true
      ∧ badByte 0x21 (ubytes 1 0 ++ bytes [1, 0, 0, 1, 1, 0, 3, 1, 2] ++ bytes (List.replicate 21 0) ++ bytes [1]) = false := by decide +kernel

theorem test_RefusedRequestChangesOnlyItsPort_met :
    requestParts (.setFieldLine .ops [4]) = some (.ops, 0x20, [4]) ∧ heldInReset on = false
      ∧ exec (.setFieldLine .ops [4]) on = .next (after (.setFieldLine .ops [4]) on)
      ∧ ((after (.setFieldLine .ops [4]) on).pif.portOf .ops).response = some ⟨.range, [0x20]⟩ :=
  ⟨by decide +kernel, by decide +kernel, exec_after (by decide +kernel), by decide +kernel⟩

theorem test_RequestResponseEchoesItsCode_met :
    requestParts (.readEvents .com []) = some (.com, 0x43, []) ∧ heldInReset on = false ∧ (0x43 : Byte) ≠ 0xB1
      ∧ Port.ops ≠ .com := by decide +kernel

/-- A length byte of 63, one of 62 with 61 bytes, an unknown code, a known one of the wrong layout, and the short frames. -/
theorem test_UnknownAndIgnoredTransactions_met :
    62 < (63 : Byte).toNat ∧ (List.replicate 61 (0 : Byte)).length ≠ (62 : Byte).toNat
      ∧ layoutOf (0x12 : Byte).toNat (List.replicate 62 0) = .noRequest ∧ (List.replicate 62 (0 : Byte)).length = (62 : Byte).toNat
      ∧ layoutOf (0x20 : Byte).toNat [] ≠ .noRequest ∧ fits (0x20 : Byte).toNat [] = false ∧ heldInReset on = false
      ∧ ([0x20] : List Byte).length < 2 ∧ ([0x20] : List Byte).head? ≠ some 0 ∧ ([] : List Byte).head? ≠ some 0 := by decide +kernel

/-- One byte, a response held with the collect that just takes it and one byte less, and an EMPTY buffer. -/
theorem test_CollectShiftsOutTheResponse_met :
    heldInReset (after (.readEvents .ops [0]) on) = false
      ∧ ((after (.readEvents .ops [0]) on).pif.portOf .ops).response = some ⟨.malformed, [0x43]⟩
      ∧ (on.pif.portOf .ops).response = none
      ∧ ((after (.collect .ops 4) (after (.readEvents .ops [0]) on)).pif.portOf .ops).response = none
      ∧ ((after (.collect .ops 3) (after (.readEvents .ops [0]) on)).pif.portOf .ops).response = some ⟨.malformed, [0x43]⟩ := by
  decide +kernel

/-- Class 7 from reset: part 0, the last part that there is, the first that there is not, and a part of another class. -/
theorem test_ReadAnswersPiecesOfItsReport_met :
    heldInReset (after (.read .ops [7, 0]) on) = false ∧ fits 0xB0 [7, 0] = true ∧ (∃ items, select on 7 [] = .items items)
      ∧ (∃ items, select (after (.read .ops [7, 0]) on) 7 [] = .items items)
      ∧ (((after (.read .ops [7, 0]) on).pif.portOf .ops).image.map fun i => (i.itemClass, i.selector)) = some (7, [])
      ∧ (((after (.read .ops [7, 0]) on).pif.portOf .ops).image.map fun i => decide (3 < partsOf i.report)) = some true
      ∧ (((after (.read .ops [7, 0]) on).pif.portOf .ops).image.map fun i => decide (partsOf i.report ≤ 4)) = some true
      ∧ (∃ items, select (after (.read .ops [7, 0]) on) 8 [] = .items items) ∧ fits 0xB0 [8, 1] = true
      ∧ select on 3 [16] = .refused .range ∧ fits 0xB0 [3, 0, 16] = true :=
  ⟨by decide +kernel, by decide +kernel, ⟨_, rfl⟩, ⟨_, rfl⟩, by decide +kernel, by decide +kernel, by decide +kernel, ⟨_, rfl⟩, by decide +kernel, by decide +kernel,
    by decide +kernel⟩

/-- R200: the first piece of a report of several is PARTIAL, the last OK. -/
theorem test_ReadAnswersPiecesOfItsReport_status_met :
    status .ops (.read .ops [7, 0]) on = some .part
      ∧ ((after (.read .ops [7, 0]) on).pif.ops.image.map fun i =>
          (List.range (partsOf i.report)).map fun k => decide ((pieceResponse i k).status = .ok)) = some [false, false, false, true] := by
  decide +kernel

/-- The clock UNSET and running, the last run of conditions and the first past the end, and a last condition of level 7. -/
theorem test_ReadAnswersPiecesOfItsReport_items_met :
    let s := on.withCdt { on.cdt with conditions := alter on.cdt.conditions 55 fun c => { c with level := 7, active := true } }
    clockRunning on = false ∧ clockRunning (running 86399) = true ∧ 56 < (55 : Byte).toNat + (2 : Byte).toNat ∧ 56 ≤ (56 : Byte).toNat
      ∧ (55 : Byte).toNat + (1 : Byte).toNat ≤ 56 ∧ (0 : Byte).toNat + (56 : Byte).toNat ≤ 56 ∧ (55 : Fin 56).val = (55 : Byte).toNat + 0
      ∧ select s 9 [55, 1] = .items (bytes [7, 1, 0, 0]) ∧ select s 9 [55, 2] = .refused .range ∧ select s 9 [56, 1] = .refused .range
      ∧ select s 9 [0, 0] = .refused .range
      ∧ select (running 3661) 1 [] = .items (bytes [1, 1, 54, 0, 0, 14, 77, 0, 0, 0, 0, 0, 0, 1, 1, 54, 0, 0])
      ∧ select on 25 [] = .items (bytes [0, 1, 0, 1]) := by decide +kernel

/-- Slots 15 and 16; code 7 of slot 0, code 8 of none, and code 0; the last hour of tomorrow and one run past it; runs of 3 and 4, of 4 and
5; position 47 and 48 of a full history, and an empty one; hours 23 and 24; a channel the slot lacks, and channel 4. -/
theorem test_ReadAnswersPiecesOfItsReport_tables_met :
    let s := alterAccount 0 (fun _ => shipper 100 5 7) (alterHour 71 (fun c =>
      { site := { c.site with firmed := true, injectionCapacity := 258, net := -1 }
        entries := alter c.entries 0 fun e => { e with requested := some (-2), curtailed := true } }) (running 0))
    let record : HourRecord :=
      { hour := ⟨410, 23⟩, energyIn := 1, energyOut := 2, energyFuel := 3, net := -1, cavernNets := fill 4 (-1), difference := 4, cv := 11000
        mode := .proRata, suspensePosting := 5, fuelToSuspense := 6, estimatedSeconds := 7, offSpecSeconds := fill 2 8
        flags := MeterFlags.clear, offSpec := true, curtailed := false, refirmed := false, trimmed := false, outage := true }
    let full := s.withCau { s.cau with history := record :: List.replicate 47 { record with hour := ⟨411, 0⟩ } }
    select s 18 [0, 0, 15] = .items (1 :: accountReport s 15) ∧ select s 18 [0, 0, 16] = .refused .range
      ∧ select s 18 [1, 0, 7] = .items (1 :: accountReport s 0) ∧ select s 18 [1, 0, 0] = .refused .range
      ∧ (accountOf s 0).held = true ∧ (accountOf s 0).code = some (256 * (0 : Byte).toNat + (7 : Byte).toNat)
      ∧ (∀ a, (accountOf s a).held = true → (accountOf s a).code = some 7 → a = 0)
      ∧ (∀ a, (accountOf s a).held = true → (accountOf s a).code ≠ some 8) ∧ select s 18 [1, 0, 8] = .items (List.replicate 38 0)
      ∧ select s 20 [0, 2, 23, 1]
          = .items (bytes [1, 255, 255, 255, 254, 0, 0, 0, 0, 0, 0, 0, 0, 0, 0, 0, 0, 0, 0, 0, 0, 1, 0])
      ∧ select s 21 [2, 23, 1] = .items (bytes [1, 0, 0, 1, 2, 0, 0, 0, 0, 255, 255, 255, 255, 2, 0, 0, 0])
      ∧ (71 : Fin 72).val = 24 * (2 : Byte).toNat + (23 : Byte).toNat + 0
      ∧ select s 20 [0, 2, 23, 2] = .refused .range ∧ select s 20 [16, 2, 23, 1] = .refused .range
      ∧ select s 20 [15, 2, 21, 3] ≠ .refused .range ∧ select s 20 [15, 2, 20, 4] = .refused .range
      ∧ select s 21 [2, 20, 4] ≠ .refused .range ∧ select s 21 [2, 19, 5] = .refused .range
      ∧ select full 23 [0, 47, 0, 0, 0] = .items (1 :: recordReport record) ∧ select full 23 [0, 48, 0, 0, 0] = .refused .range
      ∧ full.cau.history = [] ++ record :: List.replicate 47 { record with hour := ⟨411, 0⟩ }
      ∧ select full 23 [1, 0, 1, 154, 23] = .items (1 :: recordReport record) ∧ (recordReport record).length = 66
      ∧ select s 23 [0, 0, 0, 0, 0] = .items (List.replicate 67 0) ∧ select s 23 [1, 0, 0, 0, 24] = .refused .range
      ∧ (slotOf on 0).settings.channels.length ≤ (3 : Byte).toNat ∧ select on 4 [0, 3] = .missingChannel
      ∧ select on 4 [0, 4] = .refused .range := by decide +kernel

/-- The READ of a channel the slot does not have is taken, whatever it reports. -/
theorem test_ReadAnswersPiecesOfItsReport_missing_met :
    heldInReset on = false ∧ fits 0xB0 [4, 0, 0, 3] = true ∧ (after (.read .ops [4, 0, 0, 3]) on).freeReads = on.freeReads + 1
      ∧ ((after (.read .ops [4, 0, 0, 3]) on).pif.ops.image.map fun i => (i.itemClass, i.selector)) = some (4, [0, 3]) := by
  decide +kernel

/-! ### Witnesses: gas-day clock -/

/-- The last second of the day and the first past it; the last closed hour itself, 1, 48, 49, 786,432 and 786,433 hours ahead. -/
theorem test_SetClockSetsGasDayTime_met :
    fits 0x10 (clockFields 413 86399 0) = true ∧ mark (clockFields 413 86399 0) 6 = some false ∧ num (clockFields 413 86399 0) 2 4 = 86399
      ∧ num (clockFields 413 86400 0) 2 4 = 86400 ∧ clockRunning (running 0) = true ∧ clockRunning on = false
      ∧ on.clock.lastClosed = none ∧ stopped.clock.lastClosed = some ⟨412, 21⟩ ∧ clockRunning stopped = false
      ∧ forwardDistance ⟨412, 21⟩ ⟨412, 21⟩ = 0 ∧ forwardDistance ⟨412, 21⟩ ⟨412, 22⟩ = 1 ∧ forwardDistance ⟨412, 21⟩ ⟨414, 21⟩ = 48
      ∧ forwardDistance ⟨412, 21⟩ ⟨414, 22⟩ = 49 ∧ forwardDistance ⟨412, 21⟩ ⟨33180, 21⟩ = 786432
      ∧ forwardDistance ⟨412, 21⟩ ⟨33180, 22⟩ = 786433 ∧ mark (clockFields 414 79200 1) 6 = some true
      ∧ stopped.cau.history.length ≤ 48 := by decide +kernel

theorem test_SetClockSetsGasDayTime_hour_met : hourInRange ⟨412, 21⟩ := by unfold hourInRange; decide +kernel

/-- The hours of an outage: (412, 22) firmed with a confirmation of −5 for slot 0 before it, (412, 23) unfirmed, the books in slots 0 and 1,
and a gap open on M1 with an unclocked volume. -/
def outage : State :=
  let s := twoShippers (gapped.withClock stopped.clock)
  alterHour 46 (fun c =>
    { c with site := { c.site with firmed := true }, entries := alter c.entries 0 fun e => { e with confirmed := some (-5) } })
    (s.withNfu { s.nfu with todayDay := some 412 })

theorem test_SetClockSetsGasDayTime_formed_met : ClassFormed outage := by unfold ClassFormed; decide +kernel

/-- Two missed hours before (413, 0) at its firm point: the rows roll over once, the confirmation is kept, the unfirmed hour gets zeros,
the set hour and the two after it are firmed, and 15 mL stand in the set hour. -/
theorem test_SetClockSetsGasDayTime_missed_met :
    let fields := clockFields 413 1800 0
    let t := after (.setClock .ops fields) outage
    (setPosition fields).val = 24 ∧ overdueEnd fields outage = 27 ∧ outage.nfu.lead = 2 ∧ outage.nfu.pendingLead = none
      ∧ 24 + 24 = (todayPosition (HourId.next ⟨412, 21⟩).hour).val + 2
      ∧ t.cau.history.map (fun r => (r.hour, r.outage)) = [(⟨412, 22⟩, true), (⟨412, 23⟩, true)]
      ∧ (entryOf t 22 0).confirmed = some (-5) ∧ (entryOf t 22 0).allocated = some (-5)
      ∧ entryOf t 23 0 = { HourEntry.clear with confirmed := some 0, allocated := some 0, fuel := some 0 }
      ∧ (rowBefore outage 46).site.firmed = true ∧ (rowBefore outage 47).site.firmed = false
      ∧ (hourOf t 26).site.firmed = true ∧ (hourOf t 27).site.firmed = false ∧ t.nfu.todayDay = some 413
      ∧ (pointOf t 0).forward.hourVolume = 15 ∧ t.mtu.flags.restart = true ∧ t.mtu.flags.estimated = true := by decide +kernel

/-- The set hour next after the last closed one, a first set, and an abandoning set of the same part. -/
theorem test_SetClockSetsGasDayTime_others_met :
    forwardDistance ⟨412, 21⟩ ⟨412, 22⟩ - 1 = 0
      ∧ (hourOf (after (.setClock .ops (clockFields 412 79200 0)) outage) 46).site.closed = false
      ∧ (outage.withClock { outage.clock with lastClosed := none }).clock.lastClosed = none
      ∧ overdueEnd (clockFields 414 79200 1) outage = 48
      ∧ hourOf (after (.setClock .ops (clockFields 414 79200 1)) outage) 45 = HourCell.clear
      ∧ entryOf (after (.setClock .ops (clockFields 414 79200 1)) outage) 46 0 = { HourEntry.clear with confirmed := some 0 }
      ∧ hourOf (after (.setClock .ops (clockFields 414 79200 1)) outage) 48 = HourCell.clear
      ∧ (after (.setClock .ops (clockFields 414 79200 1)) outage).act = outage.act := by decide +kernel

/-- A set hour that withdraws, on a STANDBY site with a GOOD source of 13,500 and a lead of 1 pending. -/
theorem test_SetClockSetsGasDayTime_started_met :
    let s := alterHour 24 (fun c => { c with site := { c.site with firmed := true, net := -5 } })
      (alterSlot 9 (fun sl => { sl with channels := put sl.channels 0 ⟨13500, .good, some 0⟩ }) on)
    let s := (s.withMtu { s.mtu with cvSource := some ⟨9, 0⟩ }).withNfu { s.nfu with hours := s.nfu.hours, pendingLead := some 1 }
    let t := after (.setClock .ops (clockFields 413 0 0)) s
    setPosition (clockFields 413 0 0) = 24 ∧ s.clock.lastClosed = none ∧ clockRunning s = false ∧ (hourOf t 24).site.net = -5
      ∧ s.dir.direction = .standby ∧ t.dir.direction = .withdrawing ∧ t.mtu.latchedCv = 13500 ∧ conditionActive t condCv = false
      ∧ t.nfu.lead = 1 ∧ (∀ u, (unitOf s u).state ≠ .starting ∧ (unitOf s u).state ≠ .running) := by decide +kernel

/-- A stopped clock, −121, 121, 0, a trim back to a marked instant and one to the second after it, one that crosses nothing, one that
reaches a firm point, and one that reaches an hour boundary. -/
theorem test_TrimClockMovesGasDayTime_met :
    fits 0x11 (sbytes 1 (-121)) = true ∧ snum (sbytes 1 (-121)) 0 1 = -121 ∧ snum (sbytes 1 121) 0 1 = 121 ∧ snum (sbytes 1 0) 0 1 = 0
      ∧ snum (sbytes 1 (-120)) 0 1 = -120 ∧ snum (sbytes 1 120) 0 1 = 120 ∧ clockRunning on = false ∧ clockRunning (running 41400) = true
      ∧ (running 41520).clock.seconds + (-120 : Int) ≤ ((running 41520).clock.seconds / 1800 * 1800 : Nat)
      ∧ ((running 41521).clock.seconds / 1800 * 1800 : Nat) < (running 41521).clock.seconds + (-120 : Int)
      ∧ (41279 + 120) / 1800 = 41279 / 1800 ∧ (41280 + 120) / 3600 = 41280 / 3600 ∧ (41280 + 120) / 1800 ≠ 41280 / 1800
      ∧ (86280 + 120) / 3600 ≠ 86280 / 3600 ∧ (running 86280).clock.lastClosed = some ⟨310, 22⟩ := by decide +kernel

/-- R12: the record of the hour that a trim shortens carries TRIMMED; a firm point that a trim reaches sets HOUR_FIRMED. -/
theorem test_TrimClockMovesGasDayTime_events_met :
    let firms := (running 41280).withClock { (running 41280).clock with seconds := 41400, trimmed := true }
    let closes := (running 86280).withClock { (running 86280).clock with day := 311, seconds := 0, trimmed := true }
    firmPointReached firms = true ∧ (37 : Fin 72).val = (todayPosition (HourId.next ⟨310, 10⟩).hour).val + (running 41280).nfu.lead
      ∧ (running 41280).clock.lastClosed = some ⟨310, 10⟩ ∧ (hourOf (running 41280) 37).site.firmed = false
      ∧ nth (after (.trimClock .ops (sbytes 1 120)) (running 41280)).cdt.com.flags evHourFirmed = true
      ∧ (86280 + 120) % 86400 = 0 ∧ boundaryDue closes = true
      ∧ ((after (.trimClock .ops (sbytes 1 120)) (running 86280)).cau.history.map fun r => (r.hour, r.trimmed)) = [(⟨310, 23⟩, true)]
      ∧ (after (.trimClock .ops (sbytes 1 120)) (running 86280)).clock = ⟨.running, 311, 0, 0, some ⟨310, 23⟩, true⟩ := by decide +kernel

theorem test_TimeBaseStepCounts_met : heldInReset on = false ∧ clockRunning on = false ∧ clockRunning (running 86399) = true := by decide +kernel

/-- Hour 10 still open when time stands at 11:00:00. -/
theorem test_HourBoundaryClosesTheOpenHour_met :
    heldInReset ((running 39600).withClock { (running 39600).clock with lastClosed := some ⟨310, 9⟩ }) = false
      ∧ clockRunning ((running 39600).withClock { (running 39600).clock with lastClosed := some ⟨310, 9⟩ }) = true
      ∧ boundaryDue ((running 39600).withClock { (running 39600).clock with lastClosed := some ⟨310, 9⟩ }) = true
      ∧ boundaryDue (running 39600) = false := by decide +kernel

/-- Hour 23 still open when time stands at the start of day 311, the CV source bound to a GOOD channel at its upper limit, a lead of 1
pending, and the site INJECTING. -/
def midnight : State :=
  let s := on.withClock ⟨.running, 311, 0, 0, some ⟨310, 22⟩, false⟩
  let s := alterSlot 9 (fun sl => { sl with channels := put sl.channels 0 ⟨13500, .good, some 0⟩ }) s
  ((s.withMtu { s.mtu with cvSource := some ⟨9, 0⟩ }).withNfu { s.nfu with pendingLead := some 1, todayDay := some 310 }).withDir
    { s.dir with direction := .injecting }

/-- The rows roll over, the CV is latched, the lead takes effect with no hour overdue, the site stands by. -/
theorem test_HourBoundaryClosesTheOpenHour_midnight_met :
    boundaryDue midnight = true ∧ clockRunning midnight = true ∧ heldInReset midnight = false
      ∧ midnight.clock.lastClosed = some ⟨310, 22⟩ ∧ (HourId.next ⟨310, 22⟩).hour = 23
      ∧ (channelAt (slotOf midnight 9) 0).quality = .good ∧ (channelAt (slotOf midnight 9) 0).value ≤ 13500
      ∧ (after .hourBoundary midnight).mtu.latchedCv = 13500 ∧ (after .hourBoundary midnight).nfu.lead = 1
      ∧ (after .hourBoundary midnight).nfu.todayDay = some 311 ∧ (after .hourBoundary midnight).dir.direction = .standby := by
  decide +kernel

/-- Hour 11 ends into an hour that withdraws. From INJECTING, with U1 RUNNING, the units are those of the change; from WITHDRAWING, with U1
READY, the evaluation of a demand of 0 leaves them; from STANDBY a PARKED train resumes at its step. -/
theorem test_HourBoundaryClosesTheOpenHour_follow_met :
    let s := alterHour 36 (fun c => { c with site := { c.site with firmed := true, net := -5 } })
      ((train0 .time fun t => { t with enabled := true, state := .parked, offSpecTenths := 7 }).withClock
        { (running 43200).clock with lastClosed := some ⟨310, 10⟩ })
    let injects := (alterUnit 0 (fun r => { r with state := .running, feedback := true }) s).withDir { s.dir with direction := .injecting }
    let withdraws := (alterUnit 0 (fun r => { r with state := .ready }) s).withDir { s.dir with direction := .withdrawing }
    boundaryDue s = true ∧ clockRunning s = true ∧ injects.dir.direction = .injecting ∧ (after .hourBoundary injects).dir.direction ≠ .injecting
      ∧ (unitOf (after .hourBoundary injects) 0).state = .stopping .cooldown ∧ withdraws.dir.direction ≠ .injecting
      ∧ (∀ u, (unitOf withdraws u).state ≠ .starting ∧ (unitOf withdraws u).state ≠ .running)
      ∧ (unitOf (after .hourBoundary withdraws) 0).state = .ready ∧ (after .hourBoundary s).dir.direction = .withdrawing
      ∧ (trainOf (after .hourBoundary s) 0).state = .running ∧ (trainOf (after .hourBoundary s) 0).offSpecTenths = 0
      ∧ (trainOf (after .hourBoundary withdraws) 0).state = .parked := by decide +kernel

/-- Volumes of half a kWh and of one that is cut, estimated tenths of 35,999 and 36,010, off-spec tenths of 9 and 10, and flags on and off.
-/
theorem test_CloseAllocatesAndPosts_record_met :
    let s := alterPoint 1 (fun p => { p with estimatedTenths := 35999, reverse := { p.reverse with hourVolume := 500000 } })
      (alterPoint 0 (fun p => { p with estimatedTenths := 36010, forward := { p.forward with hourVolume := 10 ^ 15 } }) midnight)
    let s := s.withMtu { s.mtu with latchedCv := 11000, flags := ⟨false, true, false, true, false⟩ }
    let s := alterTrain 1 (fun r => { r with offSpecTenths := 10 }) (alterTrain 0 (fun r => { r with offSpecTenths := 9 }) s)
    let s := (alterHour 47 (fun c => { c with site := { c.site with firmed := true, curtailed := true } }) s).withClock
      { s.clock with trimmed := true }
    boundaryDue s = true ∧ heldInReset s = false ∧ clockRunning s = true ∧ (hourMetering (bookOpenGaps s).mtu).flags.clamped = true
      ∧ roundDiv (500000 * 11000) (10 ^ 9) = 6
      ∧ ((after .hourBoundary s).cau.history.getLast?.map fun r => (r.energyIn, r.energyOut)) = some (100000000, 6)
      ∧ ((after .hourBoundary s).cau.history.getLast?.map fun r => (r.estimatedSeconds, nth r.offSpecSeconds 0, nth r.offSpecSeconds 1))
          = some (3600, 0, 1)
      ∧ ((after .hourBoundary s).cau.history.getLast?.map fun r =>
          [r.flags.estimated, r.flags.clamped, r.flags.cvHeld, r.flags.rebased, r.flags.restart, r.offSpec, r.curtailed, r.refirmed, r.outage,
            r.trimmed])
          = some [false, true, true, true, false, true, true, false, false, true] := by decide +kernel

/-- Slot 1 CLOSING with the 5 kWh that hour 23 confirmed out, in both modes. -/
theorem test_CloseAllocatesAndPosts_met :
    let s := alterHour 47 (fun c =>
        { c with site := { c.site with firmed := true }, entries := alter c.entries 1 fun e => { e with confirmed := some (-5) } })
      (alterAccount 1 (fun _ => { shipper 100 5 7 with state := .closing }) midnight)
    boundaryDue s = true ∧ clockRunning s = true ∧ heldInReset s = false ∧ s.clock.lastClosed = some ⟨310, 22⟩
      ∧ todayPosition (HourId.next ⟨310, 22⟩).hour = 47 ∧ (23 : Fin 72).val = (47 : Fin 72).val - 24
      ∧ nth (closingQuantity s 47) 1 = -5 ∧ s.cau.mode = .asNominated ∧ (accountOf s 1).state = .closing ∧ (accountOf s 0).state = .vacant
      ∧ (∀ h : Fin 72, h ≠ 47 → (hourOf s h).site.closed = true ∨ confirmedOf s h 1 = 0)
      ∧ accountOf (after .hourBoundary s) 1 = Account.vacant
      ∧ (accountOf (after .hourBoundary (s.withCau { s.cau with mode := .proRata })) 1).inventory = 5 := by decide +kernel

/-- R175: condition 52 rises at the close of hour 23, and the re-firm of the class 1 it brings cuts to 0 the 3 kWh that the CLOSING slot 1
was confirmed out of hour 0 of the next day, before the vacancy test. -/
theorem test_CloseAllocatesAndPosts_refirm_met :
    let s := alterHour 48 (fun c =>
        { c with
          site := { c.site with firmed := true, net := -3, withdrawalCapacity := 3 }
          entries := alter c.entries 1 fun e => { e with confirmed := some (-3) } })
      (alterHour 47 (fun c =>
          { c with site := { c.site with firmed := true }, entries := alter c.entries 1 fun e => { e with confirmed := some (-5) } })
        (alterAccount 1 (fun _ => { shipper 100 5 7 with state := .closing })
          (alterPoint 0 (fun p => { p with forward := { p.forward with hourVolume := 10 ^ 9 } }) midnight)))
    let s := (s.withMtu { s.mtu with latchedCv := 11000 }).withCdt
      { s.cdt with conditions := alter (fill 56 ⟨0, false, false, false⟩) condMeterDiff fun c => { c with level := 1 }, derateClass := 0, lead := none }
    boundaryDue s = true ∧ clockRunning s = true ∧ heldInReset s = false ∧ s.clock.lastClosed = some ⟨310, 22⟩
      ∧ s.cau.mode = .asNominated ∧ (accountOf s 1).state = .closing ∧ (accountOf s 1).inventory - 5 = 0
      ∧ (hourOf s 48).site.closed = false ∧ confirmedOf s 48 1 = -3 ∧ confirmedOf (report condMeterDiff true s) 48 1 = 0
      ∧ (∀ h : Fin 72, h ≠ 47 → (hourOf s h).site.closed = true ∨ confirmedOf (report condMeterDiff true s) h 1 = 0)
      ∧ conditionActive (after .hourBoundary s) condMeterDiff = true ∧ accountOf (after .hourBoundary s) 1 = Account.vacant
      ∧ (hourOf (after .hourBoundary s) 24).site.refirmed = true
      ∧ ((after .hourBoundary s).cau.history.map HourRecord.refirmed) = [false] := by decide +kernel

/-- Hour 11 ends INJECTING into a firmed withdrawal: a changeover begins, kept with a minimum of 600 s; with none, and U1 stopped at the
boundary without a cooldown left, the boundary quiet, it is over at once. A changeover to WITHDRAWING since 5 keeps its record. -/
theorem test_HourBoundaryClosesTheOpenHour_turn_met :
    let s := alterHour 36 (fun c => { c with site := { c.site with firmed := true, net := -5 } })
      (((running 43200).withClock { (running 43200).clock with lastClosed := some ⟨310, 10⟩ }).withDir { on.dir with direction := .injecting })
    let fast := (unit0 fun r => { r with state := .starting }).cpd
    let now := (s.withCpd fast).withDir { s.dir with site := { s.dir.site with changeoverMinimum := 0 } }
    let kept := s.withDir { s.dir with direction := .changeover ⟨.withdrawing, 5, true⟩ }
    boundaryDue s = true ∧ heldInReset s = false ∧ clockRunning s = true ∧ s.clock.lastClosed = some ⟨310, 10⟩
      ∧ todayPosition (HourId.next (HourId.next ⟨310, 10⟩)).hour = 36 ∧ s.dir.direction = Flow.withdrawing.other.direction
      ∧ (after .hourBoundary s).dir.direction = .changeover ⟨.withdrawing, timeBase s, false⟩
      ∧ (unitOf (after .hourBoundary now) 0).state ≠ (unitOf now 0).state ∧ (after .hourBoundary now).dir.direction = .withdrawing
      ∧ (after .hourBoundary kept).dir.direction = .changeover ⟨.withdrawing, 5, true⟩
      ∧ (∀ u, (unitOf (after .hourBoundary kept) u).state = (unitOf kept u).state) := by decide +kernel

theorem test_FirmPointFirmsTheHourAhead_met :
    heldInReset (running 41400) = false ∧ clockRunning (running 41400) = true ∧ firmPointReached (running 41400) = true
      ∧ openPosition (running 41400) = some 35 ∧ (37 : Fin 72).val = (35 : Fin 72).val + (running 41400).nfu.lead
      ∧ (hourOf (running 41400) 37).site.firmed = false ∧ (hourOf (after .firmPoint (running 41400)) 37).site.firmed = true
      ∧ firmPointReached (running 41399) = false ∧ clockRunning on = false := by decide +kernel

/-! ### Witnesses: field line and device slots -/

/-- The fields of a SET-SLOT with one U16 channel. -/
def slotFields (n address : Nat) : List Byte :=
  ubytes 1 n ++ ubytes 1 address ++ ubytes 2 0 ++ ubytes 1 1 ++ ubytes 1 1 ++ bytes [0, 0, 0] ++ ubytes 1 0 ++ ubytes 2 0
    ++ bytes [0, 5] ++ ubytes 2 10 ++ bytes [0, 1, 3, 0, 0] ++ bytes (List.replicate 11 0)

/-- Slot 0 ACTIVE at address 1 with a script of two writes, its transaction in flight, the window ending now. -/
def flying (request : LineRequest) (phase : Phase) (tries checks : Nat) (discarded : Bool) : State :=
  (alterSlot 0 (fun sl => { sl with settings := { sl.settings with scriptCount := 2 } }) (slot0 .active)).withFsu
    { (alterSlot 0 (fun sl => { sl with settings := { sl.settings with scriptCount := 2 } }) (slot0 .active)).fsu with
      engine := .awaitReply ⟨⟨0, 0, phase, tries, checks⟩, request, 50, some 0, discarded⟩ }

/-- The transaction of `flying`. -/
def flight (request : LineRequest) (phase : Phase) (tries checks : Nat) (discarded : Bool) : InFlight :=
  ⟨⟨0, 0, phase, tries, checks⟩, request, 50, some 0, discarded⟩

/-- The head of a queue, due at 100. -/
def due100 (now quietAt : Nat) : State :=
  ((slot0 .init).withFsu { (slot0 .init).fsu with queue := [⟨0, 100, .read, 0, 0⟩], quietAt := quietAt }).withFine now

theorem test_FieldLineSettingsAreStored_met :
    heldInReset on = false ∧ 5 ≤ (5 : Byte).toNat ∧ (200 : Byte).toNat ≤ 200 ∧ (4 : Byte).toNat < 5 ∧ 200 < (201 : Byte).toNat
      ∧ 63 + ([⟨65535, 65535⟩] : List ScriptEntry).length ≤ 64 ∧ 56 + (List.replicate 8 (⟨0, 0⟩ : ScriptEntry)).length ≤ 64
      ∧ (∀ e ∈ ([⟨65535, 65535⟩] : List ScriptEntry), e.register < 65536 ∧ e.value < 65536)
      ∧ fits 0x24 [0, 0] = true ∧ byteAt [0, 0] 1 = 0 ∧ fits 0x24 (0 :: 9 :: List.replicate 36 0) = true
      ∧ 8 < byteAt (0 :: 9 :: List.replicate 36 0) 1 ∧ fits 0x24 (57 :: 8 :: List.replicate 32 0) = true
      ∧ 64 < byteAt (57 :: 8 :: List.replicate 32 0) 0 + byteAt (57 :: 8 :: List.replicate 32 0) 1 := by decide +kernel

/-- The fields of a SET-SLOT of slot 0 with `n` channels of offset 0, U16. -/
def slotWithChannels (n : Nat) : List Byte :=
  ubytes 1 0 ++ ubytes 1 1 ++ ubytes 2 0 ++ ubytes 1 1 ++ ubytes 1 n ++ List.replicate (3 * n) 0 ++ ubytes 1 0 ++ ubytes 2 0
    ++ bytes [0, 5] ++ ubytes 2 10 ++ bytes [0, 1, 3, 0, 0] ++ bytes (List.replicate 11 0)

/-- R19, R20: no channel and five are RANGE, four are taken. -/
theorem test_SetSlotStoresAndRestarts_channels_met :
    fits 0x21 (slotWithChannels 0) = true ∧ byteAt (slotWithChannels 0) 5 = 0 ∧ (readSlotSettings (slotWithChannels 0)).isSome = true
      ∧ fits 0x21 (slotWithChannels 5) = true ∧ 4 < byteAt (slotWithChannels 5) 5
      ∧ (readSlotSettings (slotWithChannels 5)).isSome = true
      ∧ status .ops (.setSlot .ops (slotWithChannels 0)) on = some .range ∧ status .ops (.setSlot .ops (slotWithChannels 5)) on = some .range
      ∧ status .ops (.setSlot .ops (slotWithChannels 4)) on = some .ok := by decide +kernel

/-- Address 127; a DISABLED, a bound and an unbound enabled slot. -/
theorem test_SetSlotStoresAndRestarts_met :
    heldInReset (slot0 .faulted) = false ∧ fits 0x21 (slotFields 0 126) = true ∧ index? 16 (byteAt (slotFields 0 126) 0) = some 0
      ∧ ((readSlotSettings (slotFields 0 126)).map fun c => decide (slotSettingsInRange c)) = some true
      ∧ ((readSlotSettings (slotFields 0 127)).map fun c => decide (slotSettingsInRange c)) = some false
      ∧ fits 0x21 (slotFields 0 127) = true ∧ (slotOf on 0).state = .disabled ∧ (slotOf (slot0 .faulted) 0).state ≠ .disabled
      ∧ ¬ isBound (slot0 .faulted) 0 ∧ isBound (alterPoint 0 (fun p => { p with slot := some 0 }) (slot0 .faulted)) 0 := by
  decide +kernel

/-- R19: the script at the end of its store, a channel at the end of its block and a threshold at the ends of its format; then the script
one entry past its store, the channel one word past its block, and a threshold past its format, with equal limits, on a channel that the
slot has not, and below 0 in U32. -/
theorem test_SetSlotStoresAndRestarts_ranges_met :
    let c := { (slotOf on 0).settings with wordCount := 8, channels := [⟨6, .u32, false⟩, ⟨7, .s16, false⟩] }
    let within (upper lower : Int) (channel : Nat) : SlotSettings := { c with threshold := some ⟨channel, upper, lower, .inside⟩ }
    ([{ c with scriptStart := 63, scriptCount := 1 }, within 32767 (-32768) 1, within 4294967295 0 0].map fun x => decide (slotSettingsInRange x))
        = [true, true, true]
      ∧ ([{ c with scriptStart := 63, scriptCount := 2 }, { c with channels := [⟨7, .u32, false⟩] }, within 32768 (-32768) 1, within 5 5 1,
          within 6 5 2, within 4294967295 (-1) 0].map fun x => decide (slotSettingsInRange x)) = List.replicate 6 false := by decide +kernel

theorem test_EnableAndDisableSlotStartAndEndItsVisits_met :
    heldInReset on = false ∧ ([16] : List Byte).length = 1 ∧ 15 < byteAt [16] 0 ∧ (slotOf (slot0 .absent) 0).state ≠ .disabled
      ∧ (slotOf on 0).state = .disabled ∧ decide (suitsBindings on 0) = true
      ∧ decide (suitsBindings (alterPoint 0 (fun p => { p with slot := some 0 }) on) 0) = false
      ∧ pointBoundTo (alterPoint 0 (fun p => { p with slot := some 0 }) (slot0 .absent)) 0 = some 0
      ∧ (flying (.read 1 0 1) .read 0 0 false).fsu.engine = .awaitReply (flight (.read 1 0 1) .read 0 0 false) := by decide +kernel

/-- At the due instant and the quiet instant, one millisecond before either, an empty queue, and the three phases; a byte in IDLE, a byte of
a frame not complete at the last instant of the window, a byte one millisecond after it, and one while the request is sent. -/
theorem test_LineEngineTakesTheDueHead_met :
    heldInReset (due100 100 100) = false ∧ (due100 100 100).fsu.engine = .idle
      ∧ (due100 100 100).fsu.queue = ⟨0, 100, .read, 0, 0⟩ :: [] ∧ (due100 100 100).fsu.quietAt ≤ (due100 100 100).fine
      ∧ (due100 99 0).fine < 100 ∧ (due100 100 101).fine < (due100 100 101).fsu.quietAt ∧ on.fsu.queue = []
      ∧ (flying (.read 1 0 1) .read 0 0 false).fsu.engine ≠ .idle ∧ (0 : Fin 64).val = (slotOf on 0).settings.scriptStart + 0
      ∧ (flight (.read 1 0 1) .read 0 0 false).windowEnd ≠ none ∧ (flying (.read 1 0 1) .read 0 0 false).fine = 0
      ∧ judge (.read 1 0 1) [0xC5] = .incomplete ∧ ([0xC5] : List Byte) ≠ []
      ∧ ((flying (.read 1 0 1) .read 0 0 false).withFine 1).fine = 1
      ∧ (after (.dataReply [0xC5]) on).fsu.quietAt = 2
      ∧ (after (.badReplyFrame [0xC5]) (flying (.read 1 0 1) .read 0 0 false)).fsu.quietAt = 2
      ∧ (after (.doneReply [0xC5]) ((flying (.read 1 0 1) .read 0 0 false).withFine 1)).fsu.quietAt = 3
      ∧ (after (.dataReply [0xC5]) (after .lineEngineTake (due100 100 100))).fsu.quietAt = 100
      ∧ (after .lineEngineTake (due100 100 100)).fsu.engine = .awaitReply ⟨⟨0, 100, .read, 0, 0⟩, .read 1 0 1, 50, none, false⟩ := by
  decide +kernel

/-- Slot 0 of `flying` with a threshold, and bound to it wellhead point W1 and train D1 with a specification limit. -/
def read0 (t : Threshold) (limit : Int) : State :=
  let s := flying (.read 1 0 1) .read 0 0 false
  alterTrain 0 (fun r => { r with state := .running, enabled := true, binding := some ⟨0, 0⟩, specLimit := limit, hysteresis := 0, breakthrough := 1001 })
    (alterPoint (wellhead 0) (fun p => { p with slot := some 0 })
      (alterSlot 0 (fun sl => { sl with
        settings := { sl.settings with threshold := some t }, firstReading := true, scheduled := some 0 }) s))

/-- OUTSIDE at its upper and at its lower limit and INSIDE at its upper limit and within; the visit scheduled at 0 ends at 0 ms. -/
theorem test_DataReplyAnswersTheVisit_threshold_met :
    awaiting (read0 ⟨0, 1001, -5, .outside⟩ 1002) = some (flight (.read 1 0 1) .read 0 0 false)
      ∧ ([⟨0, 1001, -5, .outside⟩, ⟨0, 9999, 1001, .outside⟩, ⟨0, 1001, -5, .inside⟩, ⟨0, 1002, 1000, .inside⟩] : List Threshold).map
          (fun t => (slotOf (after (.dataReply (sealFrame [1, 0xB1, 1, 3, 233])) (read0 t 1002)) 0).thresholdOn) = [true, true, false, true]
      ∧ (slotOf (after (.dataReply (sealFrame [1, 0xB1, 1, 3, 233])) (read0 ⟨0, 1001, -5, .outside⟩ 1002)) 0).scheduled = some 10000 := by
  decide +kernel

/-- A reading of 1,001 in a slot bound to W1, to cavern C1 by it, and to D1 at its specification limit and its breakthrough level. -/
theorem test_GoodReadingReachesItsReaders_met :
    let s := read0 ⟨0, 1001, -5, .inside⟩ 1001
    heldInReset s = false ∧ awaiting s = some (flight (.read 1 0 1) .read 0 0 false)
      ∧ judge (.read 1 0 1) (sealFrame [1, 0xB1, 1, 3, 233]) = .data [⟨3, 233⟩]
      ∧ pointBoundTo s 0 = some (wellhead 0) ∧ pointBoundTo (flying (.read 1 0 1) .read 0 0 false) 0 = none
      ∧ (pointOf s (wellhead 0)).slot = some 0 ∧ (pointOf s (wellhead 1)).slot ≠ some 0
      ∧ (trainOf s 0).binding = some ⟨0, 0⟩ ∧ (trainOf s 0).state ≠ .off ∧ (trainOf s 0).offSpec = false
      ∧ (trainOf (after (.dataReply (sealFrame [1, 0xB1, 1, 3, 233])) s) 0).offSpec = true
      ∧ (trainOf (after (.dataReply (sealFrame [1, 0xB1, 1, 3, 232])) s) 0).offSpec = false
      ∧ (trainOf s 1).binding = none
      ∧ (pointOf (after (.dataReply (sealFrame [1, 0xB1, 1, 3, 233])) s) (wellhead 0)).forward.baseline = some 1001 := by decide +kernel

/-- M1 on slot 0, read in flight at 600 s after a reading of 1,000 a second before, in a changeover to WITHDRAWING begun at 0. -/
def quieting : State :=
  let s := alterSlot 0 (fun sl => { sl with
    firstReading := false
    settings := { sl.settings with
      wordCount := 4, channels := [⟨0, .u16, false⟩, ⟨1, .u16, false⟩, ⟨2, .u16, false⟩, ⟨3, .s16, false⟩], threshold := none } })
    (flying (.read 1 0 4) .read 0 0 false)
  let s := alterPoint 0 (fun p => { p with
    slot := some 0, weight := 1, readingTime := some 5990, forward := { p.forward with baseline := some 1000 },
    reverse := { p.reverse with baseline := some 0 } }) s
  ((s.withDir { s.dir with
      direction := .changeover ⟨.withdrawing, 0, false⟩, site := { s.dir.site with quietThreshold := 1 } }).withFsu
    { s.fsu with engine := .awaitReply ⟨⟨0, 0, .read, 0, 0⟩, .read 1 0 4, 50, some 600000, false⟩ }).withFine 600000

/-- The state after that reading, `pulses` further. -/
def metered (pulses : Nat) : State :=
  after (.dataReply (sealFrame (bytes [1, 0xB1, 4] ++ ubytes 2 (1000 + pulses) ++ bytes [0, 0, 3, 245, 5, 220]))) quieting

/-- Both counter formats; 28 pulses of 1 mL in 1 s are below a quiet threshold of 1 and end the changeover, and 29, a rate of 279 mL/s, do
not. -/
theorem test_GoodReadingReachesItsReaders_quiet_met :
    awaiting quieting = some ⟨⟨0, 0, .read, 0, 0⟩, .read 1 0 4, 50, some 600000, false⟩
      ∧ (slotOf quieting 0).settings.channels[0]? = some ⟨0, .u16, false⟩ ∧ counterModulus (slotOf quieting 0) 0 = 65536
      ∧ counterModulus { slotOf on 0 with settings := { (slotOf on 0).settings with channels := [⟨0, .u32, false⟩] } } 0 = 4294967296
      ∧ (pointOf (metered 28) 0).forward.rate * 36 / 10000 = 0 ∧ (pointOf (metered 29) 0).forward.rate = 279
      ∧ quietAnswers (metered 28) ≠ quietAnswers quieting ∧ (metered 28).dir.direction = .withdrawing
      ∧ (metered 29).dir.direction = .changeover ⟨.withdrawing, 0, false⟩ := by decide +kernel

/-- Both flag sets: a delta of 28 above a ceiling of 27 is estimated, over 1 s, in the unclocked set and, with the clock running, in the
hour's; at a ceiling of 28 nothing is; a recovered reading rebases. -/
theorem test_GoodReadingReachesItsReaders_flags_met :
    let s (ceiling : Nat) : State := alterPoint 0 (fun p => { p with ceiling := ceiling }) quieting
    let reading := Instr.dataReply (sealFrame (bytes [1, 0xB1, 4] ++ ubytes 2 1028 ++ bytes [0, 0, 3, 245, 5, 220]))
    let t := after reading (s 27)
    let hour := after reading ((s 27).withClock (running 39600).clock)
    let back := after reading (alterSlot 0 (fun sl => { sl with recovered := true }) (s 27))
    awaiting (s 27) = awaiting quieting ∧ clockRunning (s 27) = false ∧ pointBoundTo (s 27) 0 = some 0 ∧ hasReverse 0 = true
      ∧ hasReverse 2 = false ∧ (pointOf (s 27) 0).readingTime = some 5990 ∧ timeBase (s 27) = 6000
      ∧ t.mtu.unclockedFlags = { MeterFlags.clear with estimated := true } ∧ t.mtu.flags = MeterFlags.clear
      ∧ (pointOf t 0).estimatedTenths = 10 ∧ hour.mtu.flags = { MeterFlags.clear with estimated := true }
      ∧ hour.mtu.unclockedFlags = MeterFlags.clear ∧ (after reading (s 28)).mtu.unclockedFlags = MeterFlags.clear
      ∧ (pointOf (after reading (s 28)) 0).estimatedTenths = 0 ∧ back.mtu.unclockedFlags = { MeterFlags.clear with rebased := true } := by
  decide +kernel

/-- A point with a gap and one without; 15 tenths at 7 mL/s are 10 mL, rounded down. -/
theorem test_GapsBookTheStoredRate_met :
    (pointOf gapped 0).gap = some 0 ∧ (pointOf gapped 1).gap = none ∧ hasReverse 0 = true ∧ hasReverse 2 = false
      ∧ (pointOf (bookGap true 0 gapped) 0).forward.hourVolume = 10 ∧ (pointOf (bookGap false 0 gapped) 0).forward.unclocked = 15
      ∧ (pointOf (mergeUnclocked gapped) 0).forward.hourVolume = 15 ∧ (pointOf (mergeUnclocked gapped) 0).estimatedTenths = 15 := by
  decide +kernel

/-- A DATA of one word, a DONE, an ERROR and another station's WRITE are complete frames, each last byte but one of them included. -/
theorem test_DataReplyAnswersTheVisit_frames_met :
    frameBody [1, 0xB1, 1, 3, 233] ∧ frameBody [1, 0xB2, 0x12, 0x34] ∧ frameBody [1, 0xF2, 0x12, 0x34, 7]
      ∧ frameBody [1, 0x32, 0, 0, 0, 0] ∧ answersWith (.read 1 0 1) [1, 0xB1, 1, 3, 233] (.data [⟨3, 233⟩])
      ∧ answersWith (.write 1 0x1234 0) [1, 0xB2, 0x12, 0x34] .done
      ∧ answersWith (.write 1 0x1234 0) [1, 0xF2, 0x12, 0x34, 7] (.error 7)
      ∧ (∀ r, ¬ answersWith (.read 1 0 2) [1, 0xB1, 1, 3, 233] r) ∧ (0xC5 : Byte) ∉ ([0x5C] : List Byte)
      ∧ crcBytes [1, 0xB1, 1, 3, 233] = [0x32, 0x5C] ∧ (0x33 : Byte) ∉ ([0x31, 0x32, 0xB1, 0xB2, 0xF2] : List Byte) := by
  refine ⟨⟨1, 0xB1, [1, 3, 233], rfl, ?_⟩, ⟨1, 0xB2, [0x12, 0x34], rfl, ?_⟩, ⟨1, 0xF2, [0x12, 0x34, 7], rfl, ?_⟩,
    ⟨1, 0x32, [0, 0, 0, 0], rfl, ?_⟩, ⟨[3, 233], [⟨3, 233⟩], rfl, rfl, rfl, rfl⟩, Or.inl ⟨rfl, rfl⟩, Or.inr ⟨7, rfl, rfl⟩, ?_, by decide, by decide +kernel,
    by decide⟩
  · exact Or.inr (Or.inr (Or.inr (Or.inr ⟨rfl, 1, [3, 233], rfl, by decide, by decide, rfl⟩)))
  · exact Or.inr (Or.inr (Or.inl ⟨rfl, rfl⟩))
  · exact Or.inr (Or.inr (Or.inr (Or.inl ⟨rfl, rfl⟩)))
  · exact Or.inr (Or.inl ⟨rfl, rfl⟩)
  · rintro r ⟨data, words, h, -⟩
    simp at h

/-- R17, R207, R208: noise before the frame and bytes after it; a wrong CRC, end mark, address, count, kind; a count of 9; a byte short. -/
theorem test_DataReplyAnswersTheVisit_judge_met :
    judge (.read 1 0 1) ([0x5C] ++ bytes [0xC5, 1, 0xB1, 1, 3, 233, 0x32, 0x5C, 0x5C] ++ [0xC5]) = .data [⟨3, 233⟩]
      ∧ judge (.read 1 0 1) (bytes [0xC5, 1, 0xB1, 1, 3, 233, 0x32, 0x5D, 0x5C]) = .bad
      ∧ judge (.read 1 0 1) (bytes [0xC5, 1, 0xB1, 1, 3, 233, 0x32, 0x5C, 0x5D]) = .bad
      ∧ judge (.read 2 0 1) (bytes [0xC5, 1, 0xB1, 1, 3, 233, 0x32, 0x5C, 0x5C]) = .bad
      ∧ judge (.write 1 0x1235 0) (sealFrame [1, 0xB2, 0x12, 0x34]) = .bad ∧ judge (.read 1 0 1) (bytes [0xC5, 1, 0xB1, 9]) = .bad
      ∧ judge (.read 1 0 1) (bytes [0xC5, 1, 0xB1, 1, 3, 233, 0x32, 0x5C]) = .incomplete := by decide +kernel

/-- R32: the first and last words of a block in the four formats. -/
theorem test_DataReplyAnswersTheVisit_channels_met :
    ([⟨3, 232⟩, ⟨255, 56⟩] : List WordBytes)[0]? = some ⟨3, 232⟩ ∧ ([⟨3, 232⟩, ⟨255, 56⟩] : List WordBytes)[0 + 1]? = some ⟨255, 56⟩
      ∧ wordFormed false 3 232 = 1000 ∧ wordFormed true 3 232 = 59395 ∧ decodeChannel ⟨1, .u8, false⟩ [⟨3, 232⟩, ⟨255, 56⟩] = 56
      ∧ decodeChannel ⟨1, .u8, true⟩ [⟨3, 232⟩, ⟨255, 56⟩] = 255
      ∧ decodeChannel ⟨0, .s16, false⟩ [⟨127, 255⟩] = 32767 ∧ decodeChannel ⟨0, .s16, false⟩ [⟨128, 0⟩] = -32768 := by decide +kernel

/-- A word of 1,001 is ready in bit 0 and one of 1,000 is not; check 4 of 5 is the last that tries again, check 5 fails the visit. -/
theorem test_DataReplyAnswersTheVisit_met :
    heldInReset (flying (.read 1 0 1) .read 0 0 true) = false
      ∧ awaiting (flying (.read 1 0 1) .read 0 0 true) = some (flight (.read 1 0 1) .read 0 0 true)
      ∧ awaiting (flying (.read 1 0 1) .read 0 0 false) = some (flight (.read 1 0 1) .read 0 0 false)
      ∧ awaiting (flying (.read 1 0 1) .readyCheck 0 3 false) = some (flight (.read 1 0 1) .readyCheck 0 3 false)
      ∧ judge (.read 1 0 1) (sealFrame [1, 0xB1, 1, 3, 233]) = .data [⟨3, 233⟩]
      ∧ judge (.read 1 0 1) (sealFrame [1, 0xB1, 1, 3, 232]) = .data [⟨3, 232⟩]
      ∧ (wordAt [⟨3, 233⟩] false 0).testBit (slotOf on 0).settings.readyBit = true
      ∧ (wordAt [⟨3, 232⟩] false 0).testBit (slotOf on 0).settings.readyBit = false
      ∧ 3 + 1 < (slotOf on 0).settings.readyLimit ∧ (slotOf on 0).settings.readyLimit ≤ 4 + 1
      ∧ 1 ≤ (slotOf (flying (.read 1 0 1) .read 0 0 false) 0).settings.period := by decide +kernel

theorem test_ScriptRepliesMoveTheVisit_met :
    heldInReset (flying (.write 1 7 9) (.initWrite 0) 0 0 false) = false
      ∧ awaiting (flying (.write 1 7 9) (.initWrite 0) 0 0 false) = some (flight (.write 1 7 9) (.initWrite 0) 0 0 false)
      ∧ awaiting (flying (.write 1 7 9) (.initWrite 1) 0 0 true) = some (flight (.write 1 7 9) (.initWrite 1) 0 0 true)
      ∧ judge (.write 1 7 9) (sealFrame [1, 0xB2, 0, 7]) = .done ∧ judge (.write 1 7 9) (sealFrame [1, 0xF2, 0, 7, 3]) = .error 3
      ∧ 0 + 1 < (slotOf (flying (.write 1 7 9) (.initWrite 0) 0 0 false) 0).settings.scriptCount
      ∧ (slotOf (flying (.write 1 7 9) (.initWrite 0) 0 0 false) 0).settings.scriptCount ≤ 1 + 1 := by decide +kernel

/-- With one retry, tries 0 tries again and tries 1 fails the visit; the window expires at its last instant. -/
theorem test_MissedTransactionIsRetriedOrFails_met :
    heldInReset (flying (.read 1 0 1) .read 0 0 false) = false
      ∧ awaiting (flying (.read 1 0 1) .read 0 0 false) = some (flight (.read 1 0 1) .read 0 0 false)
      ∧ expired (flying (.read 1 0 1) .read 1 0 false) = some (flight (.read 1 0 1) .read 1 0 false)
      ∧ expired (flying (.read 1 0 1) .read 1 0 true) = some (flight (.read 1 0 1) .read 1 0 true)
      ∧ judge (.read 1 0 1) [0xC5, 1, 0x00] = .bad ∧ judge (.read 1 0 1) (sealFrame [2, 0xB1, 1, 3, 233]) = .bad
      ∧ 0 < (slotOf (flying (.read 1 0 1) .read 0 0 false) 0).settings.retries
      ∧ (slotOf (flying (.read 1 0 1) .read 1 0 false) 0).settings.retries ≤ 1
      ∧ 1 ≤ (slotOf (flying (.read 1 0 1) .read 0 0 false) 0).settings.period := by decide +kernel

/-! ### Witnesses: metering -/

/-- The fields of a SET-POINT. -/
def pointFields (k : Nat) (slot : List Byte) (weight ceiling capacity : Nat) : List Byte :=
  ubytes 1 k ++ slot ++ ubytes 2 weight ++ ubytes 2 ceiling ++ ubytes 4 capacity

/-- Slot numbers 16 and 15; a capacity above 100,000,000, one on M3, a pulse weight of 0; a slot that does not suit, the binding kept, a new
binding. -/
theorem test_SetPointStoresAndRebinds_met :
    heldInReset on = false ∧ fits 0x30 (pointFields 1 [1, 0] 1 1 100000000) = true
      ∧ ordinal? 7 (byteAt (pointFields 1 [1, 0] 1 1 100000000) 0) = some 0
      ∧ fits 0x30 (pointFields 1 [1, 16] 1 1 0) = true ∧ mark (pointFields 1 [1, 16] 1 1 0) 1 = some true
      ∧ 15 < byteAt (pointFields 1 [1, 16] 1 1 0) 2 ∧ readSlotNumber (pointFields 1 [1, 15] 1 1 0) 1 = some (some 15)
      ∧ readSlotNumber (pointFields 1 [1, 0] 1 1 100000000) 1 = some (some 0)
      ∧ readSlotNumber (pointFields 1 [0, 0] 1 1 0) 1 = some none
      ∧ 100000000 < num (pointFields 1 [1, 0] 1 1 100000001) 7 4 ∧ num (pointFields 1 [1, 0] 0 1 0) 3 2 = 0
      ∧ (1 < (2 : Fin 7).val ∧ num (pointFields 3 [1, 0] 1 1 1) 7 4 ≠ 0) ∧ decide (pointMayTake (slot0 .init) 0 (some 0)) = false
      ∧ decide (pointMayTake on 0 none) = true ∧ (pointOf on 0).slot = none ∧ decide (pointMayTake on 0 (some 0)) = true
      ∧ (pointOf on 0).slot ≠ some 0 := by
  decide +kernel

/-- W1 on slot 0, ACTIVE, with a pressure of 19,000 above a Pmax of the same, C1 HIGH, and a changeover to INJECTING begun at 0 whose
minimum has passed, M1 on slot 1 without a quiet reading. -/
def rebinding : State :=
  let s := alterSlot 0 (fun sl => { sl with
    state := .active
    settings := { sl.settings with wordCount := 4, channels := [⟨0, .u16, false⟩, ⟨1, .u16, false⟩, ⟨2, .u16, false⟩, ⟨3, .s16, false⟩] }
    channels := put sl.channels 2 ⟨19000, .good, some 0⟩ }) ((running 39600).withFine 600000)
  let s := s.withDir { s.dir with
    direction := .changeover ⟨.injecting, 0, false⟩
    caverns := put s.dir.caverns 0 { cavernOf s 0 with pmin := 6000, pmax := 19000, hysteresis := 300, band := .high } }
  alterPoint 0 (fun p => { p with slot := some 1 }) (alterPoint (wellhead 0) (fun p => { p with slot := some 0 }) s)

/-- Unbinding W1 leaves C1 NORMAL, and a rebinding finds it HIGH; a slot that serves another point; M1 unbound ends the changeover. -/
theorem test_SetPointStoresAndRebinds_readers_met :
    let unbound := after (.setPoint .ops (pointFields 4 [0, 0] 1 1 0)) rebinding
    heldInReset rebinding = false ∧ fits 0x30 (pointFields 4 [0, 0] 1 1 0) = true ∧ wellhead 0 = 3
      ∧ ordinal? 7 (byteAt (pointFields 4 [0, 0] 1 1 0) 0) = some 3 ∧ decide (pointMayTake rebinding 3 none) = true
      ∧ (pointOf rebinding 3).slot ≠ none ∧ (cavernPressure rebinding 0).quality = .good ∧ (cavernOf unbound 0).band = .normal
      ∧ decide (pointMayTake unbound 3 (some 0)) = true ∧ decide (suitsPoint 3 (slotOf unbound 0)) = true
      ∧ (cavernOf (after (.setPoint .ops (pointFields 4 [1, 0] 1 1 0)) unbound) 0).band = .high
      ∧ conditionActive (after (.setPoint .ops (pointFields 4 [1, 0] 1 1 0)) unbound) (condBand 0) = true
      ∧ decide (pointMayTake rebinding 3 (some 1)) = false ∧ wellhead 1 ≠ 3
      ∧ quietAnswers (after (.setPoint .ops (pointFields 1 [0, 0] 1 1 0)) rebinding) ≠ quietAnswers rebinding
      ∧ changeoverComplete (after (.setPoint .ops (pointFields 1 [0, 0] 1 1 0)) rebinding) ⟨.injecting, 0, false⟩ = true
      ∧ (after (.setPoint .ops (pointFields 1 [0, 0] 1 1 0)) rebinding).dir.direction = .injecting
      ∧ unbound.dir.direction = .changeover ⟨.injecting, 0, false⟩ := by decide +kernel

/-- Slot 0 of `rebinding`, read by W1 and by D1, PARKED with a GOOD dew point: disabled, and with a visit of it failed. -/
theorem test_EnableAndDisableSlotStartAndEndItsVisits_readers_met :
    let s := alterTrain 0 (fun r => { r with state := .parked, binding := some ⟨0, 3⟩ }) rebinding
    let t := after (.disableSlot .ops [0]) s
    heldInReset s = false ∧ (slotOf s 0).state ≠ .disabled ∧ (∃ b ∈ (trainOf s 0).binding, b.slot = 0) ∧ ¬ (∃ b ∈ (trainOf s 1).binding, b.slot = 0)
      ∧ (pointOf s (wellhead 0)).slot = some 0 ∧ (cavernPressure s 0).quality = .good ∧ (cavernPressure t 0).quality = .noReading
      ∧ (cavernOf t 0).band = .normal ∧ (trainOf s 0).offSpec = false ∧ (trainOf t 0).offSpec = true
      ∧ conditionActive t (condOffSpec 0) = true ∧ (trainOf (after (.disableSlot .ops [0]) rebinding) 0).offSpec = false := by decide +kernel

/-- The failed visit of a slot read by W1 leaves the pressure HELD and the band evaluated; M1's leaves its gas unquiet. -/
theorem test_MissedTransactionIsRetriedOrFails_readers_met :
    let s := rebinding.withFsu { rebinding.fsu with engine := .awaitReply (flight (.read 1 0 4) .read 1 0 false) }
    let t := after .replyWindowExpiry s
    expired s = some (flight (.read 1 0 4) .read 1 0 false) ∧ (slotOf s 0).settings.retries ≤ 1
      ∧ (cavernPressure s 0).quality = .good ∧ (cavernPressure t 0).quality = .held ∧ (cavernOf t 0).band = .high
      ∧ conditionActive t (condBand 0) = true ∧ quietAnswers t = quietAnswers s
      ∧ t.dir.direction = .changeover ⟨.injecting, 0, false⟩ := by decide +kernel

/-- Coefficients of 1,023 and 1,024; CV defaults of 8,000, 7,999, 13,500 and 13,501; channels 3 and 4; a source that does not suit. -/
theorem test_BetaAndCvSettingsAreStored_met :
    heldInReset on = false ∧ fits 0x31 (ubytes 2 1023 ++ ubytes 2 0 ++ ubytes 2 0 ++ ubytes 2 1023) = true
      ∧ (∀ i : Fin 4, num (ubytes 2 1023 ++ ubytes 2 0 ++ ubytes 2 0 ++ ubytes 2 1023) (2 * i.val) 2 ≤ 1023)
      ∧ 1023 < num (ubytes 2 0 ++ ubytes 2 0 ++ ubytes 2 0 ++ ubytes 2 1024) 6 2 ∧ fits 0x32 (ubytes 2 8000 ++ [1, 0, 3]) = true
      ∧ num (ubytes 2 8000 ++ [1, 0, 3]) 0 2 = 8000 ∧ num (ubytes 2 7999 ++ [1, 0, 3]) 0 2 = 7999
      ∧ num (ubytes 2 13500 ++ [1, 0, 3]) 0 2 = 13500 ∧ num (ubytes 2 13501 ++ [1, 0, 3]) 0 2 = 13501
      ∧ readBinding (ubytes 2 8000 ++ [1, 0, 3]) 2 = some (some ⟨0, 3⟩) ∧ readBinding (ubytes 2 8000 ++ [1, 0, 4]) 2 = some (some ⟨0, 4⟩)
      ∧ mark (ubytes 2 8000 ++ [1, 16, 3]) 2 = some true ∧ 15 < byteAt (ubytes 2 8000 ++ [1, 16, 3]) 3
      ∧ fits 0x32 (ubytes 2 8000 ++ [1, 16, 3]) = true ∧ mayBind on .u16 (some ⟨0, 3⟩)
      ∧ ¬ mayBind (slot0 .init) .u16 (some ⟨0, 3⟩) := by decide +kernel

/-- The first clause has no hypothesis. No baseline; a delta at the ceiling, across the end of the counter; a delta one above it. -/
theorem test_GoodReadingBooksItsDelta_met :
    Direction.initial.baseline = none ∧ (⟨1013, 1500, true, 100, true⟩ : Reading).recovered = true
      ∧ (⟨1013, 1500, false, 100, true⟩ : Reading).recovered = false
      ∧ { Direction.initial with baseline := some 65530 }.baseline = some 65530
      ∧ counterDelta 65536 65530 4 ≤ { Point.initial with ceiling := 10 }.ceiling
      ∧ { Point.initial with ceiling := 10 }.ceiling < counterDelta 65536 65530 5 ∧ counterDelta 65536 65535 0 = 1
      ∧ counterDelta 65536 0 65535 = 65535 ∧ counterDelta 4294967296 65535 0 = 4294901761 ∧ counterDelta 4294967296 4294967295 0 = 1 := by decide +kernel

/-! ### Witnesses: conditions -/

/-- No entry and 9; a condition of 56; a level from Commercial; levels 8 and 7 from Operations; the only entry is the last that gives its
level. -/
theorem test_AckConditionsClearsAndLevels_met :
    heldInReset on = false ∧ fits 0x40 [0] = true ∧ byteAt [0] 0 = 0 ∧ fits 0x40 (9 :: List.replicate 27 0) = true
      ∧ 8 < byteAt (9 :: List.replicate 27 0) 0 ∧ fits 0x40 (8 :: List.replicate 24 0) = true ∧ byteAt (8 :: List.replicate 24 0) 0 ≤ 8
      ∧ fits 0x40 [1, 56, 0, 0] = true ∧ 0 < byteAt [1, 56, 0, 0] 0 ∧ 55 < byteAt [1, 56, 0, 0] (1 + 3 * 0)
      ∧ fits 0x40 [1, 55, 1, 7] = true ∧ 1 ≤ byteAt [1, 55, 1, 7] 0 ∧ readAckEntries [1, 55, 1, 7] 1 1 = some [⟨55, some 7⟩]
      ∧ readAckEntries [1, 55, 1, 8] 1 1 = some [⟨55, some 8⟩] ∧ readAckEntries [1, 53, 0, 0] 1 1 = some [⟨53, none⟩]
      ∧ ([⟨55, some 7⟩] : List AckEntry) = [] ++ ⟨55, some 7⟩ :: [] := by decide +kernel

/-- UNIT U1 rises with level 1 and with level 0, and falls with its pendings kept. -/
theorem test_AckConditionsClearsAndLevels_rise_met :
    let levelled (l : Nat) : State := (unit0 fun r => { r with state := .ready }).withCdt
      { on.cdt with conditions := alter on.cdt.conditions (condUnit 0) fun c => { c with level := l } }
    let risen := after (.feedbackChange 0 true) (levelled 1)
    let fallen := after (.resetUnit .ops [1]) (after (.feedbackChange 0 false) risen)
    conditionActive (levelled 1) (condUnit 0) = false ∧ conditionActive risen (condUnit 0) = true
      ∧ ((nth risen.cdt.conditions (condUnit 0)).pendingOps && (nth risen.cdt.conditions (condUnit 0)).pendingCom) = true
      ∧ nth (after (.feedbackChange 0 true) (levelled 0)).cdt.conditions (condUnit 0) = ⟨0, true, false, false⟩
      ∧ nth fallen.cdt.conditions (condUnit 0) = ⟨1, false, true, true⟩
      ∧ exec (.feedbackChange 0 true) (levelled 1) = .next risen ∧ answered (.feedbackChange 0 false) risen = true :=
  ⟨by decide +kernel, by decide +kernel, by decide +kernel, by decide +kernel, by decide +kernel, exec_after (by decide +kernel), by decide +kernel⟩

theorem test_DerateTableAlertSettingsAndEventFlags_met :
    heldInReset on = false ∧ fits 0x41 (List.replicate 14 100) = true ∧ byteAt (List.replicate 14 100) 0 ≤ 100
      ∧ (∀ j, j < 12 → byteAt (List.replicate 14 100) (j + 2) ≤ byteAt (List.replicate 14 100) j)
      ∧ 100 < byteAt (101 :: List.replicate 13 100) 0
      ∧ byteAt (List.replicate 13 50 ++ [51]) 11 < byteAt (List.replicate 13 50 ++ [51]) (11 + 2)
      ∧ 1 ≤ (1 : Byte).toNat ∧ (7 : Byte).toNat ≤ 7 ∧ (0 : Byte).toNat = 0 ∧ 7 < (8 : Byte).toNat := by decide +kernel

/-! ### Witnesses: caverns and direction -/

/-- The fields of a SET-CAVERN of C4. -/
def cavernFields (pmin pmax hysteresis : Nat) : List Byte :=
  [4, 0] ++ ubytes 2 pmin ++ ubytes 2 pmax ++ ubytes 2 hysteresis ++ ubytes 4 100000000 ++ ubytes 4 0

/-- The fields of a SET-SITE. -/
def siteFields (quiet minimum limit : Nat) : List Byte :=
  ubytes 4 100000000 ++ ubytes 4 0 ++ ubytes 4 quiet ++ ubytes 2 minimum ++ ubytes 2 limit ++ ubytes 4 1 ++ ubytes 4 0 ++ ubytes 4 0

/-- A changeover to INJECTING that began at 0 and has lasted `seconds`. -/
def changing (seconds : Nat) : State :=
  (on.withDir { on.dir with direction := .changeover ⟨.injecting, 0, false⟩ }).withFine (seconds * 1000)

/-- The nine lines of R82 at their limits, for Pmin 6,000, Pmax 19,000 and hysteresis 300, and a NONE pressure. -/
theorem test_CavernRequestsStoreAndBand_lines_met :
    let next (b : Band) (q : Quality) (p : Int) :=
      nextBand { Cavern.initial with pmin := 6000, pmax := 19000, hysteresis := 300, band := b } ⟨p, q, some 0⟩
    next .normal .held 19000 = .high ∧ next .normal .good 6000 = .low ∧ next .normal .good 6001 = .normal
      ∧ next .normal .good 18999 = .normal ∧ next .high .good 6000 = .low ∧ next .high .good 18700 = .normal
      ∧ next .high .good 18701 = .high ∧ next .low .good 19000 = .high ∧ next .low .good 6300 = .normal
      ∧ next .low .held 6299 = .low ∧ next .low .noReading 0 = .normal := by decide +kernel

theorem test_CavernRequestsStoreAndBand_met :
    heldInReset on = false ∧ fits 0x50 (cavernFields 0 25000 12500) = true ∧ ordinal? 4 (byteAt (cavernFields 0 25000 12500) 0) = some 3
      ∧ service? (byteAt (cavernFields 0 25000 12500) 1) = some true
      ∧ cavernInRange (num (cavernFields 0 25000 12500) 2 2) (num (cavernFields 0 25000 12500) 4 2)
          (num (cavernFields 0 25000 12500) 6 2) (num (cavernFields 0 25000 12500) 8 4) (num (cavernFields 0 25000 12500) 12 4)
      ∧ ¬ cavernInRange (num (cavernFields 1 25000 12500) 2 2) (num (cavernFields 1 25000 12500) 4 2)
          (num (cavernFields 1 25000 12500) 6 2) (num (cavernFields 1 25000 12500) 8 4) (num (cavernFields 1 25000 12500) 12 4)
      ∧ ¬ cavernInRange 5 5 0 0 0
      ∧ 4000000001 < 2 ^ 32 ∧ fits 0x51 [5, 0, 0, 0, 0] = true ∧ 4 < byteAt [5, 0, 0, 0, 0] 0 ∧ byteAt [0, 0, 0, 0, 0] 0 = 0 := by
  decide +kernel

/-- A minimum at the limit and one above it; STANDBY; a changeover whose new minimum lets it complete, and one whose new limit has passed.
-/
theorem test_SiteAndDutySettingsAreStored_met :
    heldInReset on = false ∧ fits 0x52 (siteFields 1 60 60) = true ∧ siteInRange (readSite (siteFields 1 60 60))
      ∧ ¬ siteInRange (readSite (siteFields 1 61 60)) ∧ ¬ siteInRange (readSite (siteFields 0 60 60))
      ∧ siteInRange (readSite (siteFields 500 0 60))
      ∧ (changing 0).dir.direction = .changeover ⟨.injecting, 0, false⟩
      ∧ (changing 0).dir.site.changeoverMinimum ≠ num (siteFields 500 0 60) 12 2
      ∧ changeoverComplete ((changing 0).withDir { (changing 0).dir with site := readSite (siteFields 500 0 60) }) ⟨.injecting, 0, false⟩ = true
      ∧ num (siteFields 500 60 60) 14 2 < (changing 60).dir.site.changeoverLimit
      ∧ 0 + num (siteFields 500 60 60) 14 2 * 10 ≤ timeBase (changing 60) := by decide +kernel

/-- The limit lowered to the 60 s spent, and with 1 s less spent; the limit of a changeover kept; the minimum changed short of its tests. -/
theorem test_SiteAndDutySettingsAreStored_kept_met :
    let overran := { (⟨.injecting, 0, false⟩ : Changeover) with overrun := true }
    siteInRange (readSite (siteFields 500 60 1800)) ∧ siteInRange (readSite (siteFields 500 60 60))
      ∧ (changing 60).dir.site.changeoverLimit = 1800 ∧ num (siteFields 500 60 60) 14 2 < (changing 60).dir.site.changeoverLimit
      ∧ (after (.setSite .ops (siteFields 500 61 61)) (changing 60)).dir.direction = .changeover ⟨.injecting, 0, false⟩
      ∧ (after (.setSite .ops (siteFields 500 60 1800)) (changing 59)).dir.direction = .changeover ⟨.injecting, 0, false⟩
      ∧ changeoverComplete ((changing 59).withDir { (changing 59).dir with site := readSite (siteFields 500 60 1800) }) ⟨.injecting, 0, false⟩
          = false
      ∧ (after (.setSite .ops (siteFields 500 600 600)) (changing 600)).dir.direction = .changeover overran
      ∧ conditionActive (after (.setSite .ops (siteFields 500 600 600)) (changing 600)) condOverrun = true
      ∧ (∀ u, (unitOf (after (.setSite .ops (siteFields 500 600 600)) (changing 600)) u).state = (unitOf (changing 600) u).state) := by
  decide +kernel

theorem test_SiteAndDutySettingsAreStored_run_met : RunOnlyInjecting on ∧ RunOnlyInjecting (changing 600) :=
  ⟨fun _ => by decide +kernel, fun _ => by decide +kernel⟩

theorem test_SiteAndDutySettingsAreStored_standby_met : ∀ c, on.dir.direction ≠ .changeover c := nofun

/-- At the minimum and one second before it; at the limit and one second before it; an overrun raised already. -/
theorem test_ChangeoverCompletesOrOverruns_met :
    heldInReset (changing 600) = false ∧ (changing 600).dir.direction = .changeover ⟨.injecting, 0, false⟩
      ∧ minimumPassed (changing 600) ⟨.injecting, 0, false⟩ = true ∧ boundaryQuiet (changing 600) (Flow.other .injecting) = true
      ∧ unitsClear (changing 600) ⟨.injecting, 0, false⟩ = true ∧ minimumPassed (changing 599) ⟨.injecting, 0, false⟩ = false
      ∧ 0 + (changing 1800).dir.site.changeoverLimit * 10 ≤ timeBase (changing 1800)
      ∧ timeBase (changing 1799) < 0 + (changing 1799).dir.site.changeoverLimit * 10 ∧ on.dir.direction = .standby := by decide +kernel

/-- Each test of R90 on both sides: the minimum; M1 at a rate just below and just above the threshold, with a HELD pressure, and unbound; a
unit STARTING under either target. -/
theorem test_ChangeoverCompletesOrOverruns_tests_met :
    let started := unit0 fun r => { r with state := .starting }
    minimumPassed (changing 600) ⟨.injecting, 0, false⟩ = true ∧ minimumPassed (changing 599) ⟨.injecting, 0, false⟩ = false
      ∧ boundaryQuiet (metered 28) .injecting = true ∧ boundaryQuiet (metered 29) .injecting = false
      ∧ (pointOf (metered 28) 0).slot = some 0 ∧ (pointOf (metered 28) 1).slot = none ∧ boundaryQuiet on .withdrawing = true
      ∧ boundaryQuiet (alterSlot 0 (fun sl => { sl with channels := alter sl.channels 2 Channel.hold }) (metered 28)) .injecting = false
      ∧ boundaryQuiet (metered 28) .withdrawing = true
      ∧ unitsClear started ⟨.injecting, 0, false⟩ = true ∧ unitsClear started ⟨.withdrawing, 0, false⟩ = false
      ∧ unitsClear on ⟨.withdrawing, 0, false⟩ = true := by decide +kernel

/-- A completion into INJECTING starts U1 for an open hour of +1, and one into WITHDRAWING resumes D1 and leaves the units. -/
theorem test_ChangeoverCompletesOrOverruns_effects_met :
    let s := alterHour 35 (fun c => { c with site := { c.site with firmed := true, net := 1 } })
      ((changing 600).withClock (running 39600).clock)
    let s := alterUnit 0 (fun r => { r with state := .ready }) s
    let w := (train0 .time fun t => { t with enabled := true, state := .parked }).withFine 600000
    let w := w.withDir { w.dir with direction := .changeover ⟨.withdrawing, 0, false⟩ }
    s.dir.direction = .changeover ⟨.injecting, 0, false⟩ ∧ changeoverComplete s ⟨.injecting, 0, false⟩ = true
      ∧ (unitOf (after .changeoverMinimumExpiry s) 0).state = .starting ∧ changeoverComplete w ⟨.withdrawing, 0, false⟩ = true
      ∧ (trainOf (after .changeoverMinimumExpiry w) 0).state = .running ∧ (after .changeoverMinimumExpiry w).cpd = w.cpd
      ∧ (trainOf w 0).standby = false
      ∧ (after .changeoverMinimumExpiry (alterTrain 0 (fun t => { t with standby := true }) w)).dsq
          = (alterTrain 0 (fun t => { t with standby := true }) w).dsq := by decide +kernel

/-! ### Witnesses: compressors -/

theorem test_SiteAndDutySettingsAreStored_duty_met :
    heldInReset on = false ∧ fits 0x60 (bytes [4] ++ ubytes 2 3600 ++ ubytes 2 600 ++ ubytes 2 10 ++ bytes [2]) = true
      ∧ dutyInRange (readDuty (bytes [4] ++ ubytes 2 3600 ++ ubytes 2 600 ++ ubytes 2 10 ++ bytes [2]))
      ∧ ¬ dutyInRange (readDuty (bytes [5] ++ ubytes 2 3600 ++ ubytes 2 600 ++ ubytes 2 10 ++ bytes [2]))
      ∧ ¬ dutyInRange (readDuty (bytes [4] ++ ubytes 2 59 ++ ubytes 2 600 ++ ubytes 2 10 ++ bytes [2])) := by decide +kernel

theorem test_UnitRequestsActOnTheUnitsState_met :
    (0 : Byte).toNat = 0 ∧ 4 < (5 : Byte).toNat ∧ heldInReset (unit0 fun r => { r with state := .faulted, cause := .trip }) = false
      ∧ (unitOf (unit0 fun r => { r with state := .faulted, cause := .trip }) 0).state = .faulted ∧ (unitOf on 0).state = .out
      ∧ (unitOf (unit0 fun r => { r with state := .running, feedback := true }) 0).feedback = true
      ∧ (unitOf (unit0 fun r => { r with state := .starting }) 0).state = .starting
      ∧ (unitOf (unit0 fun r => { r with state := .stopping .cooldown }) 0).state = .stopping .cooldown := by decide +kernel

/-- States in which units run only while the site injects: U1 RUNNING in INJECTING, and U1 READY in a changeover at its minimum, which its
OUT_OF_SERVICE completes. -/
theorem test_UnitRequestsActOnTheUnitsState_duty_met :
    let runs := (unit0 fun r => { r with state := .running, feedback := true }).withDir { on.dir with direction := .injecting }
    let turns := alterUnit 0 (fun r => { r with state := .ready }) (changing 600)
    runs.dir.direction = .injecting ∧ (unitOf (after (.setUnit .ops [1, 1]) runs) 0).state = .stopping .out
      ∧ turns.dir.direction = .changeover ⟨.injecting, 0, false⟩
      ∧ (∀ u, (unitOf turns u).state ≠ .starting ∧ (unitOf turns u).state ≠ .running)
      ∧ (after (.setUnit .ops [1, 1]) turns).dir.direction = .injecting := by decide +kernel

theorem test_UnitRequestsActOnTheUnitsState_run_met :
    RunOnlyInjecting ((unit0 fun r => { r with state := .running, feedback := true }).withDir { on.dir with direction := .injecting })
      ∧ RunOnlyInjecting on :=
  ⟨fun h => absurd rfl h, fun _ => by decide +kernel⟩

theorem test_FeedbackChangeActsOnTheUnitsState_met :
    heldInReset (unit0 fun r => { r with state := .starting }) = false ∧ (unitOf on 0).feedback = false ∧ (unitOf on 0).state = .out
      ∧ (unitOf (unit0 fun r => { r with state := .starting }) 0).state = .starting
      ∧ activeUnits (unit0 fun r => { r with state := .starting }).cpd = 1
      ∧ (unitOf (unit0 fun r => { r with state := .running, feedback := true }) 0).state = .running
      ∧ (unitOf (unit0 fun r => { r with state := .running, feedback := true }) 0).feedback = true
      ∧ (unitOf (unit0 fun r => { r with state := .stopping .out, feedback := true }) 0).state = .stopping .out
      ∧ (unitOf (unit0 fun r => { r with state := .cooldown, cutStart := some 0 }) 0).cutStart = some on.fine
      ∧ (unitOf ((unit0 fun r => { r with state := .cooldown, cutStart := some 0 }).withFine 1) 0).cutStart
          ≠ some ((unit0 fun r => { r with state := .cooldown, cutStart := some 0 }).withFine 1).fine := by decide +kernel

/-- R108, last paragraph: the site leaves INJECTING as U1 is STARTING, and the feedback rises at that instant and 1 ms after it. -/
theorem test_feedback_rises_as_the_start_is_cut :
    let s := changeDirection .standby ((unit0 fun r => { r with state := .starting }).withDir { on.dir with direction := .injecting })
    (unitOf s 0).state = .cooldown ∧ (unitOf (after (.feedbackChange 0 true) s) 0).state = .stopping .cooldown
      ∧ (unitOf (after (.feedbackChange 0 true) s) 0).feedback = true
      ∧ (unitOf (after (.feedbackChange 0 true) (s.withFine 1)) 0).cause = .unexpectedRun := by decide +kernel

/-- Equal run seconds: U1 starts and U2 stops; an INJECTING site without demand that leaves INJECTING; one that enters it. -/
theorem test_UnitsAreChosenStartedAndStopped_met :
    let ready := alterUnit 1 (fun r => { r with state := .ready }) (unit0 fun r => { r with state := .ready })
    let runs := (alterUnit 1 (fun r => { r with state := .running }) (unit0 fun r => { r with state := .running, feedback := true })).withDir
      { on.dir with direction := .injecting }
    let demands := alterHour 35 (fun c => { c with site := { c.site with firmed := true, net := 1 } })
      (((running 39600).withCpd ready.cpd).withDir { on.dir with direction := .injecting })
    startChoice ready.cpd = some 0 ∧ stopChoice runs.cpd = some 1 ∧ activeUnits demands.cpd < demandOf demands
      ∧ (∀ v, (unitOf demands v).state ≠ .starting) ∧ demandOf runs < activeUnits runs.cpd ∧ activeUnits on.cpd = demandOf on
      ∧ runs.dir.direction = .injecting ∧ SiteDirection.standby ≠ .injecting ∧ on.dir.direction ≠ .injecting
      ∧ (unitOf (changeDirection .standby runs) 0).state = .stopping .cooldown
      ∧ (unitOf (changeDirection .standby runs) 1).state = .cooldown
      ∧ (unitOf (evaluate demands) 0).state = .starting := by decide +kernel

/-- Demand 1 and three RUNNING units of 5, 9 and 5 run seconds: U2 and U3 stop, U1 runs on. -/
theorem test_UnitsAreChosenStartedAndStopped_stops_met :
    let runner (n : Nat) (r : UnitRecord) : UnitRecord := { r with state := .running, feedback := true, runSeconds := n }
    let s := alterHour 35 (fun c => { c with site := { c.site with firmed := true, net := 1 } })
      (((running 39600).withCpd (alterUnit 2 (runner 5) (alterUnit 1 (runner 9) (unit0 (runner 5)))).cpd).withDir
        { on.dir with direction := .injecting })
    demandOf s = 1 ∧ activeUnits s.cpd = 3 ∧ (unitOf (evaluate s) 0).state = .running ∧ unitOf (evaluate s) 0 = unitOf s 0
      ∧ (unitOf (evaluate s) 1).state = .stopping .cooldown ∧ (unitOf (evaluate s) 2).state = .stopping .cooldown
      ∧ (unitOf s 0).runSeconds = (unitOf s 2).runSeconds := by decide +kernel

/-- A starting unit within the demand of an hour of +1,000,000 kWh, outside a changeover. -/
theorem test_FeedbackChangeActsOnTheUnitsState_demand_met :
    let s := alterHour 35 (fun c => { c with site := { c.site with firmed := true, net := 1000000 } })
      (((running 39600).withCpd (unit0 fun r => { r with state := .starting }).cpd).withDir { on.dir with direction := .injecting })
    (unitOf s 0).state = .starting ∧ (unitOf s 0).feedback = false ∧ activeUnits s.cpd ≤ demandOf s := by decide +kernel

theorem test_FeedbackChangeActsOnTheUnitsState_run_met :
    RunOnlyInjecting ((unit0 fun r => { r with state := .starting }).withDir { on.dir with direction := .injecting }) :=
  fun h => absurd rfl h

theorem test_UnitTimersExpire_run_met :
    RunOnlyInjecting ((unit0 fun r => { r with state := .starting, deadline := some 0 }).withDir { on.dir with direction := .injecting }) :=
  fun h => absurd rfl h

/-- At the deadline and one tenth before it; attempts at the retries and one above; 3,600 s after the oldest start and one tenth less. -/
theorem test_UnitTimersExpire_met :
    let s := (unit0 fun r => { r with state := .starting, deadline := some 36000, attempts := 1, startList := [0, 5] }).withFine 3600000
    heldInReset s = false ∧ (unitOf s 0).deadline = some 36000 ∧ 36000 ≤ timeBase s ∧ (unitOf s 0).state = .starting
      ∧ (unitOf s 0).attempts ≤ s.cpd.settings.startRetries ∧ s.cpd.settings.startRetries < 2 ∧ (unitOf s 0).startList = 0 :: [5]
      ∧ 0 + 36000 ≤ timeBase s ∧ timeBase (s.withFine 3599999) < 36000 ∧ timeBase (s.withFine 3599999) < 0 + 36000
      ∧ (unitOf on 0).deadline = none ∧ (unitOf on 0).startList = [] := by decide +kernel

/-! ### Witnesses: dryers -/

theorem test_BankRequestsWriteAndSelect_met :
    heldInReset on = false ∧ fits 0x70 (ubytes 1 2 ++ ubytes 1 23 ++ ubytes 1 2 ++ bytes (List.replicate 16 0)) = true
      ∧ ordinal? 2 (byteAt (ubytes 1 2 ++ ubytes 1 23 ++ ubytes 1 2 ++ bytes (List.replicate 16 0)) 0) = some 1
      ∧ index? 24 (byteAt (ubytes 1 2 ++ ubytes 1 23 ++ ubytes 1 2 ++ bytes (List.replicate 16 0)) 1) = some 23
      ∧ readEntry (ubytes 1 2 ++ ubytes 1 23 ++ ubytes 1 2 ++ bytes (List.replicate 16 0)) = some .endMark
      ∧ (trainOf on 0).bank = 0 ∧ (∀ t, (trainOf on t).bank ≠ 1 ∧ (trainOf on t).pendingBank ≠ some 1)
      ∧ readEntry (ubytes 1 2 ++ ubytes 1 23 ++ ubytes 1 3 ++ bytes (List.replicate 16 0)) = none
      ∧ fits 0x70 (ubytes 1 2 ++ ubytes 1 23 ++ ubytes 1 3 ++ bytes (List.replicate 16 0)) = true
      ∧ 1 ≤ { waitStep .input with duration := 4095 }.duration ∧ { waitStep .input with duration := 4095 }.duration ≤ 4095
      ∧ ((waitStep .input).heater && (waitStep .input).cooler) = false ∧ (waitStep .input).advance ≠ .time := by decide +kernel

/-- R119: 23 steps and an END; no END; an END at index 0; an EMPTY before the END. -/
theorem test_BankRequestsWriteAndSelect_valid_met :
    bankValid (put (fill 24 (.written (waitStep .time))) 23 .endMark) = true ∧ bankValid (fill 24 (.written (waitStep .time))) = false
      ∧ bankValid (put (fill 24 (.written (waitStep .time))) 0 .endMark) = false
      ∧ bankValid (put (put (fill 24 (.written (waitStep .time))) 1 .empty) 2 .endMark) = false := by decide +kernel

/-- An invalid bank; an OFF train; a PARKED train on an invalid bank, and one on a valid bank. -/
theorem test_BankRequestsWriteAndSelect_select_met :
    heldInReset on = false ∧ bankValid (nth on.dsq.banks 0) = false
      ∧ bankValid (nth (train0 .time fun t => { t with state := .parked, bank := 1, standby := true }).dsq.banks 0) = true
      ∧ (trainOf (train0 .time id) 0).state = .off
      ∧ (trainOf (train0 .time fun t => { t with state := .parked, bank := 1, standby := true }) 0).state = .parked
      ∧ bankValid (nth (train0 .time fun t => { t with state := .parked, bank := 1, standby := true }).dsq.banks 1) = false
      ∧ (trainOf (train0 .time fun t => { t with state := .parked, bank := 1, standby := true }) 0).standby = true := by decide +kernel

/-- The fields of a SET-TRAIN of D1 that binds a channel of slot 0. -/
def trainFields (channel hysteresis : Nat) : List Byte :=
  [1, 1, 1, 0] ++ ubytes 1 channel ++ sbytes 2 (-1500) ++ sbytes 2 (-800) ++ ubytes 2 hysteresis ++ [0]

theorem test_TrainRequestsStoreAndReset_met :
    heldInReset on = false ∧ fits 0x72 (trainFields 3 5000) = true ∧ ordinal? 2 (byteAt (trainFields 3 5000) 0) = some 0
      ∧ ((readTrainSettings (trainFields 3 5000)).map fun c => (c.hysteresis, c.binding, c.enabled, c.standby))
          = some (5000, some ⟨0, 3⟩, true, false)
      ∧ ((readTrainSettings (trainFields 3 5001)).map TrainSettings.hysteresis) = some 5001
      ∧ ((readTrainSettings (trainFields 4 5000)).map TrainSettings.binding) = some (some ⟨0, 4⟩)
      ∧ mayBind on .s16 (some ⟨0, 3⟩) ∧ ¬ mayBind (slot0 .init) .s16 (some ⟨0, 3⟩) ∧ (trainOf on 0).state = .off
      ∧ on.dir.direction ≠ .withdrawing := by decide +kernel

/-- Slot number 16; the running of an OFF and of a PARKED train allowed by a standby setting on; a binding kept and one changed. -/
theorem test_TrainRequestsStoreAndReset_running_met :
    let standby := [1, 1, 0, 0, 0] ++ sbytes 2 (-1500) ++ sbytes 2 (-800) ++ ubytes 2 10 ++ [1]
    let off := train0 .time id
    let parked := train0 .time fun t => { t with enabled := true, state := .parked }
    let runs := train0 .time fun t => { t with enabled := true, state := .running, standby := true }
    mark [1, 1, 1, 16, 0, 0, 0, 0, 0, 0, 0, 0] 1 ≠ none ∧ mark [1, 1, 1, 16, 0, 0, 0, 0, 0, 0, 0, 0] 2 = some true
      ∧ mark [1, 1, 1, 16, 0, 0, 0, 0, 0, 0, 0, 0] 11 ≠ none ∧ 15 < byteAt [1, 1, 1, 16, 0, 0, 0, 0, 0, 0, 0, 0] 3
      ∧ fits 0x72 [1, 1, 1, 16, 0, 0, 0, 0, 0, 0, 0, 0] = true
      ∧ (readTrainSettings standby).map (fun c => (c.enabled, c.standby, c.binding)) = some (true, true, none)
      ∧ bankValid (nth off.dsq.banks (trainOf off 0).bank) = true
      ∧ nth (nth off.dsq.banks (trainOf off 0).bank) 0 = .written (waitStep .time)
      ∧ (trainOf off 0).state = .off ∧ (trainOf parked 0).state = .parked ∧ (0 : Fin 24).val = (trainOf parked 0).stepIndex
      ∧ (trainOf (after (.setTrain .ops standby) off) 0).state = .running
      ∧ (trainOf (after (.setTrain .ops standby) parked) 0).state = .running
      ∧ (trainOf runs 0).state = .running ∧ (trainOf runs 0).standby ≠ false ∧ (trainOf runs 0).binding ≠ some ⟨0, 3⟩ := by decide +kernel

/-- A limit of −800 and a hysteresis of 10 set on a PARKED train whose dew point is GOOD, both for the same binding: off-spec from −800 on
if it was not, and no longer at −810 if it was; with a HELD dew point nothing is judged. -/
theorem test_TrainRequestsStoreAndReset_limit_met :
    let s (off : Bool) (v : Int) (q : Quality) : State :=
      alterTrain 0 (fun r => { r with enabled := true, state := .parked, binding := some ⟨0, 3⟩, offSpec := off, specLimit := 7 })
        (alterSlot 0 (fun sl => { sl with channels := put sl.channels 3 ⟨v, q, some 0⟩ }) on)
    let t (off : Bool) (v : Int) (q : Quality) : Bool := (trainOf (after (.setTrain .ops (trainFields 3 10)) (s off v q)) 0).offSpec
    fits 0x72 (trainFields 3 10) = true ∧ ordinal? 2 (byteAt (trainFields 3 10) 0) = some 0
      ∧ ((readTrainSettings (trainFields 3 10)).map fun c => (c.specLimit, c.hysteresis)) = some (-800, 10)
      ∧ (trainOf (s true 0 .good) 0).state ≠ .off ∧ mayBind (s true 0 .good) .s16 (some ⟨0, 3⟩)
      ∧ (boundChannel (s true 0 .good) (some ⟨0, 3⟩)).quality = .good ∧ [t false (-800) .good, t false (-801) .good] = [true, false]
      ∧ [t true (-810) .good, t true (-809) .good] = [false, true] ∧ [t true (-900) .held, t false 0 .held] = [true, false] := by
  decide +kernel

theorem test_TrainRequestsStoreAndReset_reset_met :
    heldInReset on = false ∧ (trainOf on 0).state ≠ .faulted
      ∧ (trainOf (train0 .time fun t => { t with state := .faulted, enabled := true, cause := .inputTimeout }) 0).state = .faulted
      ∧ (trainOf (train0 .time fun t => { t with state := .faulted, enabled := true, cause := .inputTimeout }) 0).standby = false
      ∧ (trainOf (train0 .time fun t => { t with state := .faulted, enabled := true, standby := true }) 0).standby = true
      ∧ (trainOf (after (.resetTrain .ops [1]) (train0 .time fun t => { t with state := .faulted, enabled := true, standby := true })) 0).state
          = .running := by decide +kernel

/-- A WAIT_INPUT train with every deadline disabled, and a FAULTED one reset into PARKED and into OFF with its banks, tower and fault step. -/
theorem test_TrainRequestsStoreAndReset_kept_met :
    let waits := train0 .input fun t => { t with
      enabled := true, state := .waitInput, timeDeadline := some 1, dwellDeadline := some 2, timeoutDeadline := some 3, strokeDeadline := some 4 }
    let t := after (.setTrain .ops ([1, 0, 0, 0, 0] ++ sbytes 2 (-1500) ++ sbytes 2 (-800) ++ ubytes 2 10 ++ [0])) waits
    let faulted (on : Bool) := train0 .time fun t => { t with
      enabled := on, state := .faulted, cause := .inputTimeout, faultStep := 7, stepIndex := 7, pendingBank := some 1, tower := .b }
    (trainOf t 0).state = .off ∧ trainOf t 0 = (trainOf t 0).noDeadlines ∧ (trainOf (faulted true) 0).state = .faulted
      ∧ ([true, false].map fun e => (trainOf (after (.resetTrain .ops [1]) (faulted e)) 0).state) = [.parked, .off]
      ∧ ([true, false].all fun e =>
          let r := trainOf (after (.resetTrain .ops [1]) (faulted e)) 0
          decide (r.faultStep = 7 ∧ r.stepIndex = 0 ∧ r.pendingBank = some 1 ∧ r.bank = 0 ∧ r.tower = .b)) = true := by decide +kernel

/-- A park request; a WRITTEN entry 1 after entry 0; END at entry 1 after entry 0. -/
theorem test_EndedStepEntersTheNextEntry_met :
    { Train.initial with parkRequest := true }.parkRequest = true ∧ Train.initial.parkRequest = false
      ∧ (1 : Fin 24).val = Train.initial.stepIndex + 1
      ∧ nth (nth (put (fill 2 (fill 24 BankEntry.empty)) 0 (put (fill 24 BankEntry.empty) 1 (.written (waitStep .time)))) Train.initial.bank) 1
          = .written (waitStep .time)
      ∧ nth (nth (train0 .time id).dsq.banks Train.initial.bank) 1 = .endMark
      ∧ nth (nth (train0 .time id).dsq.banks (Train.initial.pendingBank.getD Train.initial.bank)) 0 = .written (waitStep .time) := by
  decide +kernel

/-- A breakthrough at its level and one below it; a train in its step as the site leaves WITHDRAWING; one PARKED as it enters it, before a
WRITTEN entry and before END. -/
theorem test_EndedStepEntersTheNextEntry_change_met :
    let exits := (train0 .time fun t => { t with state := .running, breakthrough := 5 }).withDsq
      { (train0 .time fun t => { t with state := .running, breakthrough := 5 }).dsq with
        banks := fill 2 (put (put (fill 24 .empty) 0 (.written { waitStep .time with adsorbExit := true })) 1 .endMark) }
    let parked := train0 .time fun t => { t with state := .parked, stepIndex := 1 }
    currentStep exits.dsq.banks (trainOf exits 0) = some { waitStep .time with adsorbExit := true } ∧ (trainOf exits 0).breakthrough ≤ 5
      ∧ (4 : Int) < (trainOf exits 0).breakthrough ∧ (trainOf (breakthrough 5 0 exits) 0).earlyAdvances = 1
      ∧ (trainOf exits 0).standby = false ∧ (exits.withDir { exits.dir with direction := .withdrawing }).dir.direction = .withdrawing
      ∧ SiteDirection.standby ≠ .withdrawing ∧ parked.dir.direction ≠ .withdrawing ∧ (trainOf parked 0).state = .parked
      ∧ bankValid (nth parked.dsq.banks (trainOf parked 0).bank) = true ∧ (1 : Fin 24).val = (trainOf parked 0).stepIndex
      ∧ nth (nth parked.dsq.banks (trainOf parked 0).bank) 1 = .endMark
      ∧ nth (nth parked.dsq.banks ((trainOf parked 0).pendingBank.getD (trainOf parked 0).bank)) 0 = .written (waitStep .time)
      ∧ (trainOf (changeDirection .withdrawing parked) 0).stepIndex = 0
      ∧ (trainOf (changeDirection .withdrawing parked) 0).state = .running := by
  decide +kernel

theorem test_StepInputsAndDeadlinesEndTheStep_input_met :
    let s := train0 .input fun t => { t with state := .waitInput }
    heldInReset s = false ∧ nth (trainOf s 0).inputs 0 = false ∧ currentStep s.dsq.banks (trainOf s 0) = some (waitStep .input)
      ∧ (trainOf s 0).state = .waitInput ∧ (trainOf s 0).dwellDeadline = none ∧ (waitStep .input).input = 0
      ∧ (waitStep .input).sense = true ∧ (waitStep .input).input ≠ 1 := by decide +kernel

/-- At a deadline and one tenth before it, with the input at sense and not. -/
theorem test_StepInputsAndDeadlinesEndTheStep_met :
    let s := (train0 .timeThenInput fun t => { t with state := .running, timeDeadline := some 300 }).withFine 30000
    let w := (train0 .input fun t => { t with state := .waitInput, dwellDeadline := some 10, timeoutDeadline := some 300 }).withFine 1000
    heldInReset s = false ∧ currentStep s.dsq.banks (trainOf s 0) = some (waitStep .timeThenInput) ∧ (trainOf s 0).state = .running
      ∧ (trainOf s 0).timeDeadline = some 300 ∧ 300 ≤ timeBase s ∧ timeBase (s.withFine 29999) < 300
      ∧ nth (trainOf s 0).inputs (waitStep .timeThenInput).input ≠ (waitStep .timeThenInput).sense
      ∧ (waitStep .timeThenInput).advance ≠ .time ∧ currentStep w.dsq.banks (trainOf w 0) = some (waitStep .input)
      ∧ (trainOf w 0).state = .waitInput ∧ (trainOf w 0).dwellDeadline = some 10 ∧ 10 ≤ timeBase w ∧ timeBase (w.withFine 999) < 10
      ∧ (trainOf w 0).timeoutDeadline ≠ some 10
      ∧ (trainOf (alterTrain 0 (fun t => { t with timeoutDeadline := some 10 }) w) 0).timeoutDeadline = some 10
      ∧ (trainOf (after (.dwellExpiry 0) (alterTrain 0 (fun t => { t with timeoutDeadline := some 10 }) w)) 0).cause = .inputTimeout
      ∧ nth (trainOf (alterTrain 0 (fun t => { t with inputs := put t.inputs 0 true }) w) 0).inputs (waitStep .input).input
          = (waitStep .input).sense := by decide +kernel

theorem test_StepInputsAndDeadlinesEndTheStep_timeouts_met :
    let s := (train0 .input fun t => { t with state := .waitInput, timeoutDeadline := some 300 }).withFine 30000
    let w := (train0 .timeThenInput fun t => { t with state := .waitInput, strokeDeadline := some 600 }).withFine 60000
    heldInReset s = false ∧ (trainOf s 0).state = .waitInput ∧ currentStep s.dsq.banks (trainOf s 0) = some (waitStep .input)
      ∧ (trainOf s 0).timeoutDeadline = some 300 ∧ 300 ≤ timeBase s
      ∧ nth (trainOf s 0).inputs (waitStep .input).input ≠ (waitStep .input).sense ∧ (trainOf s 0).strokeDeadline = none
      ∧ (trainOf w 0).state = .waitInput ∧ (trainOf w 0).strokeDeadline = some 600 ∧ 600 ≤ timeBase w
      ∧ (trainOf w 0).timeoutDeadline = none := by decide +kernel

/-- Each deadline absent, and each past in a state that it does not belong to. -/
theorem test_StepInputsAndDeadlinesEndTheStep_none_met :
    let w := train0 .input fun t => { t with state := .waitInput, timeDeadline := some 0 }
    let r := train0 .time fun t => { t with state := .running, dwellDeadline := some 0, timeoutDeadline := some 0, strokeDeadline := some 0 }
    (trainOf w 0).dwellDeadline = none ∧ (trainOf w 0).timeoutDeadline = none ∧ (trainOf w 0).strokeDeadline = none
      ∧ (trainOf w 0).state ≠ .running ∧ (trainOf r 0).timeDeadline = none ∧ (trainOf r 0).state ≠ .waitInput
      ∧ after (.stepTimeExpiry 0) w = w ∧ after (.dwellExpiry 0) w = w ∧ after (.dwellExpiry 0) r = r ∧ after (.inputTimeout 0) r = r
      ∧ after (.strokeTimeout 0) r = r ∧ after (.stepTimeExpiry 0) r = r := by decide +kernel

/-! ### Witnesses: accounts -/

/-- Codes of 1 and 0, rights and space at their limits and one above them, slots vacant and held, a code in use; SET-RIGHTS at the
inventory and one below it. -/
theorem test_AccountRequestsChangeTheirSlot_met :
    heldInReset (twoShippers on) = false ∧ 4000000001 < 2 ^ 32 ∧ 65535 < 2 ^ 16 ∧ (accountOf (twoShippers on) 0).state = .active
      ∧ (accountOf (twoShippers on) 2).state = .vacant ∧ (accountOf (twoShippers on) 1).code = some 1317
      ∧ (∀ b, b ≠ 2 → (accountOf (twoShippers on) b).state ≠ .vacant → (accountOf (twoShippers on) b).code ≠ some 1318)
      ∧ (accountOf (twoShippers on) 0).inventory + injectionReserve (twoShippers on) 0 = 600000
      ∧ 15 < byteAt (16 :: List.replicate 14 0) 0 ∧ fits 0x80 (16 :: List.replicate 14 0) = true
      ∧ fits 0x81 (16 :: List.replicate 12 0) = true ∧ fits 0x82 [16] = true := by decide +kernel

/-- The free inventory 600,000 and the free space 600,000 moved whole, and one above it refused. -/
theorem test_TransferAndSettleMoveInventory_met :
    heldInReset (twoShippers on) = false ∧ (0 : Fin 16) ≠ 1 ∧ 600001 < 2 ^ 32 ∧ (accountOf (twoShippers on) 1).state = .active
      ∧ freeInventory (twoShippers on) 0 = 600000 ∧ freeSpace (twoShippers on) 1 = 600000 ∧ (accountOf (twoShippers on) 2).state = .vacant
      ∧ status .com (.transfer .com (ubytes 1 0 ++ ubytes 1 1 ++ ubytes 4 600000)) (twoShippers on) = some .ok
      ∧ status .com (.transfer .com (ubytes 1 0 ++ ubytes 1 1 ++ ubytes 4 600001)) (twoShippers on) = some .limit
      ∧ fits 0x83 [16, 1, 0, 0, 0, 1] = true ∧ 15 < byteAt [0, 16, 0, 0, 0, 1] 1
      ∧ byteAt [1, 1, 0, 0, 0, 1] 0 = byteAt [1, 1, 0, 0, 0, 1] 1 := by decide +kernel

theorem test_TransferAndSettleMoveInventory_settle_met :
    heldInReset (twoShippers on) = false ∧ -(2 ^ 47) ≤ (-4000000001 : Int) ∧ (4000000001 : Int) < 2 ^ 47
      ∧ (accountOf (twoShippers on) 2).state = .vacant ∧ (accountOf (twoShippers on) 0).state ≠ .vacant
      ∧ freeSpace (twoShippers on) 0 = 300000 ∧ freeInventory (twoShippers on) 0 = 600000 ∧ (twoShippers on).act.suspense = 1250
      ∧ status .com (.settleSuspense .com (ubytes 1 0 ++ sbytes 6 300000)) (twoShippers on) = some .ok
      ∧ status .com (.settleSuspense .com (ubytes 1 0 ++ sbytes 6 300001)) (twoShippers on) = some .limit
      ∧ status .com (.settleSuspense .com (ubytes 1 0 ++ sbytes 6 (-600000))) (twoShippers on) = some .ok
      ∧ status .com (.settleSuspense .com (ubytes 1 0 ++ sbytes 6 (-600001))) (twoShippers on) = some .limit
      ∧ fits 0x84 [16, 0, 0, 0, 0, 0, 1] = true ∧ 15 < byteAt [16, 0, 0, 0, 0, 0, 1] 0 := by decide +kernel

theorem test_TransferAndSettleMoveInventory_total_met : isTotal (1250 - 300000) ∧ ¬ isTotal (minTotal - 1) := by
  unfold isTotal
  decide +kernel

/-! ### Witnesses: nominations -/

/-- Hour 23 alone and all 24 hours; ±100,000,000 and one beyond; the clock stopped and running; VACANT and ACTIVE; late and not. -/
theorem test_NominationsWriteTheirRun_met :
    23 + 1 ≤ 24 ∧ 0 + 24 ≤ 24 ∧ -(2 ^ 31) ≤ (-100000001 : Int) ∧ (100000001 : Int) < 2 ^ 31
      ∧ heldInReset (twoShippers (running 39600)) = false
      ∧ clockRunning on = false ∧ clockRunning (twoShippers (running 39600)) = true
      ∧ (accountOf (twoShippers (running 39600)) 2).state = .vacant ∧ (accountOf (twoShippers (running 39600)) 0).state = .active
      ∧ lateHour (twoShippers (running 39600)) (rowPosition false 11) = true
      ∧ lateHour (twoShippers (running 39600)) (rowPosition false 12) = false
      ∧ (∀ h, h < 12 → lateHour (twoShippers (running 39600)) (todayPosition h) = true)
      ∧ lateHour (twoShippers (running 39600)) (todayPosition 12) = false ∧ fits 0x90 [0, 2, 0, 0, 0, 0, 0, 0, 0] = true
      ∧ 1 < byteAt [0, 2, 0, 0, 0, 0, 0, 0, 0] 1 ∧ maskRun (num [0, 0, 0, 0, 0, 0, 0, 0, 0] 2 3) = none ∧ maskRun 44 = none
      ∧ maskRun (2 ^ 24 - 1) = some (0, 24) ∧ maskRun (2 ^ 23) = some (23, 1) ∧ fits 0x91 [16, 0, 0, 0, 0, 0] = true
      ∧ fits 0x92 [16, 0, 0, 0, 0] = true ∧ fits 0x93 [0, 0, 0, 0, 0] = true := by decide +kernel

theorem test_NominationsWriteTheirRun_all_late_met :
    (∀ h, h < 24 → lateHour (twoShippers (running 82800)) (todayPosition h) = true) ∧ clockRunning (twoShippers (running 82800)) = true := by
  decide +kernel

/-- A CLOSING slot nominates 0 and −1 for tomorrow's first hour and for the rest of today, and cancels; 1 is refused with STATE. -/
theorem test_NominationsWriteTheirRun_closing_met :
    let s := alterAccount 0 (fun r => { r with state := .closing }) (twoShippers (running 39600))
    let one (q : Int) : Instr := .nominate .com (ubytes 1 0 ++ markByte true ++ ubytes 3 ((2 ^ 1 - 1) * 2 ^ 0) ++ sbytes 4 q)
    let rest (q : Int) : Instr := .nominateRest .com (ubytes 1 0 ++ sbytes 4 q)
    (accountOf s 0).state = .closing ∧ clockRunning s = true ∧ heldInReset s = false ∧ lateHour s (rowPosition true 0) = false
      ∧ status .com (one 0) s = some .ok ∧ (entryOf (after (one 0) s) 48 0).requested = some 0
      ∧ status .com (one (-1)) s = some .ok ∧ status .com (one 1) s = some .state
      ∧ (entryOf (after (one 1) s) 48 0).requested = none
      ∧ status .com (.nominateDay .com (ubytes 1 0 ++ markByte true ++ sbytes 4 0)) s = some .ok
      ∧ status .com (.nominateDay .com (ubytes 1 0 ++ markByte true ++ sbytes 4 1)) s = some .state
      ∧ status .com (.cancelNomination .com (ubytes 1 0 ++ markByte true ++ ubytes 3 1)) s = some .ok
      ∧ status .com (rest 0) s = some .ok ∧ status .com (rest 1) s = some .state := by decide +kernel

/-- With the clock stopped an hour is late when it is firmed alone; with it running, up to the open hour too. -/
theorem test_NominationsWriteTheirRun_late_met :
    let s := running 39600
    let f := alterHour 40 (fun c => { c with site := { c.site with firmed := true } }) on
    clockRunning s = true ∧ s.clock.lastClosed = some ⟨310, 10⟩ ∧ lateHour s 35 = true ∧ lateHour s 36 = false
      ∧ clockRunning f = false ∧ lateHour f 40 = true ∧ lateHour f 0 = false
      ∧ lateHour (s.withClock { s.clock with lastClosed := some ⟨310, 23⟩ }) 24 = true
      ∧ lateHour (s.withClock { s.clock with lastClosed := some ⟨310, 23⟩ }) 25 = false := by decide +kernel

/-- Leads of 1, 4, 0 and 5; two points and eight; rates of 1,000 and 1,001; fills that do not rise. -/
theorem test_LeadRatchetAndAllocationAreStored_met :
    heldInReset on = false ∧ 1 ≤ (1 : Byte).toNat ∧ (4 : Byte).toNat ≤ 4 ∧ (0 : Byte).toNat = 0 ∧ 4 < (5 : Byte).toNat
      ∧ (([⟨0, 1000⟩, ⟨1000, 1001⟩] : List RatchetPoint).map RatchetPoint.fill).Pairwise (· < ·)
      ∧ (([⟨0, 0⟩, ⟨1, 0⟩, ⟨2, 0⟩, ⟨3, 0⟩, ⟨4, 0⟩, ⟨5, 0⟩, ⟨999, 0⟩, ⟨1000, 1000⟩] : List RatchetPoint).map RatchetPoint.fill).Pairwise (· < ·)
      ∧ ¬ (([⟨0, 0⟩, ⟨0, 0⟩, ⟨1000, 0⟩] : List RatchetPoint).map RatchetPoint.fill).Pairwise (· < ·)
      ∧ (∀ p ∈ ([⟨0, 1000⟩, ⟨1000, 1001⟩] : List RatchetPoint), p.fill < 65536 ∧ p.rate < 65536) := by decide +kernel

/-- An unknown table; counts of points of 1 and 9; an unknown mode. -/
theorem test_LeadRatchetAndAllocationAreStored_malformed_met :
    fits 0x95 (2 :: 2 :: List.replicate 8 0) = true ∧ 1 < byteAt (2 :: 2 :: List.replicate 8 0) 0
      ∧ fits 0x95 [0, 1, 0, 0, 0, 0] = true ∧ byteAt [0, 1, 0, 0, 0, 0] 1 < 2 ∧ fits 0x95 (0 :: 9 :: List.replicate 36 0) = true
      ∧ 8 < byteAt (0 :: 9 :: List.replicate 36 0) 1 ∧ 1 < (2 : Byte).toNat
      ∧ status .com (.setRatchet .com (2 :: 2 :: List.replicate 8 0)) on = some .malformed
      ∧ status .com (.setRatchet .com [0, 1, 0, 0, 0, 0]) on = some .malformed
      ∧ status .com (.setAllocation .com [2]) on = some .malformed := by decide +kernel

/-- R168: three equal bases and a target of 2 give it to the lower slots. -/
theorem test_LargestRemainderSharesTheTarget_met :
    2 ≤ sumNat (nth (put (put (put (fill 16 0) 3 1) 7 1) 9 1)) ∧ 0 < nth (put (put (put (fill 16 0) 3 1) 7 1) 9 1) 9
      ∧ largestRemainder 2 (put (put (put (fill 16 0) 3 1) 7 1) 9 1) = put (put (fill 16 0) 3 1) 7 1 := by decide +kernel

/-- A target of 7 on bases 1, 1 and 1: 2 each and the rest of 1 to the lowest slot; no basis; a target of exactly the bases. -/
theorem test_LargestRemainderSharesTheTarget_above_met :
    let basis := put (put (put (fill 16 0) 3 1) 7 1) 9 1
    sumNat (nth basis) < 7 ∧ largestRemainder 7 basis = put (put (put (fill 16 0) 3 3) 7 2) 9 2
      ∧ sumNat (nth (fill 16 (0 : Nat))) = 0 ∧ largestRemainder 5 (fill 16 0) = fill 16 0 ∧ largestRemainder 3 basis = basis := by
  decide +kernel

theorem test_FirmBringsTheNetWithinCapacities_met :
    (hourOf (twoShippers on) 37).site.firmed = false ∧ (accountOf (twoShippers on) 0).held = true
      ∧ (36 : Fin 72) ≠ 37 := by decide +kernel

/-- A site that offers 50,000 to injection and 30,000 to withdrawal, hour 13 unfirmed with the requests given by slots 0 and 1. -/
def offering (first second : Int) : State :=
  let s := twoShippers (running 39600)
  let s := s.withCdt ((s.cdt.follow condRetainedLost false).follow condClockUnset false)
  let s := (s.withCpd { s.cpd with units := put s.cpd.units 0 { nth s.cpd.units 0 with state := .ready } }).withDir
    { s.dir with
      site := { s.dir.site with injectionCapacity := 60000, withdrawalCapacity := 30000, unitRate := 50000, trainRate := 40000 }
      caverns := put s.dir.caverns 0 { cavernOf s 0 with inService := true, injectionRate := 70000, withdrawalRate := 70000 } }
  let s := alterPoint (wellhead 0) (fun p => { p with slot := some 1 }) (alterPoint 0 (fun p => { p with slot := some 0, capacity := 80000 }) s)
  let s := alterSlot 1 (fun sl => { sl with channels := put sl.channels 2 ⟨9000, .held, some 0⟩ }) (alterSlot 0 (fun sl => { sl with state := .active }) s)
  let s := (alterTrain 0 (fun r => { r with enabled := true, state := .parked }) s).withDsq
    { (alterTrain 0 (fun r => { r with enabled := true, state := .parked }) s).dsq with banks := (train0 .time id).dsq.banks }
  alterHour 37 (fun c => { c with
    entries := alter (alter c.entries 0 fun e => { e with requested := some first }) 1 fun e => { e with requested := some second } }) s

/-- A net above the injection capacity, one below minus the withdrawal capacity, and one within, a request cut by its rate right. -/
theorem test_FirmBringsTheNetWithinCapacities_firm_met :
    injectionCapacity (offering 60000 (-5000)) = 50000 ∧ withdrawalCapacity (offering 60000 (-5000)) = 30000
      ∧ (hourOf (offering 60000 (-5000)) 37).site.firmed = false
      ∧ (entryOf (firm 37 (offering 60000 (-5000))) 37 0).confirmed = some 55000
      ∧ (entryOf (firm 37 (offering 60000 (-5000))) 37 0).curtailed = true
      ∧ (entryOf (firm 37 (offering 60000 (-5000))) 37 1).confirmed = some (-5000)
      ∧ (entryOf (firm 37 (offering 60000 (-5000))) 37 1).curtailed = false
      ∧ (entryOf (firm 37 (offering 1000 (-40000))) 37 1).confirmed = some (-31000)
      ∧ (hourOf (firm 37 (offering 1000 (-40000))) 37).site.net = -30000
      ∧ (entryOf (firm 37 (offering 100001 (-60000))) 37 0).reduced = true
      ∧ (entryOf (firm 37 (offering 100001 (-60000))) 37 0).confirmed = some 100000 := by decide +kernel

/-- R163: a falling segment rounds down, at and beside its points. -/
theorem test_FirmBringsTheNetWithinCapacities_ratchet_met :
    fillsValid [⟨0, 1000⟩, ⟨3, 0⟩, ⟨1000, 500⟩] = true
      ∧ ([0, 1, 2, 3, 1000].map fun f => ratchetRate f [⟨0, 1000⟩, ⟨3, 0⟩, ⟨1000, 500⟩]) = [1000, 666, 333, 0, 500]
      ∧ ([⟨0, 1000⟩, ⟨3, 0⟩, ⟨1000, 500⟩] : List RatchetPoint) = [] ++ ⟨0, 1000⟩ :: ⟨3, 0⟩ :: [⟨1000, 500⟩]
      ∧ 0 ≤ (accountOf (twoShippers on) 0).inventory ∧ (accountOf (twoShippers on) 0).space ≠ 0
      ∧ fillOf (shipper 0 0 1) = 1000 ∧ (shipper 0 0 1).space = 0
      ∧ (hourOf (firm 37 (twoShippers on)) 37).site.firmed = true ∧ (accountOf (twoShippers on) 2).state = .vacant := by decide +kernel

/-- Hour 12 firmed and not started, hour 11 open, and a report that raises the class from 0. -/
theorem test_RefirmOnlyLowers_met :
    let s := alterHour 36 (fun c => { c with site := { c.site with firmed := true, injectionCapacity := 5 } }) (running 39600)
    (hourOf s 36).site.firmed = true ∧ (hourOf s 36).site.closed = false ∧ openPosition s = some 35 ∧ (35 : Fin 72) < 36
      ∧ (hourOf s 37).site.firmed = false ∧ injectionCapacity s < (hourOf s 36).site.injectionCapacity
      ∧ nth (refirm s).cdt.com.flags evRefirmed = true
      ∧ (on.cdt.follow condRetainedLost false).derateClass ≤ on.cdt.derateClass
      ∧ (on.cdt.follow condRetainedLost false).derateClass < ((on.cdt.follow condRetainedLost false).follow condRetainedLost true).derateClass := by
  decide +kernel

/-- Confirmations of 50, 49 and −20 at a capacity lowered to 59: U1 and U2 share 79 by largest remainder; at 79 nothing is cut. -/
theorem test_RefirmOnlyLowers_curtail_met :
    let hour (capacity : Nat) : State := alterHour 37 (fun c => { c with
        site := { c.site with firmed := true, injectionCapacity := capacity, withdrawalCapacity := 30000, net := 79 }
        entries := alter (alter (alter c.entries 0 fun e => { e with confirmed := some 50 }) 1 fun e => { e with confirmed := some 49 }) 2
          fun e => { e with confirmed := some (-20) } }) (offering 0 0)
    injectionCapacity (hour 59) = 50000 ∧ withdrawalCapacity (hour 59) = 30000 ∧ sumInt (confirmedOf (hour 59) 37) = 79
      ∧ ([0, 1, 2].map (confirmedOf (refirm (hour 59)) 37)) = [40, 39, -20] ∧ (hourOf (refirm (hour 59)) 37).site.net = 59
      ∧ ([0, 1, 2].map (confirmedOf (refirm (hour 79)) 37)) = [50, 49, -20]
      ∧ (entryOf (refirm (hour 59)) 37 0).refirmed = true ∧ (entryOf (refirm (hour 79)) 37 0).refirmed = false := by decide +kernel

/-- R64, R65: the same report, a rise at levels 0 and 1, and a fall, which leaves the pendings. -/
theorem test_RefirmOnlyLowers_report_met :
    let c (l : Nat) (active pending : Bool) : Cdt :=
      { on.cdt with conditions := put on.cdt.conditions 5 ⟨l, active, pending, pending⟩ }
    (nth (c 1 true false).conditions 5).active = true ∧ (c 1 true false).follow 5 true = c 1 true false
      ∧ nth ((c 1 false false).follow 5 true).conditions 5 = ⟨1, true, true, true⟩
      ∧ nth ((c 0 false false).follow 5 true).conditions 5 = ⟨0, true, false, false⟩
      ∧ nth ((c 1 true true).follow 5 false).conditions 5 = ⟨1, false, true, true⟩
      ∧ nth ((c 1 true true).follow 5 false).conditions 6 = nth on.cdt.conditions 6 := by decide +kernel

/-! ### Witnesses: outputs, resets and what every step keeps -/

/-- A train that is OFF, one that is PARKED on tower B, and one in a step; a request in flight. -/
theorem test_OutputsFollowTheState_met :
    heldInReset on = false ∧ (trainOf on 0).state = .off
      ∧ (trainOf (train0 .time fun t => { t with state := .parked, tower := .b }) 0).state = .parked
      ∧ (List.finRange 8).map (nth (dryerOutputs (train0 .time fun t => { t with state := .parked, tower := .b }) 0))
          = [false, false, false, true, true, false, false, false]
      ∧ currentStep (train0 .time fun t => { t with state := .running }).dsq.banks
          (trainOf (train0 .time fun t => { t with state := .running }) 0) = some (waitStep .time)
      ∧ (List.finRange 8).map (nth (dryerOutputs (train0 .time fun t => { t with state := .running }) 0))
          = [true, true, false, false, false, true, false, true]
      ∧ transmitting (after .lineEngineTake (due100 100 100)) = some (requestFrame (.read 1 0 1)) := by decide +kernel

/-- A READ of 8 registers from 0x1234 of station 126, a WRITE of 0x00FF there, and the CRC of one byte 0; the CRCs from outside the manual.
-/
theorem test_OutputsFollowTheState_frames_met :
    requestFrame (.read 126 0x1234 8) = bytes [0xC5, 126, 0x31, 0x12, 0x34, 8, 0xFC, 0x25, 0x5C]
      ∧ requestFrame (.write 126 0x1234 255)
        = bytes [0xC5, 126, 0x32, 0x12, 0x34, 0, 255, 0x72, 0x18, 0x5C]
      ∧ crcDivided 8 0xFFFF = 0xE1F0 ∧ crc16 [0] = 0xE1F0 := by decide +kernel

theorem test_ResetStateIsSound_settings : SettingsInRange on := by
  refine ⟨by decide +kernel, ?_, ?_, ?_, by decide +kernel, ⟨by decide +kernel, by decide +kernel, nofun⟩, by decide +kernel, by decide +kernel, ?_,
    by decide +kernel, by decide +kernel, by decide +kernel, ?_, ?_, ⟨by decide +kernel, by decide +kernel, nofun⟩, ?_⟩
  · unfold slotInRange isWord
    decide +kernel
  · unfold isWord
    decide +kernel
  · unfold isWord
    decide +kernel
  · intro p
    cases p <;> decide +kernel
  · have h : ∀ t, (trainOf on t).binding = none := by decide +kernel
    intro t
    refine ⟨?_, ?_⟩
    · rw [h]
      nofun
    · revert t
      decide +kernel
  · intro b i
    have h : nth (nth on.dsq.banks b) i = .empty := by
      revert b i
      decide +kernel
    rw [h]
    trivial
  · unfold ratchetInRange
    decide +kernel

/-- The settings of a state whose settings are those after reset. -/
theorem settings_of_reset (s : State) (hf : s.fsu = on.fsu) (hm : s.mtu = on.mtu) (hc : s.cdt = on.cdt) (hd : s.dir = on.dir)
    (hp : s.cpd = on.cpd) (hq : s.dsq = on.dsq)
    (hl : (s.nfu.lead, s.nfu.pendingLead) = (on.nfu.lead, on.nfu.pendingLead))
    (hr : (s.nfu.injectionRatchet, s.nfu.withdrawalRatchet) = (on.nfu.injectionRatchet, on.nfu.withdrawalRatchet)) :
    SettingsInRange s := by
  have h := test_ResetStateIsSound_settings
  simp only [Prod.mk.injEq] at hl hr
  constructor
  · rw [hf]; exact h.window
  · unfold slotOf; rw [hf]; exact h.slots
  · rw [hf]; exact h.script
  · unfold pointOf; rw [hm]; exact h.points
  · rw [hm]; exact h.beta
  · rw [hm]; exact h.cv
  · rw [hc]; exact h.levels
  · rw [hc]; exact h.derate
  · rw [hc]; exact h.thresholds
  · unfold cavernOf; rw [hd]; exact h.caverns
  · rw [hd]; exact h.site
  · rw [hp]; exact h.duty
  · unfold trainOf; rw [hq]; exact h.trains
  · rw [hq]; exact h.banks
  · rw [hl.1, hl.2]; exact h.lead
  · rw [hr.1, hr.2]; exact h.ratchets

theorem test_ResetsTakeTheirValues_met :
    heldInReset on = false ∧ on.pif.powerLost = false ∧ (after (.heldInReset (.powerLost true)) on).pif.powerLost = true
      ∧ (after (.heldInReset (.powerLost true)) on).pif.retainedIntact = false := by decide +kernel

/-- R205: both ports hold an image and a response, and a pin reset and a power-on leave none. -/
theorem test_ResetsTakeTheirValues_images_met :
    let s := after (.read .com [7, 0]) (after (.read .ops [7, 0]) on)
    s.pif.ops.image.isSome = true ∧ s.pif.com.image.isSome = true ∧ s.pif.com.response.isSome = true
      ∧ (after (.pin 10 low) s).pif.ops.image = none ∧ (after (.pin 10 low) s).pif.com.image = none
      ∧ (after (.powerOn low) s).pif.ops.image = none ∧ (after (.powerOn low) s).pif.com.image = none := by decide +kernel

/-- Slot 3 enabled, train D1 on a valid bank with standby regeneration, and an hour firmed with a capacity of 5, through a pin reset that
leaves class 1. -/
theorem test_ResetsTakeTheirValues_retained_met :
    let s := alterHour 36 (fun c => { c with site := { c.site with firmed := true, injectionCapacity := 5 } })
      (alterSlot 3 (fun sl => { sl with enabled := true, state := .faulted })
        (train0 .time fun t => { t with enabled := true, standby := true, state := .parked, faultStep := 7 }))
    let s := s.withCdt { s.cdt with conditions := alter s.cdt.conditions condClockUnset fun c => { c with level := 1 } }
    let t := after (.pin 10 low) s
    t.fsu.queue = [⟨3, 0, .read, 0, 0⟩] ∧ (trainOf t 0).state = .running ∧ (trainOf t 0).faultStep = 7 ∧ t.dsq.banks = s.dsq.banks
      ∧ conditionActive t (condOffSpec 0) = true ∧ t.cdt.derate = s.cdt.derate ∧ 0 < t.cdt.derateClass
      ∧ (hourOf t 36).site.injectionCapacity = 0 ∧ (hourOf t 36).site.refirmed = true
      ∧ nth t.cdt.com.flags evRefirmed = true := by decide +kernel

/-- The power-on reset that clears what State.reset already holds: State.reset is what a power-on with retention lost leaves. -/
theorem test_reset_is_a_power_on_with_retention_lost :
    after (.powerOn low) (after (.heldInReset (.powerLost true)) (twoShippers (running 39600))) = on := by decide +kernel

/-- Two Active conditions of the highest level, one inactive above it, and none Active. -/
theorem test_StepKeepsDerateClassFormed_table_met :
    let table := put (put (put (put (fill 56 ⟨0, false, false, false⟩) 3 ⟨2, true, false, false⟩) 9 ⟨4, true, false, false⟩) 12
      ⟨4, true, false, false⟩) 40 ⟨7, false, false, false⟩
    formClass table = 4 ∧ formLead table = some 9 ∧ formLead (fill 56 ⟨7, false, false, false⟩) = none
      ∧ formLead (fill 56 ⟨0, true, false, false⟩) = none ∧ formClass (fill 56 ⟨0, true, false, false⟩) = 0 := by decide +kernel

theorem test_StepKeepsDerateClassFormed_met :
    ClassFormed (on.withPending [.ackConditions .ops [1, 53, 1, 3]])
      ∧ step (on.withPending [.ackConditions .ops [1, 53, 1, 3]]) = .next (after (.ackConditions .ops [1, 53, 1, 3]) on)
      ∧ (after (.ackConditions .ops [1, 53, 1, 3]) on).cdt.derateClass = 0 :=
  ⟨by unfold ClassFormed; decide +kernel, step_after (by decide +kernel) (by decide +kernel),
    by decide +kernel⟩

theorem test_StepKeepsBooksBalancedAndCodesDistinct_met :
    BooksBalance ((twoShippers on).withPending [.timeBaseStep]) ∧ CodesDistinct ((twoShippers on).withPending [.timeBaseStep])
      ∧ step ((twoShippers on).withPending [.timeBaseStep]) = .next (after .timeBaseStep (twoShippers on)) :=
  ⟨by unfold BooksBalance isTotal; decide +kernel, by unfold CodesDistinct; decide +kernel,
    step_after (by decide +kernel) (by decide +kernel)⟩

theorem test_StepKeepsOneUnitStarting_met :
    OneStarting ((unit0 fun r => { r with state := .starting }).withPending [.startTimeout 0])
      ∧ step ((unit0 fun r => { r with state := .starting }).withPending [.startTimeout 0])
          = .next (after (.startTimeout 0) (unit0 fun r => { r with state := .starting })) :=
  ⟨by unfold OneStarting; decide +kernel,
    step_after (by decide +kernel) (by decide +kernel)⟩

/-- U1 RUNNING as the site leaves INJECTING at an hour boundary. -/
theorem test_StepKeepsOneUnitStarting_run_met :
    let s := (unit0 fun r => { r with state := .running, feedback := true }).withClock midnight.clock
    let s := s.withDir midnight.dir
    RunOnlyInjecting (s.withPending [.hourBoundary]) ∧ step (s.withPending [.hourBoundary]) = .next (after .hourBoundary s)
      ∧ (after .hourBoundary s).dir.direction = .standby :=
  ⟨fun h => absurd rfl h, step_after (by decide +kernel) (by decide +kernel), by decide +kernel⟩

theorem test_StepKeepsClockAndHistoryInRange_met :
    ClockInRange ((running 86399).withPending [.timeBaseStep]) ∧ HistoryWithin ((running 86399).withPending [.timeBaseStep])
      ∧ step ((running 86399).withPending [.timeBaseStep]) = .next (after .timeBaseStep (running 86399)) := by
  refine ⟨⟨by decide +kernel, by decide +kernel, by decide +kernel, ?_⟩, by unfold HistoryWithin; decide +kernel,
    step_after (by decide +kernel) (by decide +kernel)⟩
  intro h hh
  cases hh
  unfold hourInRange
  decide +kernel

/-- Slot 0 with a confirmed withdrawal of all it holds in hour 12, which is firmed. -/
def confirmedOut : State :=
  alterHour 36 (fun c =>
      { c with site := { c.site with firmed := true }, entries := alter c.entries 0 fun e => { e with confirmed := some (-600000) } })
    (twoShippers (running 39600))

theorem test_StepKeepsFreeInventoryAndFreeSpace_settings_met : SettingsInRange (confirmedOut.withPending [.timeBaseStep]) :=
  settings_of_reset _ rfl rfl rfl rfl rfl rfl rfl rfl

theorem test_StepKeepsFreeInventoryAndFreeSpace_met :
    ClockInRange (confirmedOut.withPending [.timeBaseStep]) ∧ RowsKept (confirmedOut.withPending [.timeBaseStep])
      ∧ AccountLaws (confirmedOut.withPending [.timeBaseStep]) ∧ freeInventory confirmedOut 0 = 0
      ∧ step (confirmedOut.withPending [.timeBaseStep]) = .next (after .timeBaseStep confirmedOut) := by
  refine ⟨⟨by decide +kernel, by decide +kernel, by decide +kernel, ?_⟩, ?_, ?_, by decide +kernel,
    step_after (by decide +kernel) (by decide +kernel)⟩
  · intro h hh
    cases hh
    unfold hourInRange
    decide +kernel
  · intro p
    refine ⟨?_, ?_, ?_⟩
    · revert p
      decide +kernel
    · revert p
      decide +kernel
    · intro hc
      have h : (hourOf (confirmedOut.withPending [.timeBaseStep]) p).site.closed = false := by
        revert p
        decide +kernel
      rw [h] at hc
      cases hc
  · unfold AccountLaws
    decide +kernel

/-- Slot 0 in flight and slot 3 queued. -/
def polling : State :=
  (alterSlot 3 (fun sl => { sl with enabled := true, state := .init }) (flying (.read 1 0 1) .read 0 0 false)).withFsu
    { (alterSlot 3 (fun sl => { sl with enabled := true, state := .init }) (flying (.read 1 0 1) .read 0 0 false)).fsu with
      queue := [⟨3, 50, .read, 0, 0⟩] }

theorem test_StepKeepsPollQueue_met :
    QueueKept (polling.withPending [.replyWindowExpiry])
      ∧ step (polling.withPending [.replyWindowExpiry]) = .next (after .replyWindowExpiry polling) := by
  have flew : ∀ n, inFlightFor (polling.withPending [.replyWindowExpiry]) n ↔ n = 0 := by
    intro n
    constructor
    · rintro ⟨f, hf, -, hn⟩
      cases hf
      exact hn.symm
    · rintro rfl
      exact ⟨flight (.read 1 0 1) .read 0 0 false, rfl, rfl, rfl⟩
  refine ⟨⟨by decide +kernel, by decide +kernel, ?_, ?_, ?_⟩,
    step_after (by decide +kernel) (by decide +kernel)⟩
  · simp only [flew]
    unfold isPolled
    decide +kernel
  · simp only [flew]
    decide +kernel
  · intro f hf
    cases hf
    trivial

theorem test_StepKeepsSettingsInRange_met :
    SettingsInRange (on.withPending [.timeBaseStep])
      ∧ step (on.withPending [.timeBaseStep]) = .next (after .timeBaseStep on) :=
  ⟨settings_of_reset _ rfl rfl rfl rfl rfl rfl rfl rfl, step_after (by decide +kernel) (by decide +kernel)⟩

end Sys2Proof.Tests
end

/-! SUPPORT. Which blocks each request and each event can change: one lemma for each, on top of those of the shared operations. -/

namespace Sys2Proof.Machine

open Sys2Proof.Safety

/-! ### Frames read off a list of blocks -/

section
variable {s t : State} {l : List Block}

/-- A block that is not on the list stands. -/
theorem clock_of_changes (h : ChangesOnly l s t) (hb : Block.clock ∉ l) : t.clock = s.clock := (h .clock hb).symm
theorem cau_of_changes (h : ChangesOnly l s t) (hb : Block.cau ∉ l) : t.cau = s.cau := (h .cau hb).symm

end

/-- An answer changes only the blocks named: nothing when it refuses. -/
def Answer.Within (l : List Block) (s : State) : Answer → Prop
  | .refuse _ => True
  | .taken after _ => ChangesOnly l s after

section
variable {s : State} {l m : List Block} {a b : Answer}

/-- A check that refuses is passed or changes nothing. -/
theorem Answer.within_guard {c : Prop} [Decidable c] {status : Status} (h : ¬c → a.Within l s) :
    (if c then Answer.refuse status else a).Within l s := by
  split
  · trivial
  · next hc => exact h hc

/-- An answer that is taken whatever a test says. -/
theorem Answer.within_ite {c : Prop} [Decidable c] (ha : a.Within l s) (hb : b.Within l s) : (if c then a else b).Within l s := by
  split
  · exact ha
  · exact hb

theorem Answer.Within.mono (h : a.Within l s) (k : ∀ b ∈ l, b ∈ m) : a.Within m s := by
  cases a with
  | refuse => trivial
  | taken after payload => exact ChangesOnly.mono h k

end

/-- A request changes the ports and what its own rule changes. -/
theorem serve_changes {owner : Option Port} {code : Nat} {p : Port} {fields : List Byte} {own : State → Answer} {s t : State}
    {l : List Block} (h : (own s).Within l s) (ht : serve owner code p fields own s = .next t) : ChangesOnly (.pif :: l) s t := by
  rcases serve_cases owner code p fields own s with ⟨-, hs⟩ | ⟨-, ⟨status, hs⟩ | ⟨after, payload, ho, hs⟩⟩ <;>
    rw [hs] at ht <;> cases ht
  · exact .refl _ s
  · exact (alterPort_changes _ _ s).mono (by simp)
  · rw [ho] at h
    exact (ChangesOnly.mono h fun _ => List.mem_cons_of_mem _).trans ((alterPort_changes _ _ after).mono (by simp))

/-- An event taken out of reset changes what it does, and none is taken in reset. -/
theorem unlessHeld_changes {f : State → State} {s t : State} {l : List Block} (h : ChangesOnly l s (f s))
    (ht : unlessHeld f s = .next t) : ChangesOnly l s t := by
  unfold unlessHeld at ht
  split at ht <;> cases ht
  · exact .refl _ s
  · exact h

theorem onlyIf_changes {occasion : Bool} {f : State → State} {s : State} {l : List Block} (h : ChangesOnly l s (f s)) :
    ChangesOnly l s (onlyIf occasion f s) := by
  cases occasion
  · exact .refl _ s
  · exact h

/-! ### Requests of the field line and the metering -/

theorem setFieldLine_within (fields : List Byte) (s : State) : (setFieldLine fields s).Within [.fsu] s :=
  Answer.within_guard fun _ => withFsu_changes s _

theorem dewPointsLost_changes (n : Fin 16) (s : State) : ChangesOnly [.dsq] s (dewPointsLost n s) :=
  ChangesOnly.overFin (fun t s => by split; exact alterTrain_changes t _ s; exact .refl _ s) s

theorem channelsLost_changes (n : Fin 16) (before s : State) : ChangesOnly [.dir, .dsq] s (channelsLost n before s) :=
  ((bandsFollow_changes before s).mono (by decide)).trans ((dewPointsLost_changes n _).mono (by decide))

theorem restartSlot_changes (n : Fin 16) (s : State) : ChangesOnly slotBlocks s (restartSlot n s) :=
  ((((withdrawSlot_changes n s).trans (alterSlot_changes n _ _)).mono (by decide)).trans
    ((channelsLost_changes n s _).mono (by decide))).trans
      (((scheduleVisit_changes n _ _).mono (by decide)).trans ((slotEventEnds_changes s n _).mono (by decide)))

theorem setSlot_within (fields : List Byte) (s : State) : (setSlot fields s).Within slotBlocks s := by
  unfold setSlot
  split
  · next n settings _ _ =>
    have stored : ChangesOnly slotBlocks s (alterSlot n (fun sl => { sl with settings := settings }) s) :=
      (alterSlot_changes n _ s).mono (by decide)
    refine Answer.within_guard fun _ => Answer.within_guard fun _ => ?_
    show ChangesOnly slotBlocks s (if _ then _ else _)
    split
    · exact stored
    · exact stored.trans (restartSlot_changes n _)
  · trivial

theorem enable_changes (n : Fin 16) (s : State) : ChangesOnly slotBlocks s (enable n s) :=
  (((alterSlot_changes n _ s).mono (by decide)).trans ((channelsLost_changes n s _).mono (by decide))).trans
    (((scheduleVisit_changes n _ _).mono (by decide)).trans ((slotEventEnds_changes s n _).mono (by decide)))

theorem enableSlot_within (fields : List Byte) (s : State) : (enableSlot fields s).Within slotBlocks s := by
  unfold enableSlot
  split
  · trivial
  · exact Answer.within_guard fun _ => Answer.within_guard fun _ => enable_changes _ s

theorem disable_changes (n : Fin 16) (s : State) : ChangesOnly slotBlocks s (disable n s) :=
  ((((disablePoint_changes n s).mono (by decide)).trans ((withdrawSlot_changes n _).mono (by decide))).trans
    ((alterSlot_changes n _ _).mono (by decide))).trans
      (((channelsLost_changes n s _).mono (by decide)).trans ((slotEventEnds_changes s n _).mono (by decide)))

theorem disableSlot_within (fields : List Byte) (s : State) : (disableSlot fields s).Within slotBlocks s := by
  unfold disableSlot
  split
  · trivial
  · exact Answer.within_guard fun _ => disable_changes _ s

theorem writeScript_within (fields : List Byte) (s : State) : (writeScript fields s).Within [.fsu] s :=
  Answer.within_guard fun _ => Answer.within_guard fun _ => withFsu_changes s _

/-- What a SET-POINT can change. -/
abbrev pointBlocks : List Block := [.mtu, .cdt, .dir, .cpd, .dsq, .nfu, .freeReads]

theorem rebindPoint_changes (k : Fin 7) (slot : Option (Fin 16)) (weight ceiling capacity : Nat) (s : State) :
    ChangesOnly pointBlocks s (rebindPoint k slot weight ceiling capacity s) := by
  have bands (s : State) : ChangesOnly pointBlocks s (bandOfPoint k s) :=
    ChangesOnly.overFin (fun c s => by
      split
      · exact (evaluateBand_changes c s).mono (by decide)
      · exact .refl _ s) s
  have reported (before s : State) (l : List (Fin 56 × Bool)) : ChangesOnly pointBlocks s (quietReported before (reportAll l s)) := by
    have told : ChangesOnly pointBlocks s (reportAll l s) := (reportAll_changes l s).mono (by decide)
    unfold quietReported
    split
    · exact told
    · exact told.trans ((testCompletion_changes _).mono (by decide))
  exact ((((unbindPoint_changes k s).trans (alterPoint_changes k _ _)).mono (by decide)).trans (bands _)).trans (reported s _ _)

theorem setPoint_within (fields : List Byte) (s : State) : (setPoint fields s).Within pointBlocks s := by
  unfold setPoint
  split
  · unfold configurePoint
    split
    · trivial
    · exact Answer.within_guard fun _ => Answer.within_guard fun _ =>
        Answer.within_ite ((alterPoint_changes _ _ s).mono (by decide)) (rebindPoint_changes _ _ _ _ _ s)
  · trivial

theorem setBeta_within (fields : List Byte) (s : State) : (setBeta fields s).Within [.mtu] s :=
  Answer.within_guard fun _ => withMtu_changes s _

theorem setCv_within (fields : List Byte) (s : State) : (setCv fields s).Within [.mtu] s := by
  unfold setCv
  split
  · trivial
  · exact Answer.within_guard fun _ => Answer.within_guard fun _ => Answer.within_guard fun _ => withMtu_changes s _

/-! ### Requests of the condition table and of the caverns -/

theorem acknowledge_changes (p : Port) (entries : List AckEntry) (s : State) : ChangesOnly [.cdt, .nfu] s (acknowledge p entries s) := by
  unfold acknowledge
  dsimp only
  split
  · exact ((withCdt_changes s _).mono (by decide)).trans (refirm_changes _)
  · exact (withCdt_changes s _).mono (by decide)

theorem ackConditions_within (p : Port) (fields : List Byte) (s : State) : (ackConditions p fields s).Within [.cdt, .nfu] s := by
  refine Answer.within_guard fun _ => ?_
  split
  · trivial
  · exact Answer.within_guard fun _ => Answer.within_guard fun _ => acknowledge_changes p _ s

theorem setDerateTable_within (fields : List Byte) (s : State) : (setDerateTable fields s).Within [.cdt] s :=
  Answer.within_guard fun _ => withCdt_changes s _

theorem setAlert_within (p : Port) (fields : List Byte) (s : State) : (setAlert p fields s).Within [.cdt] s := by
  unfold setAlert
  split
  · trivial
  · exact Answer.within_guard fun _ => withCdt_changes s _

theorem readEvents_within (p : Port) (s : State) : (readEvents p s).Within [.cdt] s := withCdt_changes s _

theorem storeCavern_changes (k : Fin 4) (settings : Cavern → Cavern) (s : State) :
    ChangesOnly [.cdt, .dir, .nfu, .freeReads] s (storeCavern k settings s) :=
  (((withDir_changes s _).trans (evaluateBand_changes k _)).mono (by decide)).trans ((reportAll_changes _ _).mono (by decide))

theorem setCavern_within (fields : List Byte) (s : State) : (setCavern fields s).Within [.cdt, .dir, .nfu, .freeReads] s := by
  unfold setCavern
  split
  · exact Answer.within_guard fun _ => storeCavern_changes _ _ s
  · trivial

theorem setCavernInventory_within (fields : List Byte) (s : State) : (setCavernInventory fields s).Within [.dir] s := by
  unfold setCavernInventory
  split
  · trivial
  · exact Answer.within_guard fun _ => withDir_changes s _

/-- What a change of the site direction can change. -/
abbrev directionBlocks : List Block := [.cdt, .dir, .cpd, .dsq, .nfu]

theorem overrun_changes (c : Changeover) (s : State) : ChangesOnly directionBlocks s (overrun c s) :=
  ((withDir_changes s _).mono (by decide)).trans ((report_changes _ _ _).mono (by decide))

theorem storeSite_changes (c : SiteSettings) (s : State) : ChangesOnly directionBlocks s (storeSite c s) := by
  have completes (old : SiteSettings) (s : State) : ChangesOnly directionBlocks s (siteCompletes old s) := by
    unfold siteCompletes
    split
    · exact .refl _ s
    · exact testCompletion_changes s
  have overruns (old : SiteSettings) (s : State) : ChangesOnly directionBlocks s (siteOverruns old s) := by
    unfold siteOverruns
    split
    · split
      · exact overrun_changes _ s
      · exact .refl _ s
    · exact .refl _ s
  exact ((((withDir_changes s _).mono (by decide)).trans (completes _ _)).trans (overruns _ _)).trans (dutyEvaluation_changes _)

theorem setSite_within (fields : List Byte) (s : State) : (setSite fields s).Within directionBlocks s :=
  Answer.within_guard fun _ => storeSite_changes _ s

/-! ### Requests of the units and the trains -/

theorem setDuty_within (fields : List Byte) (s : State) : (setDuty fields s).Within directionBlocks s :=
  Answer.within_guard fun _ => ((withCpd_changes s _).mono (by decide)).trans (dutyEvaluation_changes _)

theorem leaveFaulted_changes (u : Fin 4) (leave : UnitRecord → UnitRecord) (s : State) :
    ChangesOnly directionBlocks s (leaveFaulted u leave s) :=
  (unitsReported_changes (((alterUnit_changes u _ s).mono (by decide)).trans ((report_changes _ _ _).mono (by decide)))).trans
    (dutyEvaluation_changes _)

theorem takeOutOfService_changes (u : Fin 4) (s : State) : ChangesOnly directionBlocks s (takeOutOfService u s) := by
  have unit (f : UnitRecord → UnitRecord) (s : State) : ChangesOnly directionBlocks s (alterUnit u f s) :=
    (alterUnit_changes u f s).mono (by decide)
  refine (unit (fun r => { r with inService := false }) s).trans ?_
  unfold takeOutOfService
  dsimp only
  split
  · exact .refl _ _
  · exact changeUnit_changes u _ _ _
  · exact changeUnit_changes u _ _ _
  · exact leaveFaulted_changes u _ _
  · exact changeUnit_changes u _ _ _
  · exact changeUnit_changes u _ _ _
  · exact unit _ _

theorem returnToService_changes (u : Fin 4) (s : State) : ChangesOnly directionBlocks s (returnToService u s) := by
  have unit (f : UnitRecord → UnitRecord) (s : State) : ChangesOnly directionBlocks s (alterUnit u f s) :=
    (alterUnit_changes u f s).mono (by decide)
  refine (unit (fun r => { r with inService := true }) s).trans ?_
  unfold returnToService
  dsimp only
  split
  · exact changeUnit_changes u _ _ _
  · exact unit _ _
  · exact .refl _ _

theorem setUnit_within (fields : List Byte) (s : State) : (setUnit fields s).Within directionBlocks s := by
  unfold setUnit
  split
  · show ChangesOnly directionBlocks s (if _ then _ else _)
    split
    · exact returnToService_changes _ s
    · exact takeOutOfService_changes _ s
  · trivial

theorem resetUnit_within (fields : List Byte) (s : State) : (resetUnit fields s).Within directionBlocks s := by
  unfold resetUnit
  split
  · trivial
  · exact Answer.within_guard fun _ => leaveFaulted_changes _ _ s

theorem writeStep_within (fields : List Byte) (s : State) : (writeStep fields s).Within [.dsq] s := by
  unfold writeStep
  split
  · exact Answer.within_guard fun _ => withDsq_changes s _
  · trivial

theorem giveBank_changes (t b : Fin 2) (s : State) : ChangesOnly [.dsq] s (giveBank t b s) := by
  unfold giveBank
  split
  · exact (alterTrain_changes t _ s).trans (alterTrain_changes t _ _)
  · exact alterTrain_changes t _ s

theorem selectBank_within (fields : List Byte) (s : State) : (selectBank fields s).Within [.dsq] s := by
  unfold selectBank
  split
  · exact Answer.within_guard fun _ => giveBank_changes _ _ s
  · trivial

/-- What a request of a train can change. -/
abbrev trainBlocks : List Block := [.cdt, .dsq, .nfu, .freeReads]

theorem storeTrain_changes (t : Fin 2) (c : TrainSettings) (s : State) : ChangesOnly trainBlocks s (storeTrain t c s) := by
  have train (f : Train → Train) (s : State) : ChangesOnly trainBlocks s (alterTrain t f s) := (alterTrain_changes t f s).mono (by decide)
  have judged (old : Train) (s : State) : ChangesOnly trainBlocks s (judgeSettings old t s) := by
    unfold judgeSettings
    dsimp only
    split
    · exact train _ s
    · split
      · exact train _ s
      · exact .refl _ s
  unfold storeTrain
  dsimp only
  split
  · exact (((train _ s).trans (train _ _)).trans (judged _ _)).trans ((reportAll_changes _ _).mono (by decide))
  · exact ((train _ s).trans (judged _ _)).trans ((reportAll_changes _ _).mono (by decide))

theorem setTrain_within (fields : List Byte) (s : State) : (setTrain fields s).Within trainBlocks s := by
  unfold setTrain
  split
  · unfold configureTrain
    split
    · trivial
    · exact Answer.within_guard fun _ => Answer.within_guard fun _ => storeTrain_changes _ _ s
  · trivial

theorem resetTrain_within (fields : List Byte) (s : State) : (resetTrain fields s).Within trainBlocks s := by
  unfold resetTrain
  split
  · trivial
  · exact Answer.within_guard fun _ => (((alterTrain_changes _ _ s).trans (alterTrain_changes _ _ _)).mono (by decide)).trans
      ((reportAll_changes _ _).mono (by decide))

/-! ### Requests of the accounts and the nominations -/

theorem openAccount_within (fields : List Byte) (s : State) : (openAccount fields s).Within [.act] s := by
  unfold openAccount
  split
  · trivial
  · exact Answer.within_guard fun _ => Answer.within_guard fun _ => Answer.within_guard fun _ => withAct_changes s _

theorem setRights_within (fields : List Byte) (s : State) : (setRights fields s).Within [.act] s := by
  unfold setRights
  split
  · trivial
  · exact Answer.within_guard fun _ => Answer.within_guard fun _ => Answer.within_guard fun _ => withAct_changes s _

theorem closeAccount_within (fields : List Byte) (s : State) : (closeAccount fields s).Within [.act] s := by
  unfold closeAccount
  split
  · trivial
  · exact Answer.within_guard fun _ => withAct_changes s _

theorem transfer_within (fields : List Byte) (s : State) : (transfer fields s).Within [.act] s := by
  unfold transfer
  split
  · exact Answer.within_guard fun _ => Answer.within_guard fun _ => Answer.within_guard fun _ => Answer.within_guard fun _ =>
      (withAct_changes s _).trans (withAct_changes _ _)
  · trivial

theorem settleSuspense_within (fields : List Byte) (s : State) : (settleSuspense fields s).Within [.act] s := by
  unfold settleSuspense
  split
  · trivial
  · exact Answer.within_guard fun _ => Answer.within_guard fun _ => Answer.within_guard fun _ =>
      (withAct_changes s _).trans (withAct_changes _ _)

theorem nominateRun_within (a : Fin 16) (r : Run) (quantity : Option Int) (s : State) : (nominateRun a r quantity s).Within [.nfu] s :=
  Answer.within_guard fun _ => Answer.within_guard fun _ => Answer.within_guard fun _ => Answer.within_guard fun _ => withNfu_changes s _

theorem nominate_within (fields : List Byte) (s : State) : (nominate fields s).Within [.nfu] s := by
  unfold nominate
  split
  · exact nominateRun_within _ _ _ s
  · trivial

theorem nominateDay_within (fields : List Byte) (s : State) : (nominateDay fields s).Within [.nfu] s := by
  unfold nominateDay
  split
  · exact nominateRun_within _ _ _ s
  · trivial

theorem nominateRest_within (fields : List Byte) (s : State) : (nominateRest fields s).Within [.nfu] s := by
  unfold nominateRest
  split
  · trivial
  · refine Answer.within_guard fun _ => Answer.within_guard fun _ => Answer.within_guard fun _ => ?_
    split
    · trivial
    · exact withNfu_changes s _

theorem cancelNomination_within (fields : List Byte) (s : State) : (cancelNomination fields s).Within [.nfu] s := by
  unfold cancelNomination
  split
  · exact nominateRun_within _ _ _ s
  · trivial

theorem setLead_within (fields : List Byte) (s : State) : (setLead fields s).Within [.nfu] s :=
  Answer.within_guard fun _ => withNfu_changes s _

theorem setRatchet_within (fields : List Byte) (s : State) : (setRatchet fields s).Within [.nfu] s := by
  unfold setRatchet
  dsimp only
  split
  · trivial
  · exact Answer.within_guard fun _ => Answer.within_guard fun _ => Answer.within_guard fun _ => withNfu_changes s _

/-! ### READ and the transactions that are no request -/

theorem place_changes (p : Port) (status : Status) (fields : List Byte) (s : State) : ChangesOnly [.pif] s (place p status fields s) :=
  alterPort_changes p _ s

theorem driveIdle_changes (p : Port) (bytes : Nat) (s : State) : ChangesOnly [.pif] s (driveIdle p bytes s) := alterPort_changes p _ s

theorem refuseRead_changes (p : Port) (status : Status) (s : State) : ChangesOnly [.pif] s (refuseRead p status s) :=
  (alterPort_changes p _ s).trans (place_changes p _ _ _)

theorem takeRead_changes (p : Port) (fields : List Byte) (s : State) : ChangesOnly [.pif, .freeReads] s (takeRead p fields s) := by
  have piece (image : ReadImage) (k : Nat) (s : State) : ChangesOnly [.pif, .freeReads] s (answerPiece p image k s) :=
    (alterPort_changes p _ s).mono (by decide)
  have refuse (status : Status) (s : State) : ChangesOnly [.pif, .freeReads] s (refuseRead p status s) :=
    (refuseRead_changes p status s).mono (by decide)
  have continued (c : Nat) (sel : List Byte) (k : Nat) : ChangesOnly [.pif, .freeReads] s (continueRead p c sel k s) := by
    unfold continueRead
    split
    · split
      · split
        · exact piece _ k s
        · exact (place_changes p _ _ s).mono (by decide)
      · exact refuse _ s
    · exact refuse _ s
  unfold takeRead
  dsimp only
  split
  · exact refuse _ s
  · split
    · exact piece _ 0 s
    · exact continued _ _ _
  · split
    · exact ((withFreeReads_changes s _).mono (by decide)).trans (piece _ 0 _)
    · exact continued _ _ _

theorem execRead_changes {p : Port} {fields : List Byte} {s t : State} (h : execRead p fields s = .next t) :
    ChangesOnly [.pif, .freeReads] s t := by
  refine unlessHeld_changes ?_ h
  split
  · exact (takeRead_changes p fields s).trans ((driveIdle_changes p _ _).mono (by decide))
  · exact ((refuseRead_changes p _ s).trans (driveIdle_changes p _ _)).mono (by decide)

theorem execUnknownRequest_changes {p : Port} {code length : Byte} {fields : List Byte} {s t : State}
    (h : execUnknownRequest p code length fields s = .next t) : ChangesOnly [.pif] s t := by
  refine unlessHeld_changes ?_ h
  split
  · rw [conclude_refuse]
    exact alterPort_changes p _ s
  · exact .refl _ s

theorem execCollect_changes {p : Port} {bytes : Nat} {s t : State} (h : execCollect p bytes s = .next t) : ChangesOnly [.pif] s t :=
  unlessHeld_changes (onlyIf_changes (alterPort_changes p _ s)) h

theorem execIgnoredTransaction_changes {p : Port} {received : List Byte} {spansReset : Bool} {s t : State}
    (h : execIgnoredTransaction p received spansReset s = .next t) : ChangesOnly [.pif] s t :=
  unlessHeld_changes (onlyIf_changes (driveIdle_changes p _ s)) h

theorem hold_changes (cause : HoldCause) (s : State) : ChangesOnly [.pif] s (hold cause s) := by
  cases cause <;> exact withPif_changes s _

/-! ### The events of the field line -/

theorem engineTake_changes (s : State) : ChangesOnly [.fsu] s (engineTake s) := by
  unfold engineTake
  split
  · split
    · exact (withFsu_changes s _).trans (alterSlot_changes _ _ _)
    · exact .refl _ s
  · exact .refl _ s

theorem requestSent_changes (s : State) : ChangesOnly [.fsu] s (requestSent s) := by
  unfold requestSent
  split
  · split
    · exact withFsu_changes s _
    · exact .refl _ s
  · exact .refl _ s

theorem miss_changes (e : Entry) (s : State) : ChangesOnly slotBlocks s (miss e s) := by
  unfold miss
  split
  · exact (queueEntry_changes _ s).mono (by decide)
  · exact failVisit_changes _ s

theorem writeDone_changes (e : Entry) (s : State) : ChangesOnly slotBlocks s (writeDone e s) := by
  unfold writeDone
  dsimp only
  split
  · split
    · exact (queueEntry_changes _ s).mono (by decide)
    · exact ((alterSlot_changes _ _ s).trans (queueEntry_changes _ _)).mono (by decide)
  · exact .refl _ s

theorem readyAnswered_changes (e : Entry) (word : Nat) (s : State) : ChangesOnly slotBlocks s (readyAnswered e word s) := by
  unfold readyAnswered
  dsimp only
  split
  · exact (queueEntry_changes _ s).mono (by decide)
  · split
    · exact (queueEntry_changes _ s).mono (by decide)
    · exact failVisit_changes _ s

theorem dataAnswered_changes (e : Entry) (words : List WordBytes) (s : State) : ChangesOnly slotBlocks s (dataAnswered e words s) := by
  unfold dataAnswered
  split
  · exact readyAnswered_changes e _ s
  · exact succeedVisit_changes _ _ s
  · exact .refl _ s

theorem endTransaction_changes {f : InFlight} {outcome : State → State} (h : ∀ s, ChangesOnly slotBlocks s (outcome s)) (s : State) :
    ChangesOnly slotBlocks s (endTransaction f outcome s) := by
  have idle : ChangesOnly slotBlocks s (s.withFsu { s.fsu with engine := .idle }) := (withFsu_changes s _).mono (by decide)
  unfold endTransaction
  dsimp only
  split
  · exact idle
  · exact idle.trans (h _)

/-- A reply changes what its outcome changes, and the receiver. -/
theorem replyEvent_changes {received : List Byte} {outcome : Reply → Option (Entry → State → State)}
    (h : ∀ r g, outcome r = some g → ∀ e s, ChangesOnly slotBlocks s (g e s)) (s : State) :
    ChangesOnly slotBlocks s (replyEvent received outcome s) := by
  have heard : ChangesOnly slotBlocks s (bytesHeard received s) := (bytesHeard_changes received s).mono (by decide)
  unfold replyEvent
  split
  · split
    · exact heard
    · split
      · next hg =>
        exact ((receiverHeard_changes s).mono (by decide)).trans (endTransaction_changes (h _ _ hg _) _)
      · exact .refl _ s
  · exact heard

theorem execDataReply_changes {received : List Byte} {s t : State} (h : execDataReply received s = .next t) :
    ChangesOnly slotBlocks s t := by
  refine unlessHeld_changes (replyEvent_changes ?_ s) h
  intro r g hg
  split at hg <;> cases hg
  · exact fun e => dataAnswered_changes e _
  · exact miss_changes

theorem execDoneReply_changes {received : List Byte} {s t : State} (h : execDoneReply received s = .next t) :
    ChangesOnly slotBlocks s t := by
  refine unlessHeld_changes (replyEvent_changes ?_ s) h
  intro r g hg
  split at hg <;> cases hg
  · exact writeDone_changes
  · exact miss_changes

theorem execErrorReply_changes {received : List Byte} {s t : State} (h : execErrorReply received s = .next t) :
    ChangesOnly slotBlocks s t := by
  refine unlessHeld_changes (replyEvent_changes ?_ s) h
  intro r g hg
  split at hg <;> cases hg
  · exact fun e => faultSlot_changes e.slot _
  · exact miss_changes

theorem execBadReplyFrame_changes {received : List Byte} {s t : State} (h : execBadReplyFrame received s = .next t) :
    ChangesOnly slotBlocks s t := by
  refine unlessHeld_changes (replyEvent_changes ?_ s) h
  intro r g hg
  split at hg <;> cases hg
  exact miss_changes

theorem execReplyWindowExpiry_changes {s t : State} (h : execReplyWindowExpiry s = .next t) : ChangesOnly slotBlocks s t := by
  refine unlessHeld_changes ?_ h
  split
  · exact endTransaction_changes (miss_changes _) s
  · exact .refl _ s

/-! ### The events of the changeover, the units and the trains -/

theorem minimumExpires_changes (s : State) : ChangesOnly directionBlocks s (minimumExpires s) := by
  unfold minimumExpires
  split
  · split
    · exact testCompletion_changes s
    · exact .refl _ s
  · exact .refl _ s

theorem limitExpires_changes (s : State) : ChangesOnly directionBlocks s (limitExpires s) := by
  unfold limitExpires
  split
  · split
    · exact overrun_changes _ s
    · exact .refl _ s
  · exact .refl _ s

theorem takeFeedback_changes (u : Fin 4) (level : Bool) (s : State) : ChangesOnly directionBlocks s (takeFeedback u level s) := by
  refine ((alterUnit_changes u (fun r => { r with feedback := level }) s).mono (by decide)).trans ?_
  unfold takeFeedback
  dsimp only
  split
  · exact faultUnit_changes _ u _
  · unfold cooldownFeedback
    split
    · exact changeUnit_changes u _ _ _
    · exact faultUnit_changes _ u _
  · exact faultUnit_changes _ u _
  · exact changeUnit_changes u _ _ _
  · exact faultUnit_changes _ u _
  · exact changeUnit_changes u _ _ _
  · exact .refl _ _

theorem startFails_changes (u : Fin 4) (s : State) : ChangesOnly directionBlocks s (startFails u s) := by
  unfold startFails
  split
  · exact changeUnit_changes u _ _ s
  · exact faultUnit_changes _ u s

theorem cooldownEnds_changes (u : Fin 4) (s : State) : ChangesOnly directionBlocks s (cooldownEnds u s) := by
  unfold cooldownEnds
  split
  · exact faultUnit_changes _ u s
  · exact changeUnit_changes u _ _ s

theorem dropStartEntry_changes (u : Fin 4) (s : State) : ChangesOnly directionBlocks s (dropStartEntry u s) :=
  ((alterUnit_changes u _ s).mono (by decide)).trans (dutyEvaluation_changes _)

theorem takeInput_changes (t : Fin 2) (i : Fin 4) (level : Bool) (s : State) : ChangesOnly [.dsq] s (takeInput t i level s) := by
  unfold takeInput
  dsimp only
  split
  · exact (alterTrain_changes t _ s).trans (alterTrain_changes t _ _)
  · exact alterTrain_changes t _ s

theorem stepTimeEnds_changes (t : Fin 2) (s : State) : ChangesOnly [.dsq] s (stepTimeEnds t s) := by
  unfold stepTimeEnds
  split
  · split
    · exact alterTrain_changes t _ s
    · exact alterTrain_changes t _ s
  · exact .refl _ s

theorem inputTimeoutEnds_changes (t : Fin 2) (s : State) : ChangesOnly [.cdt, .dsq, .nfu] s (inputTimeoutEnds t s) := by
  unfold inputTimeoutEnds
  split
  · split
    · exact (alterTrain_changes t _ s).mono (by decide)
    · exact faultTrain_changes _ t s
  · exact .refl _ s

theorem dwellEnds_changes (t : Fin 2) (s : State) : ChangesOnly [.cdt, .dsq, .nfu] s (dwellEnds t s) := by
  unfold dwellEnds
  split
  · split
    · exact (alterTrain_changes t _ s).mono (by decide)
    · split
      · exact inputTimeoutEnds_changes t s
      · exact (alterTrain_changes t _ s).mono (by decide)
  · exact .refl _ s

end Sys2Proof.Machine

/-! SUPPORT. The gas-day clock and the hour history: what a close, the start of an hour, a SET-CLOCK, a trim, a step of the time base and
a reset make of them. -/

namespace Sys2Proof.Machine

open Sys2Proof.Safety

/-! ### The hours of the gas day (R3, R6) -/

theorem hourInRange_next {h : HourId} (hr : hourInRange h) : hourInRange h.next := by
  obtain ⟨hday, hhour⟩ := hr
  unfold HourId.next
  split
  · exact ⟨Nat.mod_lt _ (by decide), (by decide : 0 < 24)⟩
  · exact ⟨hday, show h.hour + 1 < 24 by omega⟩

theorem hourInRange_previous {h : HourId} (hr : hourInRange h) : hourInRange h.previous := by
  obtain ⟨hday, hhour⟩ := hr
  unfold HourId.previous
  split
  · exact ⟨Nat.mod_lt _ (by decide), (by decide : 23 < 24)⟩
  · exact ⟨hday, show h.hour - 1 < 24 by omega⟩

/-- The hour before and the hour after undo each other. -/
theorem next_previous {h : HourId} (hr : hourInRange h) : h.previous.next = h := by
  obtain ⟨day, hour⟩ := h
  obtain ⟨hday, hhour⟩ := hr
  simp only at hday hhour
  by_cases h0 : hour = 0
  · simp only [HourId.previous, HourId.next, h0, if_true, HourId.mk.injEq, and_true]
    omega
  · simp only [HourId.previous, HourId.next, h0, if_false]
    rw [if_neg (by omega)]
    simp only [HourId.mk.injEq, true_and]
    omega

theorem clockHour_inRange {s : State} (hs : ClockInRange s) : hourInRange (clockHour s) := by
  obtain ⟨hday, hseconds, -, -⟩ := hs
  exact ⟨hday, show s.clock.seconds / 3600 < 24 by omega⟩

/-- The open hour is the one after the last closed hour, when there is one. -/
theorem openHour_of_lastClosed {s : State} {l : HourId} (hr : clockRunning s = true) (hl : s.clock.lastClosed = some l) :
    openHour s = some l.next := by
  simp [openHour, hr, hl]

theorem openPosition_of_lastClosed {s : State} {l : HourId} (hr : clockRunning s = true) (hl : s.clock.lastClosed = some l) :
    openPosition s = some (todayPosition l.next.hour) := by
  simp [openPosition, openHour_of_lastClosed hr hl]

theorem openHour_inRange {s : State} {h : HourId} (hs : ClockInRange s) (ho : openHour s = some h) : hourInRange h := by
  unfold openHour at ho
  split at ho
  · split at ho <;> cases ho
    · next hl => exact hourInRange_next (hs.2.2.2 _ hl)
    · exact clockHour_inRange hs
  · cases ho

/-- The open hour depends on the clock alone. -/
theorem openHour_congr {s t : State} (h : t.clock = s.clock) : openHour t = openHour s := by
  unfold openHour clockHour clockRunning
  rw [h]

theorem openPosition_congr {s t : State} (h : t.clock = s.clock) : openPosition t = openPosition s := by
  simp only [openPosition, openHour_congr h]

/-! ### The history (R186) -/

theorem length_appendRecord {history : List HourRecord} (r : HourRecord) (h : history.length ≤ Config.historyLength) :
    (appendRecord history r).length = min 48 (history.length + 1) := by
  simp only [Config.historyLength] at h
  unfold appendRecord
  split
  · next hlt =>
    simp only [Config.historyLength] at hlt
    simp only [List.length_append, List.length_singleton]
    omega
  · next hge =>
    simp only [Config.historyLength] at hge ⊢
    simp only [List.length_append, List.length_drop, List.length_singleton]
    omega

/-- The new record is the newest of the history. -/
@[simp] theorem getLast_appendRecord (history : List HourRecord) (r : HourRecord) : (appendRecord history r).getLast? = some r := by
  unfold appendRecord
  split <;> exact List.getLast?_concat

/-! ### The close of an hour (R175, R186, R187) -/

theorem alterHour_changes (p : Fin 72) (f : HourCell → HourCell) (s : State) : ChangesOnly [.nfu] s (alterHour p f s) :=
  withNfu_changes s _

theorem vacancy_changes (s : State) : ChangesOnly [.act, .nfu] s (vacancy s) :=
  ((withAct_changes s _).mono (by decide)).trans ((withNfu_changes _ _).mono (by decide))

theorem postClose_changes (p : Fin 72) (m : HourMetering) (allocated fuel : Vector Int 16) (s : State) :
    ChangesOnly [.cdt, .dir, .act, .nfu] s (postClose p m allocated fuel s) :=
  ((((withAct_changes s _).mono (by decide)).trans ((alterHour_changes p _ _).mono (by decide))).trans
    ((withDir_changes _ _).mono (by decide))).trans ((report_changes _ _ _).mono (by decide))

theorem clearGathered_changes (s : State) : ChangesOnly [.mtu, .dsq] s (clearGathered s) :=
  ((withMtu_changes s _).mono (by decide)).trans ((withDsq_changes _ _).mono (by decide))

theorem bookOpenGaps_changes (s : State) : ChangesOnly [.mtu] s (bookOpenGaps s) := ChangesOnly.overFin (bookGap_changes true) s

theorem rolloverAfter_changes (h : HourId) (s : State) : ChangesOnly [.cdt, .nfu] s (rolloverAfter h s) := by
  unfold rolloverAfter
  split
  · exact rollover_changes s
  · exact .refl _ s

/-- The confirmations, allocations and fuel of the hour `h` that a close forms from the state the gathering left. -/
abbrev closeQuantities (h : HourId) (s : State) : Vector Int 16 := closingConfirmed s (todayPosition h.hour)
abbrev closeAllocations (h : HourId) (g : Gathered) (s : State) : Vector Int 16 :=
  allocate s (closeQuantities h s) (measuredNet g.metering)
abbrev closeFuel (h : HourId) (g : Gathered) (s : State) : Vector Int 16 :=
  shareFuel s (closeQuantities h s) (closeAllocations h g s) (energyFuel g.metering)

/-- The record that the close of the hour `h` forms. -/
abbrev closingRecord (h : HourId) (g : Gathered) (s : State) : HourRecord :=
  hourRecord s h (todayPosition h.hour) g (closeQuantities h s) (closeAllocations h g s) (closeFuel h g s)

/-- The parts of the close that post, up to the report of condition 52. -/
abbrev closePosted (h : HourId) (g : Gathered) (s : State) : State :=
  postClose (todayPosition h.hour) g.metering (closeAllocations h g s) (closeFuel h g s) s

theorem completeClose_eq (h : HourId) (g : Gathered) (s : State) :
    completeClose h g s = finishClose h (keepRecord (closingRecord h g s) (closePosted h g s)) := rfl

/-- The completion before the last closed hour is written. -/
theorem finishClose_tested_changes (s : State) :
    ChangesOnly [.cdt, .act, .nfu] s (vacancy (setEventOps evHourClosedOps (setEventCom evHourClosedCom s))) :=
  (((setEventCom_changes _ s).trans (setEventOps_changes _ _)).mono (by decide)).trans ((vacancy_changes _).mono (by decide))

theorem finishClose_clock (h : HourId) (s : State) : (finishClose h s).clock = { s.clock with lastClosed := some h } := by
  have tested := clock_of_changes (finishClose_tested_changes s) (by decide)
  simp only [finishClose, State.withClock_clock, tested]

theorem finishClose_cau (h : HourId) (s : State) : (finishClose h s).cau = s.cau := by
  have tested := cau_of_changes (finishClose_tested_changes s) (by decide)
  simp only [finishClose, State.withClock_cau, tested]

theorem completeClose_clock (h : HourId) (g : Gathered) (s : State) :
    (completeClose h g s).clock = { s.clock with lastClosed := some h } := by
  have posted : (closePosted h g s).clock = s.clock := clock_of_changes (postClose_changes _ _ _ _ s) (by decide)
  rw [completeClose_eq, finishClose_clock]
  simp only [keepRecord, State.withCau_clock, posted]

theorem completeClose_cau (h : HourId) (g : Gathered) (s : State) :
    (completeClose h g s).cau = { s.cau with history := appendRecord s.cau.history (closingRecord h g s) } := by
  have posted : (closePosted h g s).cau = s.cau := cau_of_changes (postClose_changes _ _ _ _ s) (by decide)
  rw [completeClose_eq, finishClose_cau]
  simp only [keepRecord, State.withCau_cau, posted]

/-- The state from which the close of an hour at a boundary forms its quantities: open gaps booked, accumulators cleared. -/
abbrev gathered (s : State) : State := clearGathered (bookOpenGaps s)

theorem gathered_changes (s : State) : ChangesOnly [.mtu, .dsq] s (gathered s) :=
  ((bookOpenGaps_changes s).mono (by decide)).trans (clearGathered_changes _)

theorem closeHour_eq (h : HourId) (s : State) : closeHour h s = completeClose h (gather (bookOpenGaps s)) (gathered s) := rfl

theorem closeHour_clock (h : HourId) (s : State) : (closeHour h s).clock = { s.clock with lastClosed := some h } := by
  rw [closeHour_eq, completeClose_clock, clock_of_changes (gathered_changes s) (by decide)]

theorem closeHour_cau (h : HourId) (s : State) :
    (closeHour h s).cau
      = { s.cau with history := appendRecord s.cau.history (closingRecord h (gather (bookOpenGaps s)) (gathered s)) } := by
  rw [closeHour_eq, completeClose_cau, cau_of_changes (gathered_changes s) (by decide)]

/-! ### The start of an hour (R4, R161) -/

theorem changeLead_changes (p : Fin 72) (s : State) : ChangesOnly [.cdt, .nfu] s (changeLead p s) := by
  unfold changeLead
  split
  · exact .refl _ s
  · exact ((withNfu_changes s _).mono (by decide)).trans (firmRun_changes _ _ _)

/-- The start of an hour but for the end of the trimmed mark. -/
abbrev hourEvaluated (p : Fin 72) (s : State) : State := dutyEvaluation (takeTarget p (changeLead p (latchCv s)))

theorem hourEvaluated_changes (p : Fin 72) (s : State) : ChangesOnly [.mtu, .cdt, .dir, .cpd, .dsq, .nfu] s (hourEvaluated p s) :=
  ((((latchCv_changes s).mono (by decide)).trans ((changeLead_changes p _).mono (by decide))).trans
    ((takeTarget_changes p _).mono (by decide))).trans ((dutyEvaluation_changes _).mono (by decide))

theorem startHour_eq (p : Fin 72) (s : State) :
    startHour p s = (hourEvaluated p s).withClock { (hourEvaluated p s).clock with trimmed := false } := rfl

theorem startHour_clock (p : Fin 72) (s : State) : (startHour p s).clock = { s.clock with trimmed := false } := by
  rw [startHour_eq, State.withClock_clock, clock_of_changes (hourEvaluated_changes p s) (by decide)]

theorem startHour_cau (p : Fin 72) (s : State) : (startHour p s).cau = s.cau := by
  rw [startHour_eq, State.withClock_cau, cau_of_changes (hourEvaluated_changes p s) (by decide)]

/-! ### The hour boundary (R4) -/

theorem hourBoundaryEvent_of_open {s : State} {h : HourId} (ho : openHour s = some h) :
    hourBoundaryEvent s = startHour (todayPosition h.next.hour) (rolloverAfter h (closeHour h s)) := by
  simp only [hourBoundaryEvent, ho]

theorem hourBoundaryEvent_clock {s : State} {h : HourId} (ho : openHour s = some h) :
    (hourBoundaryEvent s).clock = { s.clock with lastClosed := some h, trimmed := false } := by
  rw [hourBoundaryEvent_of_open ho, startHour_clock, clock_of_changes (rolloverAfter_changes h _) (by decide), closeHour_clock]

/-- The record of the closed hour is the newest of the history. -/
theorem hourBoundaryEvent_cau {s : State} {h : HourId} (ho : openHour s = some h) :
    (hourBoundaryEvent s).cau
      = { s.cau with history := appendRecord s.cau.history (closingRecord h (gather (bookOpenGaps s)) (gathered s)) } := by
  rw [hourBoundaryEvent_of_open ho, startHour_cau, cau_of_changes (rolloverAfter_changes h _) (by decide), closeHour_cau]

/-! ### Ranges kept (R3, R6, R186) -/

/-- Gas-day time and the history are in their ranges. -/
abbrev TimeKept (s : State) : Prop := ClockInRange s ∧ HistoryWithin s

/-- The ranges rest on the clock and the history alone. -/
theorem timeKept_congr {s t : State} (hc : t.clock = s.clock) (hh : t.cau.history = s.cau.history) (hs : TimeKept s) : TimeKept t := by
  unfold TimeKept ClockInRange HistoryWithin at *
  rw [hc, hh]
  exact hs

/-- The ranges after a change of gas-day time that keeps the last closed hour. -/
theorem timeKept_of_times {s t : State} (hs : TimeKept s) (hday : t.clock.day < 65536) (hseconds : t.clock.seconds < 86400)
    (htenths : t.clock.tenths < 10) (hlast : t.clock.lastClosed = s.clock.lastClosed)
    (hh : t.cau.history = s.cau.history) : TimeKept t := by
  obtain ⟨⟨-, -, -, hrange⟩, hhistory⟩ := hs
  refine ⟨⟨hday, hseconds, htenths, by rwa [hlast]⟩, ?_⟩
  unfold HistoryWithin
  rwa [hh]

theorem withClock_timeKept {s : State} {c : Clock} (hs : TimeKept s) (hday : c.day < 65536) (hseconds : c.seconds < 86400)
    (htenths : c.tenths < 10) (hlast : c.lastClosed = s.clock.lastClosed) : TimeKept (s.withClock c) :=
  timeKept_of_times hs hday hseconds htenths hlast rfl

/-- A change of neither the clock nor the CAU keeps the ranges. -/
theorem timeKept_of_changes {s t : State} {l : List Block} (h : ChangesOnly l s t) (hc : Block.clock ∉ l) (hb : Block.cau ∉ l)
    (hs : TimeKept s) : TimeKept t :=
  timeKept_congr (clock_of_changes h hc) (by rw [cau_of_changes h hb]) hs

theorem clockInRange_of_lastClosed {s t : State} {h : HourId} {m : Bool} (hr : hourInRange h)
    (hc : t.clock = { s.clock with lastClosed := some h, trimmed := m }) (hs : ClockInRange s) : ClockInRange t := by
  obtain ⟨hday, hseconds, htenths, -⟩ := hs
  unfold ClockInRange
  rw [hc]
  exact ⟨hday, hseconds, htenths, fun _ he => by cases he; exact hr⟩

theorem historyWithin_append {s t : State} {r : HourRecord} (hc : t.cau.history = appendRecord s.cau.history r) (hs : HistoryWithin s) :
    HistoryWithin t := by
  unfold HistoryWithin
  rw [hc, length_appendRecord r hs]
  exact Nat.min_le_left _ _

theorem hourBoundaryEvent_timeKept {s : State} (hs : TimeKept s) : TimeKept (hourBoundaryEvent s) := by
  cases ho : openHour s with
  | none => simpa only [hourBoundaryEvent, ho] using hs
  | some h =>
    exact ⟨clockInRange_of_lastClosed (openHour_inRange hs.1 ho) (hourBoundaryEvent_clock ho) hs.1,
      historyWithin_append (by rw [hourBoundaryEvent_cau ho]) hs.2⟩

theorem closeMissed_timeKept {h : HourId} {s : State} (hr : hourInRange h) (hs : TimeKept s) : TimeKept (closeMissed h s) :=
  ⟨clockInRange_of_lastClosed hr (completeClose_clock h _ s) hs.1, historyWithin_append (by rw [closeMissed, completeClose_cau]) hs.2⟩

theorem missedHour_timeKept {h : HourId} {s : State} (hr : hourInRange h) (hs : TimeKept s) : TimeKept (missedHour h s) :=
  timeKept_of_changes (rolloverAfter_changes h _) (by decide) (by decide)
    (closeMissed_timeKept hr (timeKept_of_changes (firmAtZero_changes _ s) (by decide) (by decide) hs))

theorem closeMissedHours_timeKept {count : Nat} {h : HourId} {s : State} (hr : hourInRange h) (hs : TimeKept s) :
    TimeKept (closeMissedHours count h s) := by
  induction count generalizing h s with
  | zero => exact hs
  | succ count ih => exact ih (hourInRange_next hr) (missedHour_timeKept hr hs)

theorem writeLastClosed_timeKept {h : HourId} {s : State} (hr : hourInRange h) (hs : TimeKept s) : TimeKept (writeLastClosed h s) :=
  ⟨clockInRange_of_lastClosed hr rfl hs.1, hs.2⟩

theorem levelBooks_timeKept {set : HourId} {abandon : Bool} {s : State} (hr : hourInRange set) (hs : TimeKept s) :
    TimeKept (levelBooks set abandon s) := by
  unfold levelBooks
  split
  · exact writeLastClosed_timeKept (hourInRange_previous hr) hs
  · next h hl =>
    split
    · exact writeLastClosed_timeKept (hourInRange_previous hr) hs
    · exact closeMissedHours_timeKept (hourInRange_next (hs.1.2.2.2 h hl)) hs

theorem startHour_timeKept {p : Fin 72} {s : State} (hs : TimeKept s) : TimeKept (startHour p s) := by
  refine ⟨?_, by unfold HistoryWithin; rw [startHour_cau]; exact hs.2⟩
  unfold ClockInRange
  rw [startHour_clock]
  exact hs.1

theorem runClock_clock (day seconds : Nat) (s : State) :
    (runClock day seconds s).clock = { s.clock with state := .running, day := day, seconds := seconds, tenths := 0 } :=
  clock_of_changes (report_changes _ _ _) (by decide)

theorem runClock_changes (day seconds : Nat) (s : State) : ChangesOnly [.clock, .cdt, .nfu] s (runClock day seconds s) :=
  ((withClock_changes s _).mono (by decide)).trans ((report_changes _ _ _).mono (by decide))

theorem runClock_timeKept {day seconds : Nat} {s : State} (hd : day < 65536) (hx : seconds < 86400) (hs : TimeKept s) :
    TimeKept (runClock day seconds s) := by
  have hc := runClock_clock day seconds s
  refine timeKept_of_times hs ?_ ?_ ?_ ?_ (by rw [cau_of_changes (runClock_changes day seconds s) (by decide)]) <;> rw [hc]
  · exact hd
  · exact hx
  · exact (by decide : 0 < 10)

theorem completeSet_timeKept {day seconds : Nat} {s : State} (hd : day < 65536) (hx : seconds < 86400) (hs : TimeKept s) :
    TimeKept (completeSet day seconds s) :=
  startHour_timeKept (timeKept_of_changes (mergeUnclocked_changes _) (by decide) (by decide)
    (timeKept_of_changes (firmRun_changes _ _ _) (by decide) (by decide) (runClock_timeKept hd hx hs)))

theorem setClock_timeKept {fields : List Byte} {s after : State} {payload : List Byte} (hs : TimeKept s)
    (h : setClock fields s = .taken after payload) : TimeKept after := by
  unfold setClock at h
  split at h
  · cases h
  · dsimp only at h
    split at h
    · cases h
    split at h
    · cases h
    · next hx =>
      have hday : num fields 0 2 < 65536 := num_lt fields 0 2
      have hhour : num fields 2 4 / 3600 < 24 := by omega
      split at h
      · cases h
      · obtain ⟨rfl, -⟩ := Answer.taken.inj h
        exact completeSet_timeKept hday (by omega) (levelBooks_timeKept ⟨hday, hhour⟩ hs)

theorem moveTime_timeKept {t : Int} {s : State} (hlow : -86400 ≤ t) (hhigh : t < 172800) (hs : TimeKept s) : TimeKept (moveTime t s) := by
  obtain ⟨hday, -, htenths, -⟩ := hs.1
  unfold moveTime
  split
  · exact withClock_timeKept hs (by simp only; omega) (by simp only; omega) htenths rfl
  · split
    · exact withClock_timeKept hs (by simp only; omega) (by simp only; omega) htenths rfl
    · exact withClock_timeKept hs hday (by simp only; omega) htenths rfl

theorem markTrimmed_timeKept {s : State} (hs : TimeKept s) : TimeKept (markTrimmed s) := by
  obtain ⟨hday, hseconds, htenths, -⟩ := hs.1
  exact withClock_timeKept hs hday hseconds htenths rfl

theorem trimForward_timeKept {t : Nat} {s : State} (ht : t < 172800) (hs : TimeKept s) : TimeKept (trimForward t s) := by
  have moved : TimeKept (moveTime t (markTrimmed s)) := moveTime_timeKept (by omega) (by omega) (markTrimmed_timeKept hs)
  unfold trimForward
  dsimp only
  split
  · exact markTrimmed_timeKept (hourBoundaryEvent_timeKept moved)
  · split
    · exact timeKept_of_changes (firmPointEvent_changes _) (by decide) (by decide) moved
    · exact moved

theorem trimClock_timeKept {fields : List Byte} {s after : State} {payload : List Byte} (hs : TimeKept s)
    (h : trimClock fields s = .taken after payload) : TimeKept after := by
  have hseconds : s.clock.seconds < 86400 := hs.1.2.1
  unfold trimClock at h
  dsimp only at h
  split at h
  · cases h
  split at h
  · cases h
  split at h
  · cases h; exact hs
  split at h
  · split at h <;> cases h
    exact moveTime_timeKept (by omega) (by omega) (markTrimmed_timeKept hs)
  · cases h
    exact trimForward_timeKept (by omega) hs

/-! ### The time base (R1, R3) -/

theorem stepTimeBase_clock (s : State) : (stepTimeBase s).clock = s.clock.tick := rfl

/-- A step of the time base keeps gas-day time a time of the gas day. -/
theorem tick_inRange {c : Clock} (hday : c.day < 65536) (hseconds : c.seconds < 86400) (htenths : c.tenths < 10) :
    c.tick.day < 65536 ∧ c.tick.seconds < 86400 ∧ c.tick.tenths < 10 ∧ c.tick.lastClosed = c.lastClosed := by
  unfold Clock.tick
  split
  · split
    · next h => exact ⟨hday, hseconds, h, rfl⟩
    · split
      · next h => exact ⟨hday, h, (by decide : 0 < 10), rfl⟩
      · exact ⟨Nat.mod_lt _ (by decide), (by decide : 0 < 86400), (by decide : 0 < 10), rfl⟩
  · exact ⟨hday, hseconds, htenths, rfl⟩

theorem stepTimeBase_timeKept {s : State} (hs : TimeKept s) : TimeKept (stepTimeBase s) := by
  obtain ⟨hday, hseconds, htenths, -⟩ := hs.1
  obtain ⟨hday', hseconds', htenths', hlast⟩ := tick_inRange hday hseconds htenths
  exact timeKept_of_times hs hday' hseconds' htenths' hlast rfl

theorem idle_timeKept {s : State} (hs : TimeKept s) : TimeKept (idle s) := by
  unfold idle
  split
  · exact hs
  · unfold stepFine
    split
    · exact stepTimeBase_timeKept hs
    · exact hs

/-! ### Resets (R2, R201) -/

theorem scheduleFirst_changes (s : State) : ChangesOnly [.fsu] s (scheduleFirst s) :=
  ChangesOnly.overFin (fun n s => by split; exact scheduleVisit_changes n 0 s; exact .refl _ s) s

theorem refirmAtReset_changes (s : State) : ChangesOnly [.cdt, .nfu] s (refirmAtReset s) := by
  unfold refirmAtReset
  split
  · exact refirm_changes s
  · exact .refl _ s

/-- After the blocks have their reset values a reset touches the line, the class, the hours and the trains alone. -/
theorem takeReset_changes (kind : ResetKind) (lines : Lines) (s : State) :
    ChangesOnly [.fsu, .cdt, .dsq, .nfu] (restartBlocks kind lines (!s.pif.retainedIntact) (retained s)) (takeReset kind lines s) :=
  (((scheduleFirst_changes _).mono (by decide)).trans ((refirmAtReset_changes _).mono (by decide))).trans
    ((ChangesOnly.overFin (fun t s => alterTrain_changes t _ s) _).mono (by decide))

/-- Memory that is lost is taken as it is after the first power-on. -/
theorem retained_timeKept {s : State} (hs : TimeKept s) : TimeKept (retained s) := by
  unfold retained
  split
  · exact hs
  · refine timeKept_congr (s := State.reset) rfl rfl ⟨⟨?_, ?_, ?_, ?_⟩, ?_⟩
    · exact (by decide : 0 < 65536)
    · exact (by decide : 0 < 86400)
    · exact (by decide : 0 < 10)
    · exact fun _ he => by cases he
    · exact (by decide : 0 ≤ 48)

theorem takeReset_timeKept {kind : ResetKind} {lines : Lines} {s : State} (hs : TimeKept s) : TimeKept (takeReset kind lines s) :=
  timeKept_of_changes (takeReset_changes kind lines s) (by decide) (by decide)
    (timeKept_of_times (retained_timeKept hs) (by decide : 0 < 65536) (by decide : 0 < 86400) (by decide : 0 < 10) rfl rfl)

/-! ### Every command -/

/-- The commands that move the clock or write the history. -/
def movesTime : Instr → Bool
  | .setClock _ _ | .trimClock _ _ | .resetPart _ _ _ | .powerOn _ | .pin _ _ | .timeBaseStep | .hourBoundary => true
  | _ => false

/-- SET-ALLOCATION writes the mode beside the history (R189). -/
theorem setAllocation_keeps_time {p : Port} {fields : List Byte} {s t : State} (h : execSetAllocation p fields s = .next t) :
    t.clock = s.clock ∧ t.cau.history = s.cau.history := by
  rcases serve_cases (some .com) 0xA0 p fields (setAllocation fields) s with
    ⟨-, e⟩ | ⟨-, ⟨status, e⟩ | ⟨after, payload, ho, e⟩⟩ <;>
    rw [execSetAllocation, e] at h <;> cases h
  · exact ⟨rfl, rfl⟩
  · exact ⟨rfl, rfl⟩
  · unfold setAllocation at ho
    split at ho <;> cases ho
    exact ⟨rfl, rfl⟩

/-- Every other command leaves both as they stand. -/
theorem exec_keeps_time {c : Instr} {s t : State} (hm : movesTime c = false) (h : exec c s = .next t) :
    t.clock = s.clock ∧ t.cau.history = s.cau.history := by
  have read {l : List Block} (k : ChangesOnly l s t) (hc : Block.clock ∉ l := by decide) (hb : Block.cau ∉ l := by decide) :
      t.clock = s.clock ∧ t.cau.history = s.cau.history := ⟨clock_of_changes k hc, by rw [cau_of_changes k hb]⟩
  cases c with
  | setClock | trimClock | resetPart | powerOn | pin | timeBaseStep | hourBoundary => cases hm
  | setFieldLine => exact read (serve_changes (setFieldLine_within _ s) h)
  | setSlot => exact read (serve_changes (setSlot_within _ s) h)
  | enableSlot => exact read (serve_changes (enableSlot_within _ s) h)
  | disableSlot => exact read (serve_changes (disableSlot_within _ s) h)
  | writeScript => exact read (serve_changes (writeScript_within _ s) h)
  | setPoint => exact read (serve_changes (setPoint_within _ s) h)
  | setBeta => exact read (serve_changes (setBeta_within _ s) h)
  | setCv => exact read (serve_changes (setCv_within _ s) h)
  | ackConditions => exact read (serve_changes (ackConditions_within _ _ s) h)
  | setDerateTable => exact read (serve_changes (setDerateTable_within _ s) h)
  | setAlert => exact read (serve_changes (setAlert_within _ _ s) h)
  | readEvents => exact read (serve_changes (readEvents_within _ s) h)
  | setCavern => exact read (serve_changes (setCavern_within _ s) h)
  | setCavernInventory => exact read (serve_changes (setCavernInventory_within _ s) h)
  | setSite => exact read (serve_changes (setSite_within _ s) h)
  | setDuty => exact read (serve_changes (setDuty_within _ s) h)
  | setUnit => exact read (serve_changes (setUnit_within _ s) h)
  | resetUnit => exact read (serve_changes (resetUnit_within _ s) h)
  | writeStep => exact read (serve_changes (writeStep_within _ s) h)
  | selectBank => exact read (serve_changes (selectBank_within _ s) h)
  | setTrain => exact read (serve_changes (setTrain_within _ s) h)
  | resetTrain => exact read (serve_changes (resetTrain_within _ s) h)
  | openAccount => exact read (serve_changes (openAccount_within _ s) h)
  | setRights => exact read (serve_changes (setRights_within _ s) h)
  | closeAccount => exact read (serve_changes (closeAccount_within _ s) h)
  | transfer => exact read (serve_changes (transfer_within _ s) h)
  | settleSuspense => exact read (serve_changes (settleSuspense_within _ s) h)
  | nominate => exact read (serve_changes (nominate_within _ s) h)
  | nominateDay => exact read (serve_changes (nominateDay_within _ s) h)
  | nominateRest => exact read (serve_changes (nominateRest_within _ s) h)
  | cancelNomination => exact read (serve_changes (cancelNomination_within _ s) h)
  | setLead => exact read (serve_changes (setLead_within _ s) h)
  | setRatchet => exact read (serve_changes (setRatchet_within _ s) h)
  | setAllocation => exact setAllocation_keeps_time h
  | read => exact read (execRead_changes h)
  | unknownRequest => exact read (execUnknownRequest_changes h)
  | ignoredTransaction => exact read (execIgnoredTransaction_changes h)
  | collect => exact read (execCollect_changes h)
  | heldInReset => cases h; exact read (hold_changes _ s)
  | firmPoint => exact read (unlessHeld_changes (onlyIf_changes (firmPointEvent_changes s)) h)
  | lineEngineTake => exact read (unlessHeld_changes (engineTake_changes s) h)
  | requestTransmitted => exact read (unlessHeld_changes (requestSent_changes s) h)
  | dataReply => exact read (execDataReply_changes h)
  | doneReply => exact read (execDoneReply_changes h)
  | errorReply => exact read (execErrorReply_changes h)
  | badReplyFrame => exact read (execBadReplyFrame_changes h)
  | replyWindowExpiry => exact read (execReplyWindowExpiry_changes h)
  | changeoverMinimumExpiry => exact read (unlessHeld_changes (minimumExpires_changes s) h)
  | changeoverLimitExpiry => exact read (unlessHeld_changes (limitExpires_changes s) h)
  | feedbackChange => exact read (unlessHeld_changes (onlyIf_changes (takeFeedback_changes _ _ s)) h)
  | startTimeout => exact read (unlessHeld_changes (onlyIf_changes (startFails_changes _ s)) h)
  | stopTimeout => exact read (unlessHeld_changes (onlyIf_changes (faultUnit_changes _ _ s)) h)
  | cooldownExpiry => exact read (unlessHeld_changes (onlyIf_changes (cooldownEnds_changes _ s)) h)
  | startListExpiry => exact read (unlessHeld_changes (onlyIf_changes (dropStartEntry_changes _ s)) h)
  | positionInputChange => exact read (unlessHeld_changes (onlyIf_changes (takeInput_changes _ _ _ s)) h)
  | stepTimeExpiry => exact read (unlessHeld_changes (onlyIf_changes (stepTimeEnds_changes _ s)) h)
  | dwellExpiry => exact read (unlessHeld_changes (onlyIf_changes (dwellEnds_changes _ s)) h)
  | inputTimeout => exact read (unlessHeld_changes (onlyIf_changes (inputTimeoutEnds_changes _ s)) h)
  | strokeTimeout => exact read (unlessHeld_changes (onlyIf_changes (faultTrain_changes _ _ s)) h)

/-- A request whose own rule keeps the ranges keeps them with its answer. -/
theorem serve_timeKept {owner : Option Port} {code : Nat} {p : Port} {fields : List Byte} {own : State → Answer} {s t : State}
    (hown : ∀ after payload, own s = .taken after payload → TimeKept after) (hs : TimeKept s)
    (h : serve owner code p fields own s = .next t) : TimeKept t := by
  rcases serve_cases owner code p fields own s with ⟨-, e⟩ | ⟨-, ⟨status, e⟩ | ⟨after, payload, ho, e⟩⟩ <;>
    rw [e] at h <;> cases h
  · exact hs
  · exact timeKept_of_changes (alterPort_changes _ _ s) (by decide) (by decide) hs
  · exact timeKept_of_changes (alterPort_changes _ _ after) (by decide) (by decide) (hown _ _ ho)

theorem unlessHeld_timeKept {f : State → State} {s t : State} (hf : TimeKept (f s)) (hs : TimeKept s) (h : unlessHeld f s = .next t) :
    TimeKept t := by
  unfold unlessHeld at h
  split at h <;> cases h
  · exact hs
  · exact hf

theorem exec_timeKept {c : Instr} {s t : State} (hs : TimeKept s) (h : exec c s = .next t) : TimeKept t := by
  cases hm : movesTime c with
  | false =>
    obtain ⟨hclock, hhistory⟩ := exec_keeps_time hm h
    exact timeKept_congr hclock hhistory hs
  | true =>
    cases c with
    | setClock => exact serve_timeKept (fun _ _ => setClock_timeKept hs) hs h
    | trimClock => exact serve_timeKept (fun _ _ => trimClock_timeKept hs) hs h
    | resetPart => exact serve_timeKept (fun _ _ e => by obtain ⟨rfl, -⟩ := Answer.taken.inj e; exact takeReset_timeKept hs) hs h
    | powerOn => obtain rfl := Host.Outcome.next.inj h; exact takeReset_timeKept hs
    | pin =>
      obtain rfl := Host.Outcome.next.inj h
      unfold releasePin
      split
      · exact timeKept_congr rfl rfl hs
      · exact takeReset_timeKept hs
    | timeBaseStep => exact unlessHeld_timeKept (stepTimeBase_timeKept hs) hs h
    | hourBoundary =>
      refine unlessHeld_timeKept ?_ hs h
      cases boundaryDue s
      · exact hs
      · exact hourBoundaryEvent_timeKept hs
    | _ => cases hm

/-- Settles O59: each command keeps the ranges of the clock and the history, and so does 1 ms with no command waiting. -/
theorem stepKeepsClockAndHistoryInRange : Obligations.StepKeepsClockAndHistoryInRange := by
  intro s t hclock hhistory h
  unfold step at h
  split at h
  · next c rest _ =>
    have kept : TimeKept (s.withPending rest) := timeKept_congr rfl rfl ⟨hclock, hhistory⟩
    exact exec_timeKept kept h
  · obtain rfl := Host.Outcome.next.inj h
    exact idle_timeKept ⟨hclock, hhistory⟩

end Sys2Proof.Machine

/-! SUPPORT. What a firm leaves of the hours, and the statements of the time base, the firm point and TRIM-CLOCK. -/

namespace Sys2Proof.Machine

open Sys2Proof.Safety

/-! ### Event flags and hours -/

@[simp] theorem hourOf_setEventCom (e : Fin 4) (s : State) (p : Fin 72) : hourOf (setEventCom e s) p = hourOf s p := rfl

@[simp] theorem comFlags_setEventCom_same (e : Fin 4) (s : State) : nth (setEventCom e s).cdt.com.flags e = true := by
  simp [setEventCom]

/-- An hour already firmed is not firmed again (R164). -/
theorem firm_of_firmed {p : Fin 72} {s : State} (h : (hourOf s p).site.firmed = true) : firm p s = s := by
  simp [firm, h]

/-- Of the hours a firm changes its own alone. -/
theorem hourOf_firm_other {p q : Fin 72} (s : State) (h : q ≠ p) : hourOf (firm p s) q = hourOf s q := by
  unfold firm
  split
  · rfl
  · simp [h]

/-- A firm leaves its hour firmed. -/
theorem firmed_firm (p : Fin 72) (s : State) : (hourOf (firm p s) p).site.firmed = true := by
  unfold firm
  split
  · assumption
  · simp [firmedCell]

/-- A firm of an hour not yet firmed sets HOUR_FIRMED (R169). -/
theorem hourFirmed_firm {p : Fin 72} {s : State} (h : (hourOf s p).site.firmed = false) :
    nth (firm p s).cdt.com.flags evHourFirmed = true := by
  simp [firm, h]

/-! ### The firm point (R5) -/

@[simp] theorem index?_val {n : Nat} (i : Fin n) : index? n i.val = some i := by
  simp [index?]

theorem firmRun_one (p : Fin 72) (s : State) : firmRun p.val 1 s = firm p s := by
  simp [firmRun]

/-- The firm point fires the hour that lies the lead after the open hour. -/
theorem firmPointEvent_eq {s : State} {p q : Fin 72} (ho : openPosition s = some p) (hq : q.val = p.val + s.nfu.lead) :
    firmPointEvent s = firm q s := by
  simp only [firmPointEvent, ho, ← hq, firmRun_one]

/-- An hour not yet firmed is firmed with HOUR_FIRMED set, and an hour already firmed leaves the part as it was. -/
theorem firmPointEvent_fires {s : State} {p q : Fin 72} (ho : openPosition s = some p) (hq : q.val = p.val + s.nfu.lead) :
    ((hourOf s q).site.firmed = false →
        (hourOf (firmPointEvent s) q).site.firmed = true ∧ nth (firmPointEvent s).cdt.com.flags evHourFirmed = true
          ∧ (∀ r, r ≠ q → hourOf (firmPointEvent s) r = hourOf s r) ∧ ChangesOnly [.cdt, .nfu] s (firmPointEvent s))
      ∧ ((hourOf s q).site.firmed = true → firmPointEvent s = s) := by
  rw [firmPointEvent_eq ho hq]
  exact ⟨fun hf => ⟨firmed_firm q s, hourFirmed_firm hf, fun r hr => hourOf_firm_other s hr, firm_changes q s⟩, firm_of_firmed⟩

theorem exec_firmPoint {s : State} (h : heldInReset s = false) (hr : clockRunning s = true) (hf : firmPointReached s = true) :
    exec .firmPoint s = .next (firmPointEvent s) := by
  have run : exec .firmPoint s = .next (onlyIf (clockRunning s && firmPointReached s) firmPointEvent s) := unlessHeld_released _ h
  rw [run, hr, hf]
  rfl

/-- An event whose occasion does not hold changes nothing, in reset or out of it. -/
theorem unlessHeld_onlyIf_false (f : State → State) (s : State) : unlessHeld (onlyIf false f) s = .next s := by
  unfold unlessHeld
  split <;> rfl

/-- Settles O18: the event is the firm of the hour the lead ahead, which does nothing to an hour already firmed. -/
theorem firmPointFirmsTheHourAhead : Obligations.FirmPointFirmsTheHourAhead := by
  refine ⟨fun s p q hheld hrun hreached hp hq => ?_, fun s hs => ?_⟩
  · obtain ⟨fires, stands⟩ := firmPointEvent_fires hp hq
    rw [exec_firmPoint hheld hrun hreached]
    exact ⟨fun hf => ⟨_, rfl, fires hf⟩, fun hf => by rw [stands hf]⟩
  · have occasion : (clockRunning s && firmPointReached s) = false := by
      rcases hs with h | h <;> simp [h]
    show unlessHeld (onlyIf (clockRunning s && firmPointReached s) firmPointEvent) s = .next s
    rw [occasion, unlessHeld_onlyIf_false]

/-! ### The time base (R1, R3, R101, R133) -/

theorem stepTimeBase_changes (s : State) : ChangesOnly [.fine, .clock, .cpd, .dsq] s (stepTimeBase s) :=
  ((((withFine_changes s _).mono (by decide)).trans ((withClock_changes _ _).mono (by decide))).trans
    ((withCpd_changes _ _).mono (by decide))).trans ((withDsq_changes _ _).mono (by decide))

@[simp] theorem stepTimeBase_fine (s : State) : (stepTimeBase s).fine = (timeBase s + 1) * 100 := rfl

theorem timeBase_stepTimeBase (s : State) : timeBase (stepTimeBase s) = timeBase s + 1 := by
  unfold timeBase
  rw [stepTimeBase_fine]
  exact Nat.mul_div_cancel _ (by decide)

theorem unitOf_stepTimeBase (s : State) (u : Fin 4) : unitOf (stepTimeBase s) u = (unitOf s u).accrue := nth_each _ _ u

theorem trainOf_stepTimeBase (s : State) (d : Fin 2) :
    trainOf (stepTimeBase s) d = (trainOf s d).countOffSpec (clockRunning s) := nth_each _ _ d

theorem exec_timeBaseStep {s : State} (h : heldInReset s = false) : exec .timeBaseStep s = .next (stepTimeBase s) :=
  unlessHeld_released _ h

/-- Settles O15, count by count. -/
theorem timeBaseStepCounts : Obligations.TimeBaseStepCounts := by
  intro s hheld
  refine ⟨_, exec_timeBaseStep hheld, stepTimeBase_changes s, timeBase_stepTimeBase s, ?_, fun hr => ?_, fun hr => ?_, fun u => ?_,
    rfl, rfl, fun d => ?_⟩
  · rw [stepTimeBase_fine]
    exact Nat.mul_mod_left _ _
  · have stopped : s.clock.state ≠ .running := by simpa [clockRunning] using hr
    rw [stepTimeBase_clock, Clock.tick, if_neg stopped]
  · have running : s.clock.state = .running := by simpa [clockRunning] using hr
    rw [stepTimeBase_clock, Clock.tick, if_pos running]
  · exact unitOf_stepTimeBase s u
  · rw [trainOf_stepTimeBase, Train.countOffSpec]
    simp only [Bool.and_eq_true]

/-! ### The passing of 1 ms (log entry 1) -/

theorem step_of_empty {s : State} (h : s.pending = []) : step s = .next (idle s) := by
  simp only [step, h]

theorem idle_held {s : State} (h : heldInReset s = true) : idle s = s := by
  simp [idle, h]

theorem idle_released {s : State} (h : heldInReset s = false) : idle s = stepFine s := by
  simp [idle, h]

theorem stepFine_hundredth {s : State} (h : s.fine % 100 = 99) : stepFine s = stepTimeBase s := if_pos h

theorem stepFine_other {s : State} (h : s.fine % 100 ≠ 99) : stepFine s = s.withFine (s.fine + 1) := if_neg h

theorem stepFine_fine (s : State) : (stepFine s).fine = s.fine + 1 := by
  by_cases h : s.fine % 100 = 99
  · rw [stepFine_hundredth h, stepTimeBase_fine, timeBase]
    omega
  · rw [stepFine_other h, State.withFine_fine]

theorem stepFine_changes (s : State) : ChangesOnly [.fine, .clock, .cpd, .dsq] s (stepFine s) := by
  by_cases h : s.fine % 100 = 99
  · rw [stepFine_hundredth h]
    exact stepTimeBase_changes s
  · rw [stepFine_other h]
    exact (withFine_changes s _).mono (by decide)

/-- Settles O2: the fine count advances by one, and the hundredth step is the step of the time base. -/
theorem emptyQueueCountsOneMillisecond : Obligations.EmptyQueueCountsOneMillisecond := by
  intro s hempty
  rw [step_of_empty hempty]
  refine ⟨fun h => by rw [idle_held h], fun h => ?_, fun h hf => ?_, fun h hf => ?_⟩ <;> rw [idle_released h]
  · exact ⟨_, rfl, stepFine_fine s, ((stepFine_changes s) .pending (by decide)).symm.trans hempty, stepFine_changes s⟩
  · rw [stepFine_other hf]
  · rw [stepFine_hundredth hf, exec_timeBaseStep h]
    refine ⟨rfl, fun t ht => ?_⟩
    obtain rfl := Host.Outcome.next.inj ht
    exact timeBase_stepTimeBase s

/-! ### TRIM-CLOCK (R11, R12) -/

theorem length_of_fits {code : Nat} {fields : List Byte} {n : Nat} (h : fits code fields = true) (hl : layoutOf code fields = .length n) :
    fields.length = n := by
  simp only [fits, hl, Layout.length.injEq, decide_eq_true_eq] at h
  exact h.symm

section
variable {fields : List Byte} {s : State}

theorem exec_trimClock_refused {status : Status} (h : heldInReset s = false) (hf : fits 0x11 fields = true)
    (hr : trimClock fields s = .refuse status) : exec (.trimClock .ops fields) s = .next (answered .ops 3 status [0x11] s) := by
  have served := serve_refused (owner := some .ops) (p := .ops) h hf rfl hr
  rw [length_of_fits hf rfl] at served
  exact served

theorem exec_trimClock_taken {after : State} (h : heldInReset s = false) (hf : fits 0x11 fields = true)
    (hr : trimClock fields s = .taken after []) : exec (.trimClock .ops fields) s = .next (accepted .ops 0x11 1 after) := by
  have served := serve_taken (owner := some .ops) (p := .ops) h hf rfl hr
  rw [length_of_fits hf rfl] at served
  exact served

theorem trimClock_stopped (hr : clockRunning s = false) : trimClock fields s = .refuse .clock := by
  simp [trimClock, hr]

theorem trimClock_range (hr : clockRunning s = true) (h : snum fields 0 1 < -120 ∨ 120 < snum fields 0 1) :
    trimClock fields s = .refuse .range := by
  simp [trimClock, hr, h]

theorem trimClock_zero (hr : clockRunning s = true) (h : snum fields 0 1 = 0) : trimClock fields s = .taken s [] := by
  simp [trimClock, hr, h]

/-- A shift back within its range is judged by the marked instant behind. -/
theorem trimClock_back (hr : clockRunning s = true) (hlow : -120 ≤ snum fields 0 1) (hneg : snum fields 0 1 < 0) :
    trimClock fields s
      = if trimCrossesBack s (s.clock.seconds + snum fields 0 1) then .refuse .state
        else .taken (moveTime (s.clock.seconds + snum fields 0 1) (markTrimmed s)) [] := by
  have hrange : ¬(snum fields 0 1 < -120 ∨ 120 < snum fields 0 1) := by omega
  have hzero : snum fields 0 1 ≠ 0 := by omega
  simp only [trimClock, hr, hrange, hzero, hneg, Bool.not_true, Bool.false_eq_true, if_false, if_true]

theorem trimClock_forward {n : Nat} (hr : clockRunning s = true) (hn : snum fields 0 1 = n) (hpos : 1 ≤ n) (hhigh : n ≤ 120) :
    trimClock fields s = .taken (trimForward (s.clock.seconds + n) s) [] := by
  have hrange : ¬((n : Int) < -120 ∨ 120 < (n : Int)) := by omega
  have hzero : (n : Int) ≠ 0 := by omega
  have hneg : ¬(n : Int) < 0 := by omega
  have hsum : ((s.clock.seconds : Int) + n).toNat = s.clock.seconds + n := by omega
  simp only [trimClock, hr, hn, hrange, hzero, hneg, hsum, Bool.not_true, Bool.false_eq_true, if_false]

/-- Time moved within the day of its hour. -/
theorem moveTime_inside {t : Int} (hlow : 0 ≤ t) (hhigh : t < 86400) :
    moveTime t s = s.withClock { s.clock with seconds := t.toNat } := by
  rw [moveTime, if_neg (by omega), if_neg (by omega)]

/-- Time moved ahead by less than a day, carried into the day after. -/
theorem moveTime_ahead {t : Nat} (h : t < 172800) :
    moveTime t s
      = s.withClock { s.clock with
          day := if t < 86400 then s.clock.day else (s.clock.day + 1) % 65536, seconds := t % 86400 } := by
  by_cases hin : t < 86400
  · rw [moveTime_inside (by omega) (by omega), if_pos hin, Nat.mod_eq_of_lt hin, Int.toNat_natCast]
  · have hmod : ((t : Int) - 86400).toNat = t % 86400 := by omega
    rw [moveTime, if_neg (by omega), if_pos (by omega), if_neg hin, hmod]

end

/-- The state as the event of a forward trim by `n` finds it: moved, with the trimmed mark set. -/
abbrev trimMoved (n : Nat) (s : State) : State :=
  s.withClock { s.clock with
    day := if s.clock.seconds + n < 86400 then s.clock.day else (s.clock.day + 1) % 65536
    seconds := (s.clock.seconds + n) % 86400, trimmed := true }

theorem moveTime_trimMoved {n : Nat} {s : State} (h : s.clock.seconds + n < 172800) :
    moveTime ((s.clock.seconds + n : Nat) : Int) (markTrimmed s) = trimMoved n s := by
  rw [moveTime_ahead h]
  rfl

section
variable {n : Nat} {s : State} (hs : s.clock.seconds < 86400) (hn : n ≤ 120)
include hs hn

theorem trimForward_inside (h : (s.clock.seconds + n) / 1800 = s.clock.seconds / 1800) :
    trimForward (s.clock.seconds + n) s = trimMoved n s := by
  unfold trimForward
  rw [moveTime_trimMoved (by omega), if_neg (by omega), if_neg (by omega)]

theorem trimForward_firmPoint (hhour : (s.clock.seconds + n) / 3600 = s.clock.seconds / 3600)
    (hhalf : (s.clock.seconds + n) / 1800 ≠ s.clock.seconds / 1800) :
    trimForward (s.clock.seconds + n) s = firmPointEvent (trimMoved n s) := by
  unfold trimForward
  rw [moveTime_trimMoved (by omega), if_neg (by omega), if_pos (by omega)]

theorem trimForward_boundary (hhour : (s.clock.seconds + n) / 3600 ≠ s.clock.seconds / 3600) :
    trimForward (s.clock.seconds + n) s = markTrimmed (hourBoundaryEvent (trimMoved n s)) := by
  unfold trimForward
  rw [moveTime_trimMoved (by omega), if_pos (by omega)]

end

/-- The newest record after an hour boundary is of the hour that was open, with its trimmed mark, and of no outage (R185). -/
theorem hourBoundaryEvent_record {s : State} {h : HourId} (ho : openHour s = some h) :
    ∃ r, (hourBoundaryEvent s).cau.history.getLast? = some r ∧ r.hour = h ∧ r.trimmed = s.clock.trimmed ∧ r.outage = false := by
  refine ⟨closingRecord h (gather (bookOpenGaps s)) (gathered s), ?_, rfl, ?_, rfl⟩
  · rw [hourBoundaryEvent_cau ho]
    exact getLast_appendRecord _ _
  · have booked : (bookOpenGaps s).clock = s.clock := clock_of_changes (bookOpenGaps_changes s) (by decide)
    simp only [hourRecord, gather, booked]

theorem exec_hourBoundary {s : State} (h : heldInReset s = false) (hd : boundaryDue s = true) :
    exec .hourBoundary s = .next (hourBoundaryEvent s) := by
  have run : exec .hourBoundary s = .next (onlyIf (boundaryDue s) hourBoundaryEvent s) := unlessHeld_released _ h
  rw [run, hd]
  rfl

/-- Settles O14, by the kind of shift: refused, back, ahead within the half hour, past a firm point, past an hour boundary. -/
theorem trimClockMovesGasDayTime : Obligations.TrimClockMovesGasDayTime := by
  intro fields s hheld hfits
  refine ⟨fun hr => exec_trimClock_refused hheld hfits (trimClock_stopped hr),
    fun hr h => exec_trimClock_refused hheld hfits (trimClock_range hr h),
    fun hr h => exec_trimClock_taken hheld hfits (trimClock_zero hr h),
    fun hr hs hlow hneg => ⟨fun hx => ?_, fun hx => ?_⟩, fun n hr hs hn hpos hhigh => ?_⟩
  · refine exec_trimClock_refused hheld hfits ?_
    rw [trimClock_back hr hlow hneg, trimCrossesBack, if_pos (decide_eq_true hx)]
  · refine exec_trimClock_taken hheld hfits ?_
    rw [trimClock_back hr hlow hneg, trimCrossesBack, decide_eq_false (by omega), if_neg (by decide),
      moveTime_inside (by omega) (by omega)]
    rfl
  have taken := exec_trimClock_taken hheld hfits (trimClock_forward hr hn hpos hhigh)
  refine ⟨fun hin => by rw [taken, trimForward_inside hs hhigh hin, trimMoved, if_pos (by omega), Nat.mod_eq_of_lt (by omega)], ?_⟩
  intro moved hm
  obtain rfl : moved = trimMoved n s := hm
  refine ⟨fun hhour hhalf => ⟨by rw [taken, trimForward_firmPoint hs hhigh hhour hhalf], exec_firmPoint hheld hr, fun l q hl hq =>
      firmPointEvent_fires (s := trimMoved n s) (openPosition_of_lastClosed hr hl) hq⟩,
    fun l hhour hl => ?_⟩
  have ho : openHour (trimMoved n s) = some l.next := openHour_of_lastClosed hr hl
  obtain ⟨r, hlast, hour, trimmed, outage⟩ := hourBoundaryEvent_record ho
  refine ⟨_, r, rfl, ?_, exec_hourBoundary hheld, hourBoundaryEvent_clock ho, hlast, hour, trimmed, outage, hourBoundaryEvent_changes _⟩
  rw [taken, trimForward_boundary hs hhigh hhour]
  rfl

end Sys2Proof.Machine

/-! SUPPORT. What a re-firm leaves of the hours, and what every event that only reports conditions leaves of them (R64, R70, R170,
R171). -/

namespace Sys2Proof.Machine

open Sys2Proof.Safety

/-! ### The condition table -/

@[simp] theorem follow_com (c : Cdt) (n : Fin 56) (a : Bool) : (c.follow n a).com = c.com := by
  unfold Cdt.follow
  split <;> rfl

@[simp] theorem follow_ops (c : Cdt) (n : Fin 56) (a : Bool) : (c.follow n a).ops = c.ops := by
  unfold Cdt.follow
  split <;> rfl

/-- The Active items after a report: its own follows it, the others stand (R64). -/
theorem active_follow (c : Cdt) (n m : Fin 56) (a : Bool) :
    (nth (c.follow n a).conditions m).active = if m = n then a else (nth c.conditions m).active := by
  unfold Cdt.follow
  split
  · next h =>
    split
    · next hm => rw [hm, h]
    · rfl
  · simp only [Cdt.formAgain, nth_alter]
    split
    · cases a <;> rfl
    · rfl

theorem conditions_refirm (s : State) : (refirm s).cdt.conditions = s.cdt.conditions := by
  unfold refirm
  dsimp only
  split <;> rfl

theorem conditionActive_report (n m : Fin 56) (a : Bool) (s : State) :
    conditionActive (report n a s) m = if m = n then a else conditionActive s m := by
  unfold conditionActive report
  dsimp only
  split
  · rw [conditions_refirm]
    exact active_follow s.cdt n m a
  · exact active_follow s.cdt n m a

/-- The event flags of Commercial after one is set. -/
theorem comFlags_setEventCom (e f : Fin 4) (s : State) :
    nth (setEventCom e s).cdt.com.flags f = if f = e then true else nth s.cdt.com.flags f := nth_put _ e f true

theorem opsFlags_setEventOps (e f : Fin 4) (s : State) :
    nth (setEventOps e s).cdt.ops.flags f = if f = e then true else nth s.cdt.ops.flags f := nth_put _ e f true

/-! ### Curtailment of an hour -/

/-- A net of 0 lies within any capacities. -/
theorem curtail_of_net_zero {q : Vector Int 16} (h : sumInt (nth q) = 0) (injection withdrawal : Nat) :
    curtail q injection withdrawal = q := by
  unfold curtail
  dsimp only
  rw [h, if_neg (by omega), if_neg (by omega)]

/-- Quantities of 0 are not cut. -/
theorem curtail_of_zero {q : Vector Int 16} (h : ∀ a, nth q a = 0) (injection withdrawal : Nat) : curtail q injection withdrawal = q :=
  curtail_of_net_zero (by rw [sumInt_eq]; exact Finset.sum_eq_zero fun a _ => h a) injection withdrawal

@[simp] theorem lowered_self (x : Int) : lowered x x = false := by simp [lowered]

section
variable (injection withdrawal : Nat) (c : HourCell)

theorem refirmCell_entry (a : Fin 16) :
    ∃ x y, nth (refirmCell injection withdrawal c).entries a = { nth c.entries a with confirmed := x, refirmed := y } := by
  simp only [refirmCell, nth_tab]
  split <;> exact ⟨_, _, rfl⟩

/-- A re-firm leaves the entries of an hour whose confirmations are all 0. -/
theorem refirmCell_of_zero (h : ∀ a, (nth c.entries a).confirmed.getD 0 = 0) (a : Fin 16) :
    nth (refirmCell injection withdrawal c).entries a = nth c.entries a := by
  have before : ∀ b, nth (each c.entries fun e => e.confirmed.getD 0) b = 0 := fun b => by rw [nth_each]; exact h b
  simp only [refirmCell, nth_tab]
  rw [curtail_of_zero before, lowered_self, if_neg Bool.false_ne_true]

end

/-! ### The re-firm (R170, R171) -/

theorem hourOf_refirm (s : State) (q : Fin 72) :
    hourOf (refirm s) q
      = if refirmReaches s q then refirmCell (injectionCapacity s) (withdrawalCapacity s) (hourOf s q) else hourOf s q := by
  unfold refirm
  dsimp only
  split <;> exact nth_tab _ q

/-- From `s` to `t` hours have at most been re-firmed: nothing else of the rows and the leads has changed, an hour that no re-firm
reaches stands whole, as do the entries of an hour without a quantity, and of the event flags only REFIRMED and DIRECTION_CHANGED can
have been set. -/
structure Refirmed (s t : State) : Prop where
  clock : t.clock = s.clock
  nfu : t.nfu = { s.nfu with hours := t.nfu.hours }
  closed : ∀ q, (hourOf t q).site.closed = (hourOf s q).site.closed
  firmed : ∀ q, (hourOf t q).site.firmed = (hourOf s q).site.firmed
  entries : ∀ q a, ∃ x y, entryOf t q a = { entryOf s q a with confirmed := x, refirmed := y }
  stands : ∀ q, refirmReaches s q = false → hourOf t q = hourOf s q
  zeros : ∀ q, (∀ a, confirmedOf s q a = 0) → ∀ a, entryOf t q a = entryOf s q a
  com : ∀ e, e ≠ evRefirmed → nth t.cdt.com.flags e = nth s.cdt.com.flags e
  ops : ∀ e, e ≠ evDirectionChanged → nth t.cdt.ops.flags e = nth s.cdt.ops.flags e

/-- An event that touches neither the clock, nor the hours, nor the event flags. -/
theorem Refirmed.of_eq {s t : State} (hclock : t.clock = s.clock) (hnfu : t.nfu = s.nfu)
    (hcom : t.cdt.com = s.cdt.com) (hops : t.cdt.ops = s.cdt.ops) : Refirmed s t := by
  have hour : ∀ q, hourOf t q = hourOf s q := fun q => by rw [hourOf, hnfu, hourOf]
  have entry : ∀ q a, entryOf t q a = entryOf s q a := fun q a => by rw [entryOf, hour q, entryOf]
  refine ⟨hclock, by rw [hnfu], fun q => by rw [hour q], fun q => by rw [hour q], fun q a => ⟨_, _, entry q a⟩, fun q _ => hour q,
    fun q _ => entry q, fun e _ => by rw [hcom], fun e _ => by rw [hops]⟩

theorem Refirmed.of_changes {s t : State} {l : List Block} (h : ChangesOnly l s t) (hc : Block.clock ∉ l) (hn : Block.nfu ∉ l)
    (hd : Block.cdt ∉ l) : Refirmed s t := by
  have cdt : t.cdt = s.cdt := (h .cdt hd).symm
  exact .of_eq (clock_of_changes h hc) (h .nfu hn).symm (by rw [cdt]) (by rw [cdt])

/-- Which hours a re-firm reaches is told by the clock, and by what is firmed and closed. -/
theorem Refirmed.reaches {s t : State} (h : Refirmed s t) (q : Fin 72) : refirmReaches t q = refirmReaches s q := by
  simp only [refirmReaches, firmedUnclosed, notStarted, h.firmed q, h.closed q, openPosition_congr h.clock]

theorem Refirmed.refl (s : State) : Refirmed s s := .of_eq rfl rfl rfl rfl

theorem Refirmed.trans {s t u : State} (h : Refirmed s t) (k : Refirmed t u) : Refirmed s u where
  clock := k.clock.trans h.clock
  nfu := by rw [k.nfu, h.nfu]
  closed q := (k.closed q).trans (h.closed q)
  firmed q := (k.firmed q).trans (h.firmed q)
  entries q a := by
    obtain ⟨x, y, hx⟩ := h.entries q a
    obtain ⟨z, w, hz⟩ := k.entries q a
    exact ⟨z, w, by rw [hz, hx]⟩
  stands q hq := (k.stands q ((h.reaches q).trans hq)).trans (h.stands q hq)
  zeros q hq a := by
    have same := h.zeros q hq
    exact (k.zeros q (fun b => by rw [confirmedOf, same b]; exact hq b) a).trans (same a)
  com e he := (k.com e he).trans (h.com e he)
  ops e he := (k.ops e he).trans (h.ops e he)

theorem Refirmed.requested {s t : State} (h : Refirmed s t) (q : Fin 72) (a : Fin 16) :
    (entryOf t q a).requested = (entryOf s q a).requested := by
  obtain ⟨x, y, hx⟩ := h.entries q a
  rw [hx]

theorem Refirmed.today {s t : State} (h : Refirmed s t) : t.nfu.todayDay = s.nfu.todayDay := by rw [h.nfu]

theorem Refirmed.lead {s t : State} (h : Refirmed s t) : t.nfu.lead = s.nfu.lead := by rw [h.nfu]

theorem Refirmed.pendingLead {s t : State} (h : Refirmed s t) : t.nfu.pendingLead = s.nfu.pendingLead := by rw [h.nfu]

/-- An hour up to the open one has started: no re-firm reaches it (R170). -/
theorem refirmReaches_started {s : State} {o q : Fin 72} (ho : openPosition s = some o) (hq : q ≤ o) : refirmReaches s q = false := by
  simp only [refirmReaches, notStarted, ho, decide_eq_false (not_lt.mpr hq), Bool.and_false]

theorem refirmReaches_unfirmed {s : State} {q : Fin 72} (h : (hourOf s q).site.firmed = false) : refirmReaches s q = false := by
  simp only [refirmReaches, firmedUnclosed, h, Bool.false_and]

theorem refirmReaches_closed {s : State} {q : Fin 72} (h : (hourOf s q).site.closed = true) : refirmReaches s q = false := by
  simp only [refirmReaches, firmedUnclosed, h, Bool.not_true, Bool.and_false, Bool.false_and]

theorem refirm_refirmed (s : State) : Refirmed s (refirm s) where
  clock := clock_of_changes (refirm_changes s) (by decide)
  nfu := by unfold refirm; dsimp only; split <;> rfl
  closed q := by rw [hourOf_refirm]; split <;> rfl
  firmed q := by rw [hourOf_refirm]; split <;> rfl
  entries q a := by
    rw [entryOf, hourOf_refirm]
    split
    · exact refirmCell_entry _ _ _ a
    · exact ⟨_, _, rfl⟩
  stands q hq := by rw [hourOf_refirm, hq, if_neg Bool.false_ne_true]
  zeros q hq a := by
    rw [entryOf, hourOf_refirm]
    split
    · exact refirmCell_of_zero _ _ _ hq a
    · rfl
  com e he := by
    unfold refirm
    dsimp only
    split
    · rw [comFlags_setEventCom, if_neg he]
      rfl
    · rfl
  ops e _ := by unfold refirm; dsimp only; split <;> rfl

theorem report_refirmed (n : Fin 56) (a : Bool) (s : State) : Refirmed s (report n a s) := by
  have followed : Refirmed s (s.withCdt (s.cdt.follow n a)) := .of_eq rfl rfl (follow_com _ n a) (follow_ops _ n a)
  unfold report
  dsimp only
  split
  · exact followed.trans (refirm_refirmed _)
  · exact followed

theorem latchCv_cases (s : State) :
    (s.mtu.cvSource = none
        ∧ latchCv s = report condCv false (s.withMtu { s.mtu with startTime := some (timeBase s), latchedCv := s.mtu.cvDefault }))
      ∨ (∃ b, s.mtu.cvSource = some b
          ∧ ((channelAt (slotOf s b.slot) b.channel).quality = .good ∧ 8000 ≤ (channelAt (slotOf s b.slot) b.channel).value
              ∧ (channelAt (slotOf s b.slot) b.channel).value ≤ 13500)
          ∧ latchCv s = report condCv false (s.withMtu
              { s.mtu with startTime := some (timeBase s), latchedCv := (channelAt (slotOf s b.slot) b.channel).value.toNat }))
      ∨ ∃ b, s.mtu.cvSource = some b
          ∧ ¬((channelAt (slotOf s b.slot) b.channel).quality = .good ∧ 8000 ≤ (channelAt (slotOf s b.slot) b.channel).value
              ∧ (channelAt (slotOf s b.slot) b.channel).value ≤ 13500)
          ∧ latchCv s = report condCv true (s.withMtu
              { s.mtu with startTime := some (timeBase s), flags := s.mtu.flags.merge { MeterFlags.clear with cvHeld := true } }) := by
  cases hb : s.mtu.cvSource with
  | none => exact .inl ⟨rfl, by simp only [latchCv, State.withMtu_mtu, hb]; rfl⟩
  | some b =>
    refine .inr ?_
    by_cases hg : (channelAt (slotOf s b.slot) b.channel).quality = .good ∧ 8000 ≤ (channelAt (slotOf s b.slot) b.channel).value
        ∧ (channelAt (slotOf s b.slot) b.channel).value ≤ 13500
    · refine .inl ⟨b, rfl, hg, ?_⟩
      simp only [latchCv, State.withMtu_mtu, hb, boundChannel]
      rw [if_pos hg]
      rfl
    · refine .inr ⟨b, rfl, hg, ?_⟩
      simp only [latchCv, State.withMtu_mtu, hb, boundChannel]
      rw [if_neg hg]
      rfl

theorem latchCv_refirmed (s : State) : Refirmed s (latchCv s) := by
  rcases latchCv_cases s with ⟨-, h⟩ | ⟨b, -, -, h⟩ | ⟨b, -, -, h⟩ <;> rw [h] <;>
    exact (Refirmed.of_changes (withMtu_changes s _) (by decide) (by decide) (by decide)).trans (report_refirmed _ _ _)

/-- The metering block after the latch, but for what it latches: the points, the sources and the unclocked flags stand (R56). -/
theorem latchCv_mtu (s : State) :
    (latchCv s).mtu = { s.mtu with
      startTime := some (timeBase s), latchedCv := (latchCv s).mtu.latchedCv
      flags := { s.mtu.flags with cvHeld := s.mtu.flags.cvHeld || conditionActive (latchCv s) condCv } } := by
  have mtu (a : Bool) (x : Mtu) : (report condCv a (s.withMtu x)).mtu = x := ((report_changes _ _ _) .mtu (by decide)).symm
  rcases latchCv_cases s with ⟨-, h⟩ | ⟨b, -, -, h⟩ | ⟨b, -, -, h⟩ <;> rw [h, mtu, conditionActive_report, if_pos rfl]
  · simp
  · simp
  · simp [MeterFlags.merge, MeterFlags.clear]

/-- The CV of the hour that starts is latched by R56. -/
theorem latchCv_latched (s : State) : cvLatched s (latchCv s) := by
  have mtu (a : Bool) (x : Mtu) : (report condCv a (s.withMtu x)).mtu = x := ((report_changes _ _ _) .mtu (by decide)).symm
  have active (a : Bool) (u : State) : conditionActive (report condCv a u) condCv = a := by rw [conditionActive_report, if_pos rfl]
  rcases latchCv_cases s with ⟨hb, h⟩ | ⟨b, hb, hg, h⟩ | ⟨b, hb, hg, h⟩ <;> rw [cvLatched, h, mtu, active, hb]
  · exact ⟨fun _ => ⟨rfl, rfl⟩, nofun⟩
  · refine ⟨nofun, fun _ hb => ?_⟩
    cases hb
    obtain ⟨hgood, hlow, hhigh⟩ := hg
    refine ⟨fun _ => ⟨Int.toNat_of_nonneg (by omega), rfl⟩, fun bad => ?_⟩
    rcases bad with h | h | h
    · exact absurd hgood h
    · omega
    · omega
  · refine ⟨nofun, fun _ hb => ?_⟩
    cases hb
    exact ⟨fun good => absurd good hg, fun _ => ⟨rfl, rfl⟩⟩

end Sys2Proof.Machine

/-! SUPPORT. The duty evaluation, a change of direction, and what the start of an hour makes of the direction, the units and the trains
(R89, R90, R92, R105 to R108, R128). -/

namespace Sys2Proof.Machine

open Sys2Proof.Safety

/-! ### The duty evaluation (R105 to R107) -/

/-- No unit is STARTING or RUNNING. -/
abbrev atRest (c : Cpd) : Prop := ∀ u : Fin 4, (nth c.units u).isActive = false

/-- The evaluation as a function of the demand, the time and the CPD. -/
abbrev evaluatedCpd (demand now : Nat) (c : Cpd) : Cpd := formShortfall demand (startOne now demand (stopSurplus now demand 4 c))

theorem evaluate_eq (s : State) : evaluate s = s.withCpd (evaluatedCpd (demandOf s) (timeBase s) s.cpd) := rfl

theorem activeUnits_atRest {c : Cpd} (h : atRest c) : activeUnits c = 0 := by
  simp [activeUnits, countFin, h]

theorem stopSurplus_of_enough {c : Cpd} {now demand : Nat} (h : activeUnits c ≤ demand) (fuel : Nat) :
    stopSurplus now demand fuel c = c := by
  cases fuel with
  | zero => rfl
  | succ fuel => rw [stopSurplus, if_neg (by omega)]

theorem startOne_zero (now : Nat) (c : Cpd) : startOne now 0 c = c := by
  rw [startOne, if_neg (fun h => Nat.not_lt_zero _ h.1)]

/-- With no demand and no active unit only the shortfall is formed, and it is 0. -/
theorem evaluatedCpd_atRest {c : Cpd} (h : atRest c) (now : Nat) :
    evaluatedCpd 0 now c = { c with demand := 0, shortfall := 0, reason := .noShortfall } := by
  rw [evaluatedCpd, stopSurplus_of_enough (by rw [activeUnits_atRest h]), startOne_zero]
  simp [formShortfall]

/-- The unit that the stop choice names is RUNNING (R107). -/
theorem stopChoice_running {c : Cpd} {u : Fin 4} (h : stopChoice c = some u) : (nth c.units u).state = .running := by
  have kept : ∀ v, stopChoice c = some v → (nth c.units v).state = .running := by
    refine overFin_keeps (fun best : Option (Fin 4) => ∀ v, best = some v → (nth c.units v).state = .running) _
      (fun u best hb v hv => ?_)
      nofun
    split at hv
    · next hu =>
      cases best with
      | none => cases hv; exact hu
      | some b =>
        dsimp only at hv
        split at hv <;> cases hv
        · exact hu
        · exact hb _ rfl
    · exact hb v hv
  exact kept u h

/-- A stopped unit is no more active (R101). -/
theorem stopUnit_notActive (now : Nat) (d : DutySettings) (destination : StopDestination) (u : UnitRecord) :
    (stopUnit now d destination u).isActive = false := by
  unfold stopUnit
  split
  · simp [enterStopping, UnitRecord.isActive]
  · cases destination <;> simp [arrive, enterCooldown, enterOut, UnitRecord.isActive]

theorem not_running_of_notActive {u : UnitRecord} (h : u.isActive = false) : u.state ≠ .running := by
  intro hr
  simp [UnitRecord.isActive, hr] at h

/-- Stops touch RUNNING units alone, and leave them not RUNNING. -/
theorem stopSurplus_units (now demand fuel : Nat) (c : Cpd) (u : Fin 4) :
    nth (stopSurplus now demand fuel c).units u = nth c.units u
      ∨ ((nth c.units u).state = .running ∧ (nth (stopSurplus now demand fuel c).units u).state ≠ .running) := by
  induction fuel generalizing c with
  | zero => exact .inl rfl
  | succ fuel ih =>
    simp only [stopSurplus]
    split
    · split
      · next v hv =>
        by_cases huv : u = v
        · subst huv
          have stopped : (nth (alter c.units u (stopUnit now c.settings .cooldown)) u).state ≠ .running := by
            rw [nth_alter_same]
            exact not_running_of_notActive (stopUnit_notActive _ _ _ _)
          refine .inr ⟨stopChoice_running hv, ?_⟩
          rcases ih { c with units := alter c.units u (stopUnit now c.settings .cooldown) } with h | h
          · rw [h]
            exact stopped
          · exact h.2
        · simpa only [nth_alter_other c.units _ huv] using ih { c with units := alter c.units v (stopUnit now c.settings .cooldown) }
      · exact .inl rfl
    · exact .inl rfl

/-- A start touches no unit but one that becomes STARTING. -/
theorem startOne_units (now demand : Nat) (c : Cpd) (u : Fin 4) :
    nth (startOne now demand c).units u = nth c.units u ∨ (nth (startOne now demand c).units u).state = .starting := by
  unfold startOne
  split
  · split
    · next v _ =>
      by_cases huv : u = v
      · subst huv
        refine .inr ?_
        rw [nth_alter_same]
        rfl
      · exact .inl (nth_alter_other c.units _ huv)
    · exact .inl rfl
  · exact .inl rfl

@[simp] theorem formShortfall_units (demand : Nat) (c : Cpd) : (formShortfall demand c).units = c.units := rfl

/-- An evaluation brings no unit to RUNNING. -/
theorem running_of_evaluatedCpd {demand now : Nat} {c : Cpd} {u : Fin 4} (h : (nth (evaluatedCpd demand now c).units u).state = .running) :
    (nth c.units u).state = .running := by
  rw [formShortfall_units] at h
  rcases startOne_units now demand (stopSurplus now demand 4 c) u with hs | hs
  · rw [hs] at h
    rcases stopSurplus_units now demand 4 c u with ht | ht
    · rwa [ht] at h
    · exact ht.1
  · rw [hs] at h
    cases h

/-- With no demand the evaluation changes the state of a unit only by stopping it from RUNNING. -/
theorem evaluatedCpd_zero_state {now : Nat} {c : Cpd} {u : Fin 4}
    (h : (nth (evaluatedCpd 0 now c).units u).state ≠ (nth c.units u).state) :
    (nth c.units u).state = .running ∧ (nth (evaluatedCpd 0 now c).units u).state ≠ .running := by
  rw [formShortfall_units, startOne_zero] at h ⊢
  rcases stopSurplus_units now 0 4 c u with hs | hs
  · exact absurd (by rw [hs]) h
  · exact hs

theorem startingUnit_of_starting {c : Cpd} {u : Fin 4} (h : (nth c.units u).state = .starting) : startingUnit c ≠ none := by
  intro hn
  have none := firstFin_eq_none.mp hn u
  simp [h] at none

/-- From units at rest a second evaluation finds nothing more to start or to stop (R107). -/
theorem evaluatedCpd_twice {c : Cpd} (h : atRest c) (demand now : Nat) :
    evaluatedCpd demand now (evaluatedCpd demand now c) = evaluatedCpd demand now c := by
  have settled (d : Cpd) (henough : activeUnits d ≤ demand)
      (hstart : startOne now demand (formShortfall demand d) = formShortfall demand d) :
      evaluatedCpd demand now (formShortfall demand d) = formShortfall demand d := by
    rw [evaluatedCpd, stopSurplus_of_enough (c := formShortfall demand d) henough, hstart]
    rfl
  have idle : activeUnits c = 0 := activeUnits_atRest h
  have first : evaluatedCpd demand now c = formShortfall demand (startOne now demand c) := by
    rw [evaluatedCpd, stopSurplus_of_enough (by omega)]
  rw [first]
  by_cases hopen : activeUnits c < demand ∧ startingUnit c = none
  · cases hchoice : startChoice c with
    | none =>
      have stays : startOne now demand c = c := by simp only [startOne, hopen, and_self, if_true, hchoice]
      rw [stays]
      refine settled c (by omega) ?_
      have again : startChoice (formShortfall demand c) = none := hchoice
      simp only [startOne, again, ite_self]
    | some u =>
      have starts : startOne now demand c = { c with units := alter c.units u (startUnit now c.settings) } := by
        simp only [startOne, hopen, and_self, if_true, hchoice]
      have starting : (nth (startOne now demand c).units u).state = .starting := by
        rw [starts, nth_alter_same]
        rfl
      refine settled _ ?_ (by rw [startOne, if_neg (fun hn => startingUnit_of_starting starting hn.2)])
      have one : activeUnits (startOne now demand c) = 1 := by
        have only : ∀ v, (nth (startOne now demand c).units v).isActive = decide (v = u) := by
          intro v
          by_cases hv : v = u
          · subst hv
            simp [UnitRecord.isActive, starting]
          · rw [starts, nth_alter_other c.units _ hv, h v, decide_eq_false hv]
        simp [activeUnits, countFin, only]
      omega
  · have stays : startOne now demand c = c := by rw [startOne, if_neg hopen]
    have again : ¬(activeUnits (formShortfall demand c) < demand ∧ startingUnit (formShortfall demand c) = none) := hopen
    rw [stays]
    exact settled c (by omega) (by rw [startOne, if_neg again])

/-! ### A change of direction (R92) -/

/-- What a change of direction makes of the CPD: the stops of R108 on leaving INJECTING, the evaluation of R106 on entering it. -/
def turnedCpd (new : SiteDirection) (s : State) : Cpd :=
  let left := if s.dir.direction = .injecting then (leaveInjecting s).cpd else s.cpd
  if new = .injecting then evaluatedCpd (demandOf (s.withDir { s.dir with direction := new })) (timeBase s) left else left

/-- A change of direction up to the report of condition 55. -/
def turned (new : SiteDirection) (s : State) : State :=
  let entered := setEventOps evDirectionChanged (s.withDir { s.dir with direction := new })
  let left := if s.dir.direction = .injecting then leaveInjecting entered else entered
  dryersFollow s.dir.direction new (if new = .injecting then evaluate left else left)

theorem changeDirection_eq (new : SiteDirection) (s : State) : changeDirection new s = report condOverrun false (turned new s) := rfl

theorem turned_cpd (new : SiteDirection) (s : State) : (turned new s).cpd = turnedCpd new s := by
  unfold turned turnedCpd
  dsimp only
  split <;> split <;> rfl

theorem turned_dsq (new : SiteDirection) (s : State) : (turned new s).dsq = (dryersFollow s.dir.direction new s).dsq := by
  unfold turned
  dsimp only
  split <;> split <;> rfl

theorem turned_dir (new : SiteDirection) (s : State) : (turned new s).dir = { s.dir with direction := new } := by
  unfold turned
  dsimp only
  split <;> split <;> rfl

theorem turned_cdt (new : SiteDirection) (s : State) : (turned new s).cdt = (setEventOps evDirectionChanged s).cdt := by
  unfold turned
  dsimp only
  split <;> split <;> rfl

theorem turned_clock (new : SiteDirection) (s : State) : (turned new s).clock = s.clock := by
  unfold turned
  dsimp only
  split <;> split <;> rfl

theorem turned_nfu (new : SiteDirection) (s : State) : (turned new s).nfu = s.nfu := by
  unfold turned
  dsimp only
  split <;> split <;> rfl

theorem turned_refirmed (new : SiteDirection) (s : State) : Refirmed s (turned new s) := by
  have marked : Refirmed s (setEventOps evDirectionChanged s) :=
    { Refirmed.of_eq (s := s) (t := s) rfl rfl rfl rfl with
      ops := fun e he => by rw [opsFlags_setEventOps, if_neg he] }
  exact marked.trans (.of_eq (turned_clock new s) (turned_nfu new s) (by rw [turned_cdt]) (by rw [turned_cdt]))

theorem changeDirection_cpd (new : SiteDirection) (s : State) : (changeDirection new s).cpd = turnedCpd new s := by
  rw [changeDirection_eq, ← (report_changes _ _ _) .cpd (by decide), turned_cpd]

theorem changeDirection_dsq (new : SiteDirection) (s : State) :
    (changeDirection new s).dsq = (dryersFollow s.dir.direction new s).dsq := by
  rw [changeDirection_eq, ← (report_changes _ _ _) .dsq (by decide), turned_dsq]

theorem changeDirection_dir (new : SiteDirection) (s : State) : (changeDirection new s).dir = { s.dir with direction := new } := by
  rw [changeDirection_eq, ← (report_changes _ _ _) .dir (by decide), turned_dir]

theorem changeDirection_direction (new : SiteDirection) (s : State) : (changeDirection new s).dir.direction = new := by
  rw [changeDirection_dir]

/-- From `s` to `t` the site has at most turned: hours have been re-firmed only, of the DIR the direction alone and of the Active items
condition 55 alone can differ, and no block beside those of a turn. -/
structure Turned (s t : State) : Prop extends Refirmed s t where
  changes : ChangesOnly directionBlocks s t
  conditions : ∀ n, n ≠ condOverrun → conditionActive t n = conditionActive s n
  dir : t.dir = { s.dir with direction := t.dir.direction }

theorem Turned.refl (s : State) : Turned s s := ⟨.refl s, .refl _ s, fun _ _ => rfl, rfl⟩

theorem Turned.trans {s t u : State} (h : Turned s t) (k : Turned t u) : Turned s u :=
  ⟨h.toRefirmed.trans k.toRefirmed, h.changes.trans k.changes, fun n hn => (k.conditions n hn).trans (h.conditions n hn), by
    rw [k.dir, h.dir]⟩

theorem evaluate_turned (s : State) : Turned s (evaluate s) :=
  ⟨.of_changes (evaluate_changes s) (by decide) (by decide) (by decide), (evaluate_changes s).mono (by decide), fun _ _ => rfl, rfl⟩

theorem changeDirection_turned (new : SiteDirection) (s : State) : Turned s (changeDirection new s) := by
  refine ⟨(turned_refirmed new s).trans (report_refirmed _ _ _), changeDirection_changes new s, fun n hn => ?_, ?_⟩
  · rw [changeDirection_eq, conditionActive_report, if_neg hn, conditionActive, turned_cdt]
    rfl
  · rw [changeDirection_direction, changeDirection_dir]

theorem testCompletion_turned (s : State) : Turned s (testCompletion s) := by
  unfold testCompletion
  split
  · split
    · exact changeDirection_turned _ s
    · exact .refl s
  · exact .refl s

theorem unitsReported_turned {before after : State} (h : Turned before after) : Turned before (unitsReported before after) := by
  unfold unitsReported
  split
  · exact h
  · exact h.trans (testCompletion_turned after)

theorem dutyEvaluation_turned (s : State) : Turned s (dutyEvaluation s) := unitsReported_turned (evaluate_turned s)

theorem takeTarget_turned (p : Fin 72) (s : State) : Turned s (takeTarget p s) := by
  unfold takeTarget
  dsimp only
  split
  · exact .refl s
  · exact unitsReported_turned (changeDirection_turned _ s)

/-! ### The tests of a changeover (R90) -/

theorem openNet_refirmed {s t : State} (h : Refirmed s t) : openNet t = openNet s := by
  unfold openNet
  rw [openPosition_congr h.clock]
  split
  · next p hp => rw [h.stands p (refirmReaches_started hp le_rfl)]
  · rfl

theorem demandOf_other {s : State} (h : s.dir.direction ≠ .injecting) : demandOf s = 0 := by
  unfold demandOf
  split
  · next hd => exact absurd hd h
  · rfl

theorem timeBase_turned {s t : State} (h : Turned s t) : timeBase t = timeBase s := by
  have fine : t.fine = s.fine := (h.changes .fine (by decide)).symm
  rw [timeBase, fine, timeBase]

/-- The three tests of R90 depend on the units only where the site leaves INJECTING. -/
theorem changeoverComplete_turned {s t : State} {c : Changeover} (h : Turned s t)
    (hu : c.target = .withdrawing → ∀ u, (unitOf t u).state = (unitOf s u).state) :
    changeoverComplete t c = changeoverComplete s c := by
  have site : t.dir.site = s.dir.site := by rw [h.dir]
  have mtu : t.mtu = s.mtu := (h.changes .mtu (by decide)).symm
  have fsu : t.fsu = s.fsu := (h.changes .fsu (by decide)).symm
  have quietSame (k : Fin 7) (f : Flow) : quiet t k f = quiet s k f := by
    unfold quiet pointOf slotOf
    rw [mtu, fsu, site]
  have clear : unitsClear t c = unitsClear s c := by
    unfold unitsClear
    split
    · next ht => simp only [unitsAtRest, UnitRecord.inMotion, hu ht]
    · rfl
  simp only [changeoverComplete, minimumPassed, boundaryQuiet, clear, quietSame, timeBase_turned h, site]

/-- The states that the CPD reports are the four units'. -/
theorem unitStates_eq_iff {s t : State} : unitStates s = unitStates t ↔ ∀ u, (unitOf t u).state = (unitOf s u).state := by
  have table (s : State) : unitStates s = List.ofFn fun u => (unitOf s u).state := by
    apply List.ext_getElem
    · simp [unitStates]
    · intro i hi _
      simp only [unitStates, unitOf, nth, List.getElem_map, Vector.getElem_toList, List.getElem_ofFn]
  rw [table, table, List.ofFn_inj, funext_iff]
  exact forall_congr' fun u => eq_comm

theorem unitsReported_same {before after : State} (h : ∀ u, (unitOf after u).state = (unitOf before u).state) :
    unitsReported before after = after := if_pos (unitStates_eq_iff.mpr h)

theorem unitsReported_changed {before after : State} {u : Fin 4} (h : (unitOf after u).state ≠ (unitOf before u).state) :
    unitsReported before after = testCompletion after := if_neg fun he => h (unitStates_eq_iff.mp he u)

theorem testCompletion_settled {s : State} (h : ∀ c, s.dir.direction ≠ .changeover c) : testCompletion s = s := by
  unfold testCompletion
  split
  · next c hc => exact absurd hc (h c)
  · rfl

theorem testCompletion_complete {s : State} {c : Changeover} (hd : s.dir.direction = .changeover c) (h : changeoverComplete s c = true) :
    testCompletion s = changeDirection c.target.direction s := by
  simp only [testCompletion, hd, h, if_true]

theorem testCompletion_incomplete {s : State} {c : Changeover} (hd : s.dir.direction = .changeover c)
    (h : changeoverComplete s c = false) : testCompletion s = s := by
  simp only [testCompletion, hd, h, Bool.false_eq_true, if_false]

theorem unitsReported_settled {before after : State} (h : ∀ c, after.dir.direction ≠ .changeover c) :
    unitsReported before after = after := by
  unfold unitsReported
  split
  · rfl
  · exact testCompletion_settled h

/-- Outside a changeover a duty evaluation is no occasion of the DIR. -/
theorem dutyEvaluation_settled {s : State} (h : ∀ c, s.dir.direction ≠ .changeover c) : dutyEvaluation s = evaluate s :=
  unitsReported_settled (after := evaluate s) h

/-- With the units at rest and no demand a duty evaluation forms the shortfall of 0 alone. -/
theorem dutyEvaluation_atRest {s : State} (hr : atRest s.cpd) (hd : s.dir.direction ≠ .injecting) :
    dutyEvaluation s = s.withCpd { s.cpd with demand := 0, shortfall := 0, reason := .noShortfall } := by
  have formed : evaluate s = s.withCpd { s.cpd with demand := 0, shortfall := 0, reason := .noShortfall } := by
    rw [evaluate_eq, demandOf_other hd, evaluatedCpd_atRest hr]
  have same : ∀ u, (unitOf (evaluate s) u).state = (unitOf s u).state := fun u => by rw [formed]; rfl
  rw [dutyEvaluation, unitsReported_same same, formed]

theorem direction_ne_changeover (f : Flow) (c : Changeover) : f.direction ≠ .changeover c := by
  cases f <;> nofun

/-- Beginning outside INJECTING, the target direction of a changeover is entered with the units as they stand or evaluated. -/
theorem turnedCpd_of_changeover {s : State} {c : Changeover} (hd : s.dir.direction = .changeover c) (new : SiteDirection) :
    turnedCpd new s
      = if new = .injecting then evaluatedCpd (demandOf (s.withDir { s.dir with direction := new })) (timeBase s) s.cpd else s.cpd := by
  have h : s.dir.direction ≠ .injecting := by rw [hd]; nofun
  simp only [turnedCpd, if_neg h]

/-- A duty evaluation in a changeover: it completes where the evaluation changes a unit's state and the three tests hold (R90). -/
theorem dutyEvaluation_changeover {s : State} {c : Changeover} (hd : s.dir.direction = .changeover c) :
    (dutyEvaluation s).dir.direction
      = if (∃ u, (unitOf (dutyEvaluation s) u).state ≠ (unitOf s u).state) ∧ changeoverComplete (dutyEvaluation s) c = true then
          c.target.direction
        else .changeover c := by
  have hdir : (evaluate s).dir.direction = .changeover c := hd
  by_cases hsame : ∀ u, (unitOf (evaluate s) u).state = (unitOf s u).state
  · rw [dutyEvaluation, unitsReported_same hsame, if_neg (fun h => h.1.elim fun u hu => hu (hsame u))]
    exact hdir
  · obtain ⟨u, hu⟩ := not_forall.mp hsame
    rw [dutyEvaluation, unitsReported_changed hu]
    cases hc : changeoverComplete (evaluate s) c with
    | false =>
      rw [testCompletion_incomplete hdir hc, if_neg (fun h => by rw [hc] at h; cases h.2)]
      exact hdir
    | true =>
      have demand : demandOf s = 0 := demandOf_other (by rw [hd]; nofun)
      have stopped : (unitOf s u).state = .running ∧ (unitOf (evaluate s) u).state ≠ .running := by
        simp only [evaluate_eq, demand] at hu ⊢
        exact evaluatedCpd_zero_state hu
      have cpd := (changeDirection_cpd c.target.direction (evaluate s)).trans (turnedCpd_of_changeover hdir c.target.direction)
      have still : (unitOf (changeDirection c.target.direction (evaluate s)) u).state ≠ .running := by
        intro hrun
        rw [unitOf, cpd] at hrun
        split at hrun
        · exact stopped.2 (running_of_evaluatedCpd hrun)
        · exact stopped.2 hrun
      have complete : changeoverComplete (changeDirection c.target.direction (evaluate s)) c = true := by
        rw [changeoverComplete_turned (changeDirection_turned _ _), hc]
        intro ht v
        rw [unitOf, cpd, ht, if_neg (by nofun)]
        rfl
      rw [testCompletion_complete hdir hc, changeDirection_direction, if_pos ⟨⟨u, fun he => still (he.trans stopped.1)⟩, complete⟩]

end Sys2Proof.Machine

/-! SUPPORT. The direction target of an hour and the duty evaluation after it, by the table of R89. -/

namespace Sys2Proof.Machine

open Sys2Proof.Safety

/-! ### What a train makes of a change of direction (R92, R128) -/

/-- A train after a change of the site direction. -/
abbrev trainFollows (old new : SiteDirection) (banks : Vector (Vector BankEntry 24) 2) (now : Nat) (t : Train) : Train :=
  followAllowed (runningAllowed old t) (runningAllowed new t) new banks now t

theorem trainOf_dryersFollow (old new : SiteDirection) (s : State) (d : Fin 2) :
    trainOf (dryersFollow old new s) d = trainFollows old new s.dsq.banks (timeBase s) (trainOf s d) := nth_each _ _ d

/-- What is allowed as it was changes nothing. -/
theorem followAllowed_same (b : Bool) (d : SiteDirection) (banks : Vector (Vector BankEntry 24) 2) (now : Nat) (t : Train) :
    followAllowed b b d banks now t = t := by
  cases b <;> rfl

theorem dryersFollow_same (d : SiteDirection) (s : State) : (dryersFollow d d s).dsq = s.dsq := by
  have trains : (dryersFollow d d s).dsq.trains = s.dsq.trains := table_ext fun i => by
    rw [show nth (dryersFollow d d s).dsq.trains i = trainOf (dryersFollow d d s) i from rfl, trainOf_dryersFollow]
    exact followAllowed_same _ _ _ _ _
  calc (dryersFollow d d s).dsq = { s.dsq with trains := (dryersFollow d d s).dsq.trains } := rfl
    _ = s.dsq := by rw [trains]

/-- A turn by way of its changeover leaves a train as the turn at once does. -/
theorem trainFollows_through (c : Changeover) (banks : Vector (Vector BankEntry 24) 2) (now : Nat) (t : Train) :
    trainFollows (.changeover c) c.target.direction banks now (trainFollows c.target.other.direction (.changeover c) banks now t)
      = trainFollows c.target.other.direction c.target.direction banks now t := by
  have standby (d : SiteDirection) (h : d ≠ .withdrawing) (t : Train) : runningAllowed d t = t.standby := by
    simp [runningAllowed, h]
  cases hf : c.target with
  | injecting =>
    have parks (d : SiteDirection) (h : d ≠ .withdrawing) :
        trainFollows .withdrawing d banks now t = trainFollows .withdrawing .standby banks now t := by
      have was : runningAllowed .withdrawing t = true := by simp [runningAllowed]
      rw [trainFollows, trainFollows, was, standby d h, standby .standby nofun]
      cases t.standby <;> rfl
    simp only [Flow.other, Flow.direction, parks _ (show SiteDirection.changeover c ≠ .withdrawing by nofun),
      parks _ (show SiteDirection.injecting ≠ .withdrawing by nofun)]
    rw [trainFollows, standby (.changeover c) nofun, standby .injecting nofun, followAllowed_same]
  | withdrawing =>
    have stays : trainFollows .injecting (.changeover c) banks now t = t := by
      rw [trainFollows, standby .injecting nofun, standby (.changeover c) nofun, followAllowed_same]
    simp only [Flow.other, Flow.direction, stays]
    simp only [trainFollows, standby (.changeover c) nofun, standby .injecting nofun]

section
variable (x now : Nat) (banks : Vector (Vector BankEntry 24) 2) (t : Train)

theorem enterWritten_offSpecTenths (r : StepRecord) :
    enterWritten now r { t with offSpecTenths := x } = { enterWritten now r t with offSpecTenths := x } := by
  unfold enterWritten
  cases r.advance <;> rfl

theorem enterStep_offSpecTenths :
    enterStep banks now { t with offSpecTenths := x } = { enterStep banks now t with offSpecTenths := x } := by
  simp only [enterStep]
  split
  · exact enterWritten_offSpecTenths x now t _
  · have cycle : endCycle { t with offSpecTenths := x } = { endCycle t with offSpecTenths := x } := rfl
    simp only [cycle]
    split
    · exact enterWritten_offSpecTenths x now (endCycle t) _
    · rfl
  · rfl

theorem resume_offSpecTenths (d : SiteDirection) :
    resume d banks now { t with offSpecTenths := x } = { resume d banks now t with offSpecTenths := x } := by
  by_cases h : t.state = .parked ∧ runningAllowed d t = true ∧ bankValid (nth banks t.bank) = true
  · rw [resume, resume, if_pos h]
    exact (if_pos h).trans (enterStep_offSpecTenths x now banks t)
  · rw [resume, resume, if_neg h]
    exact if_neg h

/-- An order to park, where the train works. -/
theorem parked_offSpecTenths :
    followAllowed true false .standby banks now { t with offSpecTenths := x }
      = { followAllowed true false .standby banks now t with offSpecTenths := x } := by
  by_cases h : t.state = .running ∨ t.state = .waitInput
  · have parks : followAllowed true false .standby banks now t = { t with parkRequest := true } := if_pos h
    rw [parks]
    exact if_pos h
  · have stays : followAllowed true false .standby banks now t = t := if_neg h
    rw [stays]
    exact if_neg h

/-- What a train makes of a change of direction does not depend on its off-spec tenths, and leaves them. -/
theorem trainFollows_offSpecTenths (old new : SiteDirection) :
    trainFollows old new banks now { t with offSpecTenths := x } = { trainFollows old new banks now t with offSpecTenths := x } := by
  have allowed (d : SiteDirection) : runningAllowed d { t with offSpecTenths := x } = runningAllowed d t := rfl
  rw [trainFollows, trainFollows, allowed, allowed]
  cases runningAllowed old t <;> cases runningAllowed new t
  · rfl
  · exact resume_offSpecTenths x now banks { t with parkRequest := false } new
  · exact parked_offSpecTenths x now banks t
  · rfl

end

/-- The trains have followed the direction from `s` to `t`. -/
abbrev TrainsFollow (s t : State) : Prop := t.dsq = (dryersFollow s.dir.direction t.dir.direction s).dsq

theorem TrainsFollow.of_same {s t : State} (hq : t.dsq = s.dsq) (hd : t.dir.direction = s.dir.direction) : TrainsFollow s t := by
  rw [TrainsFollow, hq, hd, dryersFollow_same]

theorem TrainsFollow.changeDirection (new : SiteDirection) (s : State) : TrainsFollow s (changeDirection new s) := by
  rw [TrainsFollow, changeDirection_direction, changeDirection_dsq]

theorem TrainsFollow.testCompletion (s : State) : TrainsFollow s (testCompletion s) := by
  unfold Machine.testCompletion
  split
  · split
    · exact .changeDirection _ s
    · exact .of_same rfl rfl
  · exact .of_same rfl rfl

theorem TrainsFollow.unitsReported {s : State} (before : State) : TrainsFollow s (unitsReported before s) := by
  unfold Machine.unitsReported
  split
  · exact .of_same rfl rfl
  · exact .testCompletion s

theorem TrainsFollow.dutyEvaluation (s : State) : TrainsFollow s (dutyEvaluation s) :=
  TrainsFollow.unitsReported (s := evaluate s) s

/-- The trains follow a turn through its changeover as they follow the whole turn. -/
theorem TrainsFollow.through {s m t : State} {c : Changeover} (hs : s.dir.direction = c.target.other.direction)
    (hm : m.dir.direction = .changeover c) (ht : t.dir.direction = .changeover c ∨ t.dir.direction = c.target.direction)
    (hturn : Turned s m) (h : TrainsFollow s m) (k : TrainsFollow m t) : TrainsFollow s t := by
  rcases ht with ht | ht
  · have same : t.dsq = m.dsq := by
      have hk : t.dsq = (dryersFollow m.dir.direction t.dir.direction m).dsq := k
      rwa [ht, ← hm, dryersFollow_same] at hk
    rw [TrainsFollow, same, ht, ← hm]
    exact h
  · have hdsq : m.dsq = (dryersFollow c.target.other.direction (.changeover c) s).dsq := by rw [← hs, ← hm]; exact h
    have hk : t.dsq = (dryersFollow (.changeover c) c.target.direction m).dsq := by rw [← hm, ← ht]; exact k
    have trains : (dryersFollow (.changeover c) c.target.direction m).dsq.trains
        = (dryersFollow c.target.other.direction c.target.direction s).dsq.trains := table_ext fun d => by
      have first : trainOf m d = trainFollows c.target.other.direction (.changeover c) s.dsq.banks (timeBase s) (trainOf s d) := by
        rw [← trainOf_dryersFollow, trainOf, hdsq, trainOf]
      have banks : m.dsq.banks = s.dsq.banks := by rw [hdsq]; rfl
      have second := trainOf_dryersFollow (.changeover c) c.target.direction m d
      rw [first, banks, timeBase_turned hturn, trainFollows_through] at second
      exact second.trans (trainOf_dryersFollow _ _ s d).symm
    have banks : m.dsq.banks = s.dsq.banks := by rw [hdsq]; rfl
    rw [TrainsFollow, hk, hs, ht]
    calc (dryersFollow (.changeover c) c.target.direction m).dsq
        = { m.dsq with trains := (dryersFollow (.changeover c) c.target.direction m).dsq.trains } := rfl
      _ = { s.dsq with trains := (dryersFollow c.target.other.direction c.target.direction s).dsq.trains } := by
          rw [trains, hdsq]; rfl

/-! ### The target of an hour (R89) -/

/-- The target leads to a direction that is no changeover, or begins or keeps the changeover to it. -/
theorem takeTarget_cases (p : Fin 72) (s : State) :
    (∃ new, (∀ c, new ≠ .changeover c) ∧ nextDirection (timeBase s) (hourTarget s p) s.dir.direction = new
        ∧ takeTarget p s = if new = s.dir.direction then s else changeDirection new s)
      ∨ (∃ c : Changeover, hourTarget s p = some c.target ∧ s.dir.direction = c.target.other.direction
          ∧ c = ⟨c.target, timeBase s, false⟩ ∧ takeTarget p s = unitsReported s (changeDirection (.changeover c) s))
      ∨ ∃ c : Changeover, hourTarget s p = some c.target ∧ s.dir.direction = .changeover c ∧ takeTarget p s = s := by
  have settled (new : SiteDirection) (hn : ∀ c, new ≠ .changeover c)
      (he : nextDirection (timeBase s) (hourTarget s p) s.dir.direction = new) :
      takeTarget p s = if new = s.dir.direction then s else changeDirection new s := by
    have step : unitsReported s (changeDirection new s) = changeDirection new s :=
      unitsReported_settled fun c => by rw [changeDirection_direction]; exact hn c
    simp only [takeTarget, he, step]
  have turns (c : Changeover) (hd : s.dir.direction ≠ .changeover c)
      (he : nextDirection (timeBase s) (hourTarget s p) s.dir.direction = .changeover c) :
      takeTarget p s = unitsReported s (changeDirection (.changeover c) s) := by
    unfold takeTarget
    rw [he]
    exact if_neg fun h => hd h.symm
  cases ht : hourTarget s p with
  | none =>
    have he : nextDirection (timeBase s) (hourTarget s p) s.dir.direction = .standby := by
      rw [ht]
      cases s.dir.direction <;> rfl
    exact .inl ⟨.standby, nofun, by rw [← ht, he], settled _ nofun he⟩
  | some f =>
    cases hd : s.dir.direction with
    | standby =>
      have he : nextDirection (timeBase s) (hourTarget s p) s.dir.direction = f.direction := by rw [ht, hd]; rfl
      exact .inl ⟨_, direction_ne_changeover f, by cases f <;> rfl, by rw [← hd]; exact settled _ (direction_ne_changeover f) he⟩
    | injecting =>
      cases f with
      | injecting => 
        have h := settled .injecting nofun (by rw [ht, hd]; rfl)
        exact .inl ⟨.injecting, nofun, rfl, by rwa [hd] at h⟩
      | withdrawing =>
        exact .inr (.inl ⟨⟨.withdrawing, timeBase s, false⟩, rfl, rfl, rfl, turns _ (by rw [hd]; nofun) (by rw [ht, hd]; rfl)⟩)
    | withdrawing =>
      cases f with
      | injecting =>
        exact .inr (.inl ⟨⟨.injecting, timeBase s, false⟩, rfl, rfl, rfl, turns _ (by rw [hd]; nofun) (by rw [ht, hd]; rfl)⟩)
      | withdrawing => 
        have h := settled .withdrawing nofun (by rw [ht, hd]; rfl)
        exact .inl ⟨.withdrawing, nofun, rfl, by rwa [hd] at h⟩
    | changeover c =>
      by_cases hf : f = c.target
      · subst hf
        refine .inr (.inr ⟨c, rfl, rfl, ?_⟩)
        have he : nextDirection (timeBase s) (hourTarget s p) s.dir.direction = s.dir.direction := by
          rw [ht, hd]
          exact if_pos rfl
        unfold takeTarget
        exact if_pos he
      · have he : nextDirection (timeBase s) (hourTarget s p) s.dir.direction = f.direction := by
          rw [ht, hd]
          exact if_neg hf
        have h := settled _ (direction_ne_changeover f) he
        exact .inl ⟨_, direction_ne_changeover f, by rw [← ht, ← hd, he], by rwa [hd] at h⟩

theorem leaveInjecting_atRest (s : State) : atRest (leaveInjecting s).cpd := by
  intro u
  simp only [leaveInjecting, State.withCpd_cpd, nth_each]
  split
  · exact stopUnit_notActive _ _ _ _
  · next h => exact Bool.eq_false_iff.mpr h

/-- The state after the target of the hour at position `p` and the duty evaluation that follows it. -/
abbrev hourTurn (p : Fin 72) (s : State) : State := dutyEvaluation (takeTarget p s)

theorem hourTurn_turned (p : Fin 72) (s : State) : Turned s (hourTurn p s) := (takeTarget_turned p s).trans (dutyEvaluation_turned _)

section
variable {p : Fin 72} {s : State}

/-! #### A direction that is no changeover -/

theorem hourTurn_settled {new : SiteDirection} (hn : ∀ c, new ≠ .changeover c)
    (ht : takeTarget p s = if new = s.dir.direction then s else changeDirection new s) :
    hourTurn p s = evaluate (if new = s.dir.direction then s else changeDirection new s) := by
  rw [hourTurn, ht, dutyEvaluation_settled]
  intro c
  split
  · next h => rw [← h]; exact hn c
  · rw [changeDirection_direction]; exact hn c

theorem hourTurn_settled_direction {new : SiteDirection} (hn : ∀ c, new ≠ .changeover c)
    (ht : takeTarget p s = if new = s.dir.direction then s else changeDirection new s) : (hourTurn p s).dir.direction = new := by
  rw [hourTurn_settled hn ht]
  split
  · next h => exact h.symm
  · exact changeDirection_direction new s

theorem hourTurn_settled_trains {new : SiteDirection} (hn : ∀ c, new ≠ .changeover c)
    (ht : takeTarget p s = if new = s.dir.direction then s else changeDirection new s) : TrainsFollow s (hourTurn p s) := by
  rw [hourTurn_settled hn ht]
  split
  · exact .of_same rfl rfl
  · exact TrainsFollow.changeDirection new s

/-! #### A changeover begun -/

/-- From INJECTING the changeover finds the units at rest, and the evaluation after it leaves them (R106, R108). -/
theorem dutyEvaluation_left {r : State} (hc : r.cpd = (leaveInjecting s).cpd) (hd : r.dir.direction ≠ .injecting) :
    dutyEvaluation r = r := by
  rw [dutyEvaluation_atRest (by rw [hc]; exact leaveInjecting_atRest s) hd]
  have zeros : { r.cpd with demand := 0, shortfall := 0, reason := .noShortfall } = r.cpd := by
    rw [hc]
    rfl
  rw [zeros, State.withCpd_self]

theorem unitsReported_cases {before after : State} {c : Changeover} (hd : after.dir.direction = .changeover c) :
    (unitsReported before after = after
        ∧ ¬((∃ u, (unitOf after u).state ≠ (unitOf before u).state) ∧ changeoverComplete after c = true))
      ∨ (unitsReported before after = changeDirection c.target.direction after
        ∧ (∃ u, (unitOf after u).state ≠ (unitOf before u).state) ∧ changeoverComplete after c = true) := by
  by_cases hsame : ∀ u, (unitOf after u).state = (unitOf before u).state
  · exact .inl ⟨unitsReported_same hsame, fun ⟨⟨u, hu⟩, _⟩ => hu (hsame u)⟩
  · obtain ⟨u, hu⟩ := not_forall.mp hsame
    rw [unitsReported_changed hu]
    cases hc : changeoverComplete after c with
    | false => exact .inl ⟨testCompletion_incomplete hd hc, fun h => Bool.false_ne_true h.2⟩
    | true => exact .inr ⟨testCompletion_complete hd hc, ⟨u, hu⟩, rfl⟩

/-- From INJECTING the hour begins a changeover to WITHDRAWING, which is over at once where the stops of the units are the event at which
its three tests hold (R89, R90, R108). -/
theorem hourTurn_leaving {c : Changeover} (hf : c.target = .withdrawing) (hs : s.dir.direction = .injecting)
    (ht : takeTarget p s = unitsReported s (changeDirection (.changeover c) s)) :
    (hourTurn p s).cpd = (leaveInjecting s).cpd ∧ TrainsFollow s (hourTurn p s)
      ∧ (hourTurn p s).dir.direction
          = if (∃ u, (unitOf (hourTurn p s) u).state ≠ (unitOf s u).state) ∧ changeoverComplete (hourTurn p s) c = true then
              c.target.direction
            else .changeover c := by
  have hm : (changeDirection (.changeover c) s).dir.direction = .changeover c := changeDirection_direction _ s
  have cpd : (changeDirection (.changeover c) s).cpd = (leaveInjecting s).cpd := by
    rw [changeDirection_cpd, turnedCpd, if_pos hs]
    exact if_neg nofun
  have begun : TrainsFollow s (changeDirection (.changeover c) s) := .changeDirection _ s
  rcases unitsReported_cases (before := s) hm with ⟨hr, hnot⟩ | ⟨hr, hyes⟩
  · have here : hourTurn p s = changeDirection (.changeover c) s := by
      rw [hourTurn, ht, hr, dutyEvaluation_left cpd (by rw [hm]; nofun)]
    rw [here]
    exact ⟨cpd, begun, by rw [if_neg hnot, hm]⟩
  · have turnedOn : (changeDirection c.target.direction (changeDirection (.changeover c) s)).cpd
        = (changeDirection (.changeover c) s).cpd := by
      rw [changeDirection_cpd, turnedCpd_of_changeover hm, hf]
      exact if_neg nofun
    have here : hourTurn p s = changeDirection c.target.direction (changeDirection (.changeover c) s) := by
      rw [hourTurn, ht, hr, dutyEvaluation_left (turnedOn.trans cpd) (by rw [changeDirection_direction, hf]; nofun)]
    have units (u : Fin 4) : unitOf (changeDirection c.target.direction (changeDirection (.changeover c) s)) u
        = unitOf (changeDirection (.changeover c) s) u := by rw [unitOf, turnedOn, unitOf]
    have complete := changeoverComplete_turned (c := c) (changeDirection_turned c.target.direction (changeDirection (.changeover c) s))
      (fun _ u => by rw [units])
    rw [here, complete]
    simp only [units]
    refine ⟨turnedOn.trans cpd, ?_, by rw [if_pos hyes, changeDirection_direction]⟩
    exact TrainsFollow.through (by rw [hs, hf]; rfl) hm (.inr (changeDirection_direction _ _)) (changeDirection_turned _ s) begun
      (.changeDirection _ _)

/-- From WITHDRAWING the units stand at the turn, and the changeover to INJECTING is judged at the duty evaluation. -/
theorem hourTurn_entering {c : Changeover} (hs : s.dir.direction = .withdrawing)
    (ht : takeTarget p s = unitsReported s (changeDirection (.changeover c) s)) :
    hourTurn p s = dutyEvaluation (changeDirection (.changeover c) s) ∧ (changeDirection (.changeover c) s).cpd = s.cpd := by
  have cpd : (changeDirection (.changeover c) s).cpd = s.cpd := by
    have h : s.dir.direction ≠ .injecting := by rw [hs]; nofun
    rw [changeDirection_cpd, turnedCpd, if_neg h]
    exact if_neg nofun
  refine ⟨?_, cpd⟩
  rw [hourTurn, ht, unitsReported_same]
  intro u
  rw [unitOf, cpd, unitOf]

end

/-- In a changeover the duty evaluation leaves the changeover or its target. -/
theorem dutyEvaluation_changeover_or {s : State} {c : Changeover} (hd : s.dir.direction = .changeover c) :
    (dutyEvaluation s).dir.direction = .changeover c ∨ (dutyEvaluation s).dir.direction = c.target.direction := by
  rw [dutyEvaluation_changeover hd]
  split
  · exact .inr rfl
  · exact .inl rfl

/-! ### The turn of an hour, whole -/

/-- The trains follow the direction of the hour (R92, R128). -/
theorem hourTurn_trains (p : Fin 72) (s : State) : TrainsFollow s (hourTurn p s) := by
  rcases takeTarget_cases p s with ⟨new, hn, -, ht⟩ | ⟨c, -, hs, -, ht⟩ | ⟨c, -, hs, ht⟩
  · exact hourTurn_settled_trains hn ht
  · cases hf : c.target with
    | withdrawing => exact (hourTurn_leaving hf (by rw [hs, hf]; rfl) ht).2.1
    | injecting =>
      obtain ⟨here, -⟩ := hourTurn_entering (by rw [hs, hf]; rfl) ht
      rw [here]
      have hm : (changeDirection (.changeover c) s).dir.direction = .changeover c := changeDirection_direction _ s
      exact TrainsFollow.through hs hm (dutyEvaluation_changeover_or hm) (changeDirection_turned _ s) (.changeDirection _ s)
        (.dutyEvaluation _)
  · rw [hourTurn, ht]
    exact .dutyEvaluation s

/-- Leaving INJECTING, the units are those of the change of direction (R108). -/
theorem hourTurn_left {p : Fin 72} {s : State} (hs : s.dir.direction = .injecting) (ht : (hourTurn p s).dir.direction ≠ .injecting) :
    (hourTurn p s).cpd = (leaveInjecting s).cpd := by
  rcases takeTarget_cases p s with ⟨new, hn, -, hc⟩ | ⟨c, -, hd, -, hc⟩ | ⟨c, -, hd, -⟩
  · have hdir := hourTurn_settled_direction hn hc
    have hne : new ≠ s.dir.direction := by rw [hs, ← hdir]; exact ht
    have here : hourTurn p s = dutyEvaluation (changeDirection new s) := by rw [hourTurn, hc, if_neg hne]
    have cpd : (changeDirection new s).cpd = (leaveInjecting s).cpd := by
      rw [changeDirection_cpd, turnedCpd, if_pos hs]
      exact if_neg (by rw [← hs]; exact hne)
    rw [here, dutyEvaluation_left cpd (by rw [changeDirection_direction, ← hs]; exact hne), cpd]
  · have hf : c.target = .withdrawing := by
      cases hf : c.target with
      | withdrawing => rfl
      | injecting => rw [hs, hf] at hd; cases hd
    exact (hourTurn_leaving hf hs hc).1
  · rw [hs] at hd
    cases hd

/-- Not leaving INJECTING, the units take one duty evaluation at the hour's net (R106). -/
theorem hourTurn_duty {p : Fin 72} {s : State} (hrest : RunOnlyInjecting s)
    (hstay : s.dir.direction = .injecting → (hourTurn p s).dir.direction = .injecting) :
    (hourTurn p s).cpd = evaluatedCpd (demandOf (hourTurn p s)) (timeBase (hourTurn p s)) s.cpd := by
  have rest (h : s.dir.direction ≠ .injecting) : atRest s.cpd := fun u => by
    obtain ⟨h1, h2⟩ := hrest h u
    simp only [UnitRecord.isActive, unitOf] at h1 h2 ⊢
    simp [h1, h2]
  have once {r : State} (here : hourTurn p s = evaluate r) (hr : r.cpd = s.cpd) :
      (hourTurn p s).cpd = evaluatedCpd (demandOf (hourTurn p s)) (timeBase (hourTurn p s)) s.cpd := by
    rw [here, ← hr]
    rfl
  rcases takeTarget_cases p s with ⟨new, hn, -, hc⟩ | ⟨c, -, hd, -, hc⟩ | ⟨c, -, hd, hc⟩
  · have here := hourTurn_settled hn hc
    by_cases hsame : new = s.dir.direction
    · rw [if_pos hsame] at here
      exact once here rfl
    · rw [if_neg hsame] at here
      have hne : s.dir.direction ≠ .injecting := fun h => hsame (by rw [← hourTurn_settled_direction hn hc, hstay h, h])
      have cpd : (changeDirection new s).cpd = turnedCpd new s := changeDirection_cpd new s
      rw [turnedCpd, if_neg hne] at cpd
      by_cases hi : new = .injecting
      · have turn := changeDirection_turned new s
        have demand : demandOf (s.withDir { s.dir with direction := new }) = demandOf (changeDirection new s) := by
          have net : openNet (changeDirection new s) = openNet s := openNet_refirmed turn.toRefirmed
          unfold demandOf
          rw [net, changeDirection_dir]
          rfl
        have time : timeBase (changeDirection new s) = timeBase s := timeBase_turned turn
        rw [if_pos hi, demand, ← time] at cpd
        rw [here]
        show evaluatedCpd (demandOf (changeDirection new s)) (timeBase (changeDirection new s)) (changeDirection new s).cpd
          = evaluatedCpd (demandOf (changeDirection new s)) (timeBase (changeDirection new s)) s.cpd
        rw [cpd, evaluatedCpd_twice (rest hne)]
      · rw [if_neg hi] at cpd
        exact once here cpd
  · cases hf : c.target with
    | withdrawing =>
      have hi : s.dir.direction = .injecting := by rw [hd, hf]; rfl
      obtain ⟨-, -, hdir⟩ := hourTurn_leaving hf hi hc
      rw [hstay hi, hf] at hdir
      split at hdir <;> cases hdir
    | injecting =>
      have hw : s.dir.direction = .withdrawing := by rw [hd, hf]; rfl
      obtain ⟨here, cpd⟩ := hourTurn_entering hw hc
      have hne : (changeDirection (.changeover c) s).dir.direction ≠ .injecting := by rw [changeDirection_direction]; nofun
      have hrest' : atRest (changeDirection (.changeover c) s).cpd := by rw [cpd]; exact rest (by rw [hw]; nofun)
      refine once (here.trans ?_) cpd
      rw [dutyEvaluation_atRest hrest' hne, evaluate_eq, demandOf_other hne, evaluatedCpd_atRest hrest']
  · have hne : s.dir.direction ≠ .injecting := by rw [hd]; nofun
    refine once ?_ rfl
    rw [hourTurn, hc, dutyEvaluation_atRest (rest hne) hne, evaluate_eq, demandOf_other hne, evaluatedCpd_atRest (rest hne)]

/-- With no target the site stands by (R89). -/
theorem hourTurn_standby {p : Fin 72} {s : State} (h : hourTarget s p = none) : (hourTurn p s).dir.direction = .standby := by
  rcases takeTarget_cases p s with ⟨new, hn, hnew, hc⟩ | ⟨c, ht, -⟩ | ⟨c, ht, -⟩
  · rw [hourTurn_settled_direction hn hc, ← hnew, h]
    cases s.dir.direction <;> rfl
  · rw [h] at ht; cases ht
  · rw [h] at ht; cases ht

/-- A target that asks for no turn is entered at once (R89). -/
theorem hourTurn_enters {p : Fin 72} {s : State} {f : Flow} (h : hourTarget s p = some f)
    (hs : s.dir.direction = .standby ∨ s.dir.direction = f.direction ∨ ∃ c, s.dir.direction = .changeover c ∧ c.target ≠ f) :
    (hourTurn p s).dir.direction = f.direction := by
  have next : nextDirection (timeBase s) (hourTarget s p) s.dir.direction = f.direction := by
    rw [h]
    rcases hs with hs | hs | ⟨c, hs, hc⟩ <;> rw [hs]
    · rfl
    · cases f <;> rfl
    · exact if_neg fun he => hc he.symm
  rcases takeTarget_cases p s with ⟨new, hn, hnew, hc⟩ | ⟨c, ht, hd, -, -⟩ | ⟨c, ht, hd, -⟩
  · rw [hourTurn_settled_direction hn hc, ← hnew, next]
  · obtain rfl : c.target = f := Option.some.inj (ht.symm.trans h)
    rw [h, hd] at next
    cases hf : c.target <;> rw [hf] at next <;> cases next
  · obtain rfl : c.target = f := Option.some.inj (ht.symm.trans h)
    rw [h, hd] at next
    cases hf : c.target <;> simp [nextDirection, hf, Flow.direction] at next

/-- A turn begins a changeover, and a changeover to the hour's target goes on, unless a unit's stop is the event at which its three tests
hold (R89, R90). -/
theorem hourTurn_turns {p : Fin 72} {s : State} {c : Changeover} (h : hourTarget s p = some c.target)
    (hs : (s.dir.direction = c.target.other.direction ∧ c = ⟨c.target, timeBase s, false⟩) ∨ s.dir.direction = .changeover c) :
    (hourTurn p s).dir.direction
      = if (∃ u, (unitOf (hourTurn p s) u).state ≠ (unitOf s u).state) ∧ changeoverComplete (hourTurn p s) c = true then
          c.target.direction
        else .changeover c := by
  rcases takeTarget_cases p s with ⟨new, hn, hnew, -⟩ | ⟨c', ht, hd, hc', hc⟩ | ⟨c', ht, hd, hc⟩
  · refine absurd ?_ (hn c)
    rw [← hnew, h]
    rcases hs with ⟨hs, hc⟩ | hs <;> rw [hs]
    · rw [hc]
      cases c.target <;> rfl
    · exact if_pos rfl
  · have htarget : c'.target = c.target := Option.some.inj (ht.symm.trans h)
    obtain rfl : c = c' := by
      rcases hs with ⟨-, hc⟩ | hs
      · rw [hc', hc, htarget]
      · rw [hd] at hs
        cases hf : c'.target <;> rw [hf] at hs <;> cases hs
    cases hf : c.target with
    | withdrawing => rw [← hf]; exact (hourTurn_leaving hf (by rw [hd, hf]; rfl) hc).2.2
    | injecting =>
      obtain ⟨here, cpd⟩ := hourTurn_entering (by rw [hd, hf]; rfl) hc
      have units (u : Fin 4) : unitOf (changeDirection (.changeover c) s) u = unitOf s u := by rw [unitOf, cpd, unitOf]
      rw [here, ← hf, dutyEvaluation_changeover (changeDirection_direction _ s)]
      simp only [units]
  · obtain rfl : c = c' := by
      rcases hs with ⟨hs, -⟩ | hs
      · rw [hd] at hs
        cases hf : c.target <;> rw [hf] at hs <;> cases hs
      · rw [hd] at hs
        cases hs
        rfl
    rw [hourTurn, hc]
    exact dutyEvaluation_changeover hd

end Sys2Proof.Machine

/-! SUPPORT. A run of firms, and the start of an hour as R4, R56, R89 and R161 state it. -/

namespace Sys2Proof.Machine

open Sys2Proof.Safety

/-! ### A run of firms (R10, R161, R164) -/

/-- The hours at the positions from `start` up to `stop` are firmed in `t`, and from `s` to `t` nothing else has changed: an hour firmed
before stands whole, as do the hours outside, and of the conditions and event flags HOUR_FIRMED alone can have been set. -/
structure HoursFirmed (start stop : Nat) (s t : State) : Prop where
  changes : ChangesOnly [.cdt, .nfu] s t
  nfu : t.nfu = { s.nfu with hours := t.nfu.hours }
  firmed : ∀ q : Fin 72, start ≤ q.val → q.val < stop → (hourOf t q).site.firmed = true
  outside : ∀ q : Fin 72, q.val < start ∨ stop ≤ q.val → hourOf t q = hourOf s q
  stands : ∀ q, (hourOf s q).site.firmed = true → hourOf t q = hourOf s q
  closed : ∀ q, (hourOf t q).site.closed = (hourOf s q).site.closed
  entries : ∀ q a, ∃ x y z, entryOf t q a = { entryOf s q a with confirmed := x, reduced := y, curtailed := z }
  conditions : ∀ n, conditionActive t n = conditionActive s n
  com : ∀ e, e ≠ evHourFirmed → nth t.cdt.com.flags e = nth s.cdt.com.flags e
  marked : nth s.cdt.com.flags evHourFirmed = true → nth t.cdt.com.flags evHourFirmed = true
  ops : t.cdt.ops = s.cdt.ops

theorem HoursFirmed.of_none (start : Nat) (s : State) {stop : Nat} (h : stop ≤ start ∨ 72 ≤ start) : HoursFirmed start stop s s :=
  ⟨.refl _ s, rfl, fun q h1 h2 => by omega, fun _ _ => rfl, fun _ _ => rfl, fun _ => rfl, fun _ _ => ⟨_, _, _, rfl⟩, fun _ => rfl,
    fun _ _ => rfl, id, rfl⟩

theorem HoursFirmed.trans {a b c : Nat} {s t u : State} (hb : a ≤ b) (hc : b ≤ c) (h : HoursFirmed a b s t) (k : HoursFirmed b c t u) :
    HoursFirmed a c s u where
  changes := h.changes.trans k.changes
  nfu := by rw [k.nfu, h.nfu]
  firmed q h1 h2 := by
    by_cases hq : b ≤ q.val
    · exact k.firmed q hq h2
    · have first := h.firmed q h1 (by omega)
      rw [k.stands q first, first]
  outside q hq := (k.outside q (by omega)).trans (h.outside q (by omega))
  stands q hq := (k.stands q (by rw [h.stands q hq, hq])).trans (h.stands q hq)
  closed q := (k.closed q).trans (h.closed q)
  entries q a := by
    obtain ⟨_, _, _, h1⟩ := h.entries q a
    obtain ⟨_, _, _, h2⟩ := k.entries q a
    exact ⟨_, _, _, by rw [h2, h1]⟩
  conditions n := (k.conditions n).trans (h.conditions n)
  com e he := (k.com e he).trans (h.com e he)
  marked hm := k.marked (h.marked hm)
  ops := k.ops.trans h.ops

/-- An hour that a firm records. -/
theorem firm_of_unfirmed {p : Fin 72} {s : State} (h : (hourOf s p).site.firmed = false) :
    firm p s = setEventCom evHourFirmed (alterHour p (fun c => firmedCell s c (tab fun a => rightsQuantity s a (requestedOf s p a))
      (curtail (tab fun a => rightsQuantity s a (requestedOf s p a)) (injectionCapacity s) (withdrawalCapacity s))
      (injectionCapacity s) (withdrawalCapacity s)) s) := by
  unfold firm
  rw [if_neg (by rw [h]; exact Bool.false_ne_true)]

theorem firm_hoursFirmed (p : Fin 72) (s : State) : HoursFirmed p.val (p.val + 1) s (firm p s) := by
  have other {q : Fin 72} (hq : q.val < p.val ∨ p.val + 1 ≤ q.val) : q ≠ p := fun h => by subst h; omega
  have own (q : Fin 72) (h1 : p.val ≤ q.val) (h2 : q.val < p.val + 1) : (hourOf (firm p s) q).site.firmed = true := by
    obtain rfl : q = p := Fin.ext (by omega)
    exact firmed_firm q s
  cases hf : (hourOf s p).site.firmed with
  | true =>
    have same : firm p s = s := firm_of_firmed hf
    rw [same] at own ⊢
    exact { HoursFirmed.of_none p.val s (stop := p.val) (.inl le_rfl) with
      firmed := own
      outside := fun _ _ => rfl }
  | false =>
    have whole := firm_of_unfirmed hf
    refine ⟨firm_changes p s, by rw [whole]; rfl, own, fun q hq => hourOf_firm_other s (other hq), fun q hq => ?_, fun q => ?_,
      fun q a => ?_, fun n => by rw [whole]; rfl, fun e he => ?_, fun _ => hourFirmed_firm hf, by rw [whole]; rfl⟩
    · exact hourOf_firm_other s fun h => by rw [h, hf] at hq; cases hq
    · by_cases hq : q = p
      · subst hq
        rw [whole, hourOf_setEventCom, hourOf_alterHour_same]
        rfl
      · rw [hourOf_firm_other s hq]
    · by_cases hq : q = p
      · subst hq
        rw [entryOf, whole, hourOf_setEventCom, hourOf_alterHour_same]
        simp only [firmedCell, nth_tab]
        split <;> exact ⟨_, _, _, rfl⟩
      · rw [entryOf, hourOf_firm_other s hq]
        exact ⟨_, _, _, rfl⟩
    · rw [whole, comFlags_setEventCom, if_neg he]
      rfl

theorem firmRun_hoursFirmed (start count : Nat) (s : State) : HoursFirmed start (start + count) s (firmRun start count s) := by
  induction count generalizing start s with
  | zero => exact .of_none start s (.inl le_rfl)
  | succ count ih =>
    rw [firmRun]
    split
    · next p hp =>
      obtain rfl : p.val = start := by
        unfold index? at hp
        split at hp <;> cases hp
        rfl
      have rest := ih (p.val + 1) (firm p s)
      rw [show p.val + 1 + count = p.val + (count + 1) by omega] at rest
      exact (firm_hoursFirmed p s).trans (by omega) (by omega) rest
    · next hp =>
      refine .of_none start s (.inr ?_)
      unfold index? at hp
      split at hp
      · cases hp
      · omega

/-! ### The lead of the hour that starts (R161) -/

theorem changeLead_of_none {p : Fin 72} {s : State} (h : s.nfu.pendingLead = none) : changeLead p s = s := by
  unfold changeLead
  rw [h]

theorem changeLead_of_some {p : Fin 72} {s : State} {lead : Nat} (h : s.nfu.pendingLead = some lead) :
    ∃ count, lead - 1 ≤ count
      ∧ HoursFirmed (p.val + 1) (p.val + 1 + count) (s.withNfu { s.nfu with lead := lead, pendingLead := none }) (changeLead p s) := by
  unfold changeLead
  rw [h]
  refine ⟨_, ?_, firmRun_hoursFirmed _ _ _⟩
  unfold overdueCount
  split <;> omega

/-- The leads after the start of an hour. -/
theorem changeLead_lead (p : Fin 72) (s : State) :
    (changeLead p s).nfu.lead = s.nfu.pendingLead.getD s.nfu.lead ∧ (changeLead p s).nfu.pendingLead = none := by
  cases h : s.nfu.pendingLead with
  | none =>
    rw [changeLead_of_none h]
    exact ⟨rfl, h⟩
  | some lead =>
    obtain ⟨count, -, run⟩ := changeLead_of_some (p := p) h
    rw [run.nfu]
    exact ⟨rfl, rfl⟩

/-! ### What an event leaves of the hours -/

/-- From `s` to `t` hours have at most been firmed or re-firmed: no hour is closed, none is unfirmed, no request, allocation or fuel is
changed, the rows stay on their days, and of the event flags HOUR_FIRMED, REFIRMED and DIRECTION_CHANGED alone can have been set. -/
structure HoursKept (s t : State) : Prop where
  closed : ∀ q, (hourOf t q).site.closed = (hourOf s q).site.closed
  firmed : ∀ q, (hourOf s q).site.firmed = true → (hourOf t q).site.firmed = true
  entries : ∀ q a, ∃ x y z w, entryOf t q a = { entryOf s q a with confirmed := x, reduced := y, curtailed := z, refirmed := w }
  today : t.nfu.todayDay = s.nfu.todayDay
  com : ∀ e, e ≠ evRefirmed → e ≠ evHourFirmed → nth t.cdt.com.flags e = nth s.cdt.com.flags e
  marked : nth s.cdt.com.flags evHourFirmed = true → nth t.cdt.com.flags evHourFirmed = true
  ops : ∀ e, e ≠ evDirectionChanged → nth t.cdt.ops.flags e = nth s.cdt.ops.flags e

/-- An event that touches neither the hours, nor their day, nor the event flags. -/
theorem HoursKept.of_eq {s t : State} (hh : t.nfu.hours = s.nfu.hours) (hd : t.nfu.todayDay = s.nfu.todayDay)
    (hcom : t.cdt.com = s.cdt.com) (hops : t.cdt.ops = s.cdt.ops) : HoursKept s t := by
  have hour (q) : hourOf t q = hourOf s q := by rw [hourOf, hh, hourOf]
  exact ⟨fun q => by rw [hour], fun q hq => by rw [hour, hq], fun q a => ⟨_, _, _, _, by rw [entryOf, hour, entryOf]⟩, hd,
    fun e _ _ => by rw [hcom], fun hm => by rw [hcom, hm], fun e _ => by rw [hops]⟩

theorem HoursKept.refl (s : State) : HoursKept s s := .of_eq rfl rfl rfl rfl

theorem HoursKept.trans {s t u : State} (h : HoursKept s t) (k : HoursKept t u) : HoursKept s u where
  closed q := (k.closed q).trans (h.closed q)
  firmed q hq := k.firmed q (h.firmed q hq)
  entries q a := by
    obtain ⟨_, _, _, _, h1⟩ := h.entries q a
    obtain ⟨_, _, _, _, h2⟩ := k.entries q a
    exact ⟨_, _, _, _, by rw [h2, h1]⟩
  today := k.today.trans h.today
  com e h1 h2 := (k.com e h1 h2).trans (h.com e h1 h2)
  marked hm := k.marked (h.marked hm)
  ops e he := (k.ops e he).trans (h.ops e he)

theorem Refirmed.kept {s t : State} (h : Refirmed s t) : HoursKept s t where
  closed := h.closed
  firmed q hq := by rw [h.firmed q, hq]
  entries q a := by
    obtain ⟨_, _, he⟩ := h.entries q a
    exact ⟨_, _, _, _, he⟩
  today := h.today
  com e he _ := h.com e he
  marked hm := by rw [h.com _ (by decide), hm]
  ops := h.ops

theorem HoursFirmed.kept {a b : Nat} {s t : State} (h : HoursFirmed a b s t) : HoursKept s t where
  closed := h.closed
  firmed q hq := by rw [h.stands q hq, hq]
  entries q a := by
    obtain ⟨_, _, _, he⟩ := h.entries q a
    exact ⟨_, _, _, _, he⟩
  today := by rw [h.nfu]
  com e _ he := h.com e he
  marked := h.marked
  ops e _ := by rw [h.ops]

section
variable {s t : State} (h : HoursKept s t) (q : Fin 72) (a : Fin 16)
include h

theorem HoursKept.requested : (entryOf t q a).requested = (entryOf s q a).requested := by
  obtain ⟨_, _, _, _, he⟩ := h.entries q a
  rw [he]

theorem HoursKept.allocated : (entryOf t q a).allocated = (entryOf s q a).allocated := by
  obtain ⟨_, _, _, _, he⟩ := h.entries q a
  rw [he]

theorem HoursKept.fuel : (entryOf t q a).fuel = (entryOf s q a).fuel := by
  obtain ⟨_, _, _, _, he⟩ := h.entries q a
  rw [he]

end

theorem changeLead_kept (p : Fin 72) (s : State) : HoursKept s (changeLead p s) := by
  cases h : s.nfu.pendingLead with
  | none =>
    rw [changeLead_of_none h]
    exact .refl s
  | some lead =>
    obtain ⟨_, -, run⟩ := changeLead_of_some (p := p) h
    have replaced : HoursKept s (s.withNfu { s.nfu with lead := lead, pendingLead := none }) := .of_eq rfl rfl rfl rfl
    exact replaced.trans run.kept

/-- The lead of an hour's start firms no hour up to that hour. -/
theorem hourOf_changeLead {p q : Fin 72} (hq : q ≤ p) (s : State) : hourOf (changeLead p s) q = hourOf s q := by
  cases h : s.nfu.pendingLead with
  | none => rw [changeLead_of_none h]
  | some lead =>
    obtain ⟨_, -, run⟩ := changeLead_of_some (p := p) h
    exact run.outside q (.inl (Nat.lt_succ_of_le hq))

theorem conditionActive_changeLead (p : Fin 72) (s : State) (n : Fin 56) : conditionActive (changeLead p s) n = conditionActive s n := by
  cases h : s.nfu.pendingLead with
  | none => rw [changeLead_of_none h]
  | some lead =>
    obtain ⟨_, -, run⟩ := changeLead_of_some (p := p) h
    exact run.conditions n

/-! ### The start of an hour, whole (R4) -/

/-- An hour's CV and lead, before its direction. -/
abbrev hourPrepared (p : Fin 72) (s : State) : State := changeLead p (latchCv s)

theorem hourPrepared_changes (p : Fin 72) (s : State) : ChangesOnly [.mtu, .cdt, .nfu] s (hourPrepared p s) :=
  ((latchCv_changes s).mono (by decide)).trans ((changeLead_changes p _).mono (by decide))

theorem hourPrepared_clock (p : Fin 72) (s : State) : (hourPrepared p s).clock = s.clock :=
  clock_of_changes (hourPrepared_changes p s) (by decide)

theorem startHour_turn (p : Fin 72) (s : State) :
    startHour p s = (hourTurn p (hourPrepared p s)).withClock { (hourTurn p (hourPrepared p s)).clock with trimmed := false } := rfl

theorem startHour_kept (p : Fin 72) (s : State) : HoursKept s (startHour p s) := by
  rw [startHour_turn]
  exact (((latchCv_refirmed s).kept.trans (changeLead_kept p _)).trans (hourTurn_turned p _).kept).trans (.of_eq rfl rfl rfl rfl)

/-- The hours up to the one that starts stand. -/
theorem hourOf_startHour {p q : Fin 72} {s : State} (ho : openPosition s = some p) (hq : q ≤ p) :
    hourOf (startHour p s) q = hourOf s q := by
  have latched := (latchCv_refirmed s).stands q (refirmReaches_started ho hq)
  have turned := (hourTurn_turned p (hourPrepared p s)).stands q
    (refirmReaches_started ((openPosition_congr (hourPrepared_clock p s)).trans ho) hq)
  exact turned.trans ((hourOf_changeLead hq _).trans latched)

/-- What the start of the hour at position `p` takes of an earlier state `s₀`: the time and the readings, the CV's settings and its last
value, the leads, the direction, the units, and the trains but for their off-spec tenths. -/
structure StartsFrom (p : Fin 72) (s₀ s : State) : Prop where
  opened : openPosition s = some p
  fine : s.fine = s₀.fine
  fsu : s.fsu = s₀.fsu
  cpd : s.cpd = s₀.cpd
  site : s.dir.site = s₀.dir.site
  direction : s.dir.direction = s₀.dir.direction
  lead : s.nfu.lead = s₀.nfu.lead
  pendingLead : s.nfu.pendingLead = s₀.nfu.pendingLead
  cvSource : s.mtu.cvSource = s₀.mtu.cvSource
  cvDefault : s.mtu.cvDefault = s₀.mtu.cvDefault
  latchedCv : s.mtu.latchedCv = s₀.mtu.latchedCv
  banks : s.dsq.banks = s₀.dsq.banks
  trains : ∀ d, { trainOf s d with offSpecTenths := (trainOf s₀ d).offSpecTenths } = trainOf s₀ d

section
variable {p : Fin 72} {s₀ s : State}

/-- The CV that was latched is kept by what changes neither the metering nor condition 39. -/
theorem cvLatched_of_latchCv (h : StartsFrom p s₀ s) {t : State} (hm : t.mtu = (latchCv s).mtu)
    (hc : conditionActive t condCv = conditionActive (latchCv s) condCv) : cvLatched s₀ t := by
  have latched := latchCv_latched s
  have slots (n : Fin 16) : slotOf s n = slotOf s₀ n := by rw [slotOf, h.fsu, slotOf]
  unfold cvLatched at latched ⊢
  rw [hm, hc, ← h.cvSource, ← h.cvDefault, ← h.latchedCv]
  simpa only [slots] using latched

/-- The target of an hour by its confirmed net (R89). -/
theorem hourTarget_of_net {net : Int} (hn : net = if (hourOf s p).site.firmed then (hourOf s p).site.net else 0) :
    (net = 0 → hourTarget s p = none) ∧ (net ≠ 0 → hourTarget s p = some (if 0 < net then .injecting else .withdrawing)) := by
  unfold hourTarget
  cases hf : (hourOf s p).site.firmed with
  | false =>
    rw [hf] at hn
    exact ⟨fun _ => rfl, fun h => absurd hn h⟩
  | true =>
    rw [hf] at hn
    simp only [if_true] at hn ⊢
    subst hn
    refine ⟨fun h => by rw [h]; rfl, fun h => ?_⟩
    split
    · rfl
    · rw [if_pos (by omega)]

/-- The hour has started in the state before the trimmed mark ends. -/
theorem hourTurn_hourStarted (h : StartsFrom p s₀ s) : hourStarted p s₀ (hourTurn p (hourPrepared p s)) := by
  obtain ⟨r, hr⟩ : ∃ r, r = hourPrepared p s := ⟨_, rfl⟩
  have changes : ChangesOnly [.mtu, .cdt, .nfu] s r := hr ▸ hourPrepared_changes p s
  have cpd : r.cpd = s₀.cpd := (changes .cpd (by decide)).symm.trans h.cpd
  have dir : r.dir = s.dir := (changes .dir (by decide)).symm
  have dsq : r.dsq = s.dsq := (changes .dsq (by decide)).symm
  have fine : r.fine = s₀.fine := (changes .fine (by decide)).symm.trans h.fine
  have time : timeBase r = timeBase s₀ := by rw [timeBase, fine, timeBase]
  have direction : r.dir.direction = s₀.dir.direction := by rw [dir, h.direction]
  have opened : openPosition r = some p := by rw [hr, openPosition_congr (hourPrepared_clock p s), h.opened]
  have turned := hourTurn_turned p r
  have units (u : Fin 4) : unitOf r u = unitOf s₀ u := by rw [unitOf, cpd, unitOf]
  have stopped : (leaveInjecting r).cpd = (leaveInjecting s₀).cpd := by
    unfold leaveInjecting
    simp only [State.withCpd_cpd, cpd, fine]
  rw [← hr]
  refine ⟨?_, ?_, ?_, ?_, ?_, ?_, ?_, ?_⟩
  · refine cvLatched_of_latchCv h ?_ ?_
    · rw [← turned.changes .mtu (by decide), hr]
      exact (changeLead_changes p _ .mtu (by decide)).symm
    · rw [turned.conditions _ (by decide), hr, conditionActive_changeLead]
  · rw [turned.lead, hr, (changeLead_lead p _).1, (latchCv_refirmed s).lead, (latchCv_refirmed s).pendingLead, h.lead, h.pendingLead]
  · rw [turned.pendingLead, hr, (changeLead_lead p _).2]
  · intro lead hl q h1 h2
    rw [turned.firmed q, hr]
    obtain ⟨count, hcount, run⟩ := changeLead_of_some (p := p) (s := latchCv s) (lead := lead)
      (by rw [(latchCv_refirmed s).pendingLead, h.pendingLead, hl])
    exact run.firmed q h1 (by omega)
  · intro net hn
    have hour : hourOf (hourTurn p r) p = hourOf r p := turned.stands p (refirmReaches_started opened le_rfl)
    rw [hour] at hn
    obtain ⟨zero, flows⟩ := hourTarget_of_net hn
    refine ⟨fun h0 => hourTurn_standby (zero h0), fun f hf h0 => ?_⟩
    have target : hourTarget r p = some f := by rw [flows h0, hf]
    refine ⟨fun hs => hourTurn_enters target (by rwa [direction]), fun c hc => ?_⟩
    obtain rfl : c.target = f := by
      rcases hc with ⟨-, rfl⟩ | ⟨-, hc⟩
      · rfl
      · exact hc
    have turns := hourTurn_turns target (hs := by
      rw [direction, time]
      exact hc.imp_right And.left)
    simpa only [units] using turns
  · intro d
    have follow : trainOf (hourTurn p r) d
        = trainFollows s₀.dir.direction (hourTurn p r).dir.direction s₀.dsq.banks (timeBase s₀) (trainOf s d) := by
      have trains : TrainsFollow r (hourTurn p r) := hourTurn_trains p r
      rw [trainOf, trains, ← trainOf, trainOf_dryersFollow, direction, time, trainOf, dsq, h.banks, trainOf]
    rw [follow, ← trainFollows_offSpecTenths, h.trains d, ← trainOf_dryersFollow, trainOf, trainOf, changeDirection_dsq]
  · intro hs ht
    rw [hourTurn_left (by rw [direction, hs]) ht, stopped, changeDirection_cpd, turnedCpd, if_pos hs]
    exact (if_neg ht).symm
  · intro hrest hstay
    have rest : RunOnlyInjecting r := fun hd u => by
      rw [units]
      exact hrest (by rwa [← direction]) u
    rw [hourTurn_duty rest (by rwa [direction]), cpd]
    rfl

/-- The end of the trimmed mark changes nothing that the start of an hour states. -/
theorem hourStarted_untrimmed {t : State} (h : hourStarted p s₀ t) :
    hourStarted p s₀ (t.withClock { t.clock with trimmed := false }) := h

/-- The hour has started (R4). -/
theorem startHour_hourStarted (h : StartsFrom p s₀ s) : hourStarted p s₀ (startHour p s) :=
  hourStarted_untrimmed (hourTurn_hourStarted h)

end

end Sys2Proof.Machine

/-! SUPPORT. What the close of an hour and the rollover of the rows make of the hours, the accounts and the flags, and the statement of the
hour boundary. -/

namespace Sys2Proof.Machine

open Sys2Proof.Safety

/-! ### What the start of an hour leaves of the metering and the off-spec counts -/

theorem startHour_mtu (p : Fin 72) (s : State) :
    (startHour p s).mtu = { s.mtu with
      startTime := some (timeBase s), latchedCv := (startHour p s).mtu.latchedCv
      flags := { s.mtu.flags with cvHeld := s.mtu.flags.cvHeld || conditionActive (startHour p s) condCv } } := by
  have turned := hourTurn_turned p (hourPrepared p s)
  have mtu : (startHour p s).mtu = (latchCv s).mtu :=
    (turned.changes .mtu (by decide)).symm.trans (changeLead_changes p (latchCv s) .mtu (by decide)).symm
  have active : conditionActive (startHour p s) condCv = conditionActive (latchCv s) condCv :=
    (turned.conditions condCv (by decide)).trans (conditionActive_changeLead p (latchCv s) condCv)
  rw [mtu, active]
  exact latchCv_mtu s

theorem startHour_act (p : Fin 72) (s : State) : (startHour p s).act = s.act := (hourEvaluated_changes p s .act (by decide)).symm

theorem trainFollows_keeps_offSpecTenths (old new : SiteDirection) (banks : Vector (Vector BankEntry 24) 2) (now : Nat) (t : Train) :
    (trainFollows old new banks now t).offSpecTenths = t.offSpecTenths := by
  have same := congrArg Train.offSpecTenths (trainFollows_offSpecTenths t.offSpecTenths now banks t old new)
  exact same

theorem startHour_offSpecTenths (p : Fin 72) (s : State) (d : Fin 2) :
    (trainOf (startHour p s) d).offSpecTenths = (trainOf s d).offSpecTenths := by
  have trains : TrainsFollow (hourPrepared p s) (hourTurn p (hourPrepared p s)) := hourTurn_trains p _
  have dsq : (hourPrepared p s).dsq = s.dsq := (hourPrepared_changes p s .dsq (by decide)).symm
  show (trainOf (hourTurn p (hourPrepared p s)) d).offSpecTenths = _
  rw [trainOf, trains, ← trainOf, trainOf_dryersFollow, trainFollows_keeps_offSpecTenths, trainOf, dsq, trainOf]

/-! ### The gaps -/

/-- A booking of a gap touches points and flags of the metering alone. -/
theorem bookGap_mtu (b : Bool) (k : Fin 7) (s : State) :
    (bookGap b k s).mtu = { s.mtu with
      points := (bookGap b k s).mtu.points, flags := (bookGap b k s).mtu.flags, unclockedFlags := (bookGap b k s).mtu.unclockedFlags } := by
  unfold bookGap
  split
  · rfl
  · cases b <;> rfl

/-- The bookings of the gaps leave the metering's settings, its CV and its start time. -/
theorem bookGaps_mtu (b : Bool) (s : State) :
    ∃ points flags unclocked, (overFin 7 (fun k s => bookGap b k s) s).mtu
      = { s.mtu with points := points, flags := flags, unclockedFlags := unclocked } := by
  refine overFin_keeps (fun u : State =>
    ∃ points flags unclocked, u.mtu = { s.mtu with points := points, flags := flags, unclockedFlags := unclocked }) _ ?_
    ⟨_, _, _, rfl⟩
  rintro k u ⟨_, _, _, hu⟩
  exact ⟨_, _, _, by rw [bookGap_mtu b k u, hu]⟩

theorem bookOpenGaps_mtu (s : State) :
    ∃ points flags unclocked, (bookOpenGaps s).mtu = { s.mtu with points := points, flags := flags, unclockedFlags := unclocked } := by
  unfold bookOpenGaps
  exact bookGaps_mtu true s

theorem clearGathered_mtu (s : State) : (clearGathered s).mtu = clearHour s.mtu := rfl

theorem pointOf_clearGathered (s : State) (k : Fin 7) :
    pointOf (clearGathered s) k = { (pointOf s k).eachDirection k fun d => { d with hourVolume := 0 } with estimatedTenths := 0 } :=
  nth_tab _ k

theorem trainOf_clearGathered (s : State) (d : Fin 2) : trainOf (clearGathered s) d = { trainOf s d with offSpecTenths := 0 } :=
  nth_each _ _ d

theorem clearGathered_banks (s : State) : (clearGathered s).dsq.banks = s.dsq.banks := rfl

/-- The metering block from which the hour that follows a close starts. -/
theorem gathered_mtu (s : State) :
    ∃ unclocked, (gathered s).mtu = { s.mtu with
      points := (gathered s).mtu.points, flags := MeterFlags.clear, unclockedFlags := unclocked } := by
  obtain ⟨_, _, unclocked, h⟩ := bookOpenGaps_mtu s
  exact ⟨unclocked, by rw [gathered, clearGathered_mtu, h]; rfl⟩

/-! ### The posting of a close (R182, R183) -/

section
variable (h : HourId) (g : Gathered) (s : State)

/-- The state with the accounts, the hour and the caverns posted, before the report of condition 52. -/
abbrev hourPosted : State :=
  postCaverns g.metering
    (alterHour (todayPosition h.hour) (postHour s (closeAllocations h g s) (closeFuel h g s))
      (s.withAct (postAccounts g.metering (closeAllocations h g s) (closeFuel h g s) s.act)))

theorem closePosted_eq : closePosted h g s = report condMeterDiff (differs s g.metering) (hourPosted h g s) := rfl

theorem hourOf_hourPosted_same :
    hourOf (hourPosted h g s) (todayPosition h.hour)
      = postHour s (closeAllocations h g s) (closeFuel h g s) (hourOf s (todayPosition h.hour)) :=
  hourOf_alterHour_same _ _ _

theorem hourOf_hourPosted_other {q : Fin 72} (hq : q ≠ todayPosition h.hour) : hourOf (hourPosted h g s) q = hourOf s q :=
  hourOf_alterHour_other _ _ hq

/-- The posting changes no account's state. -/
theorem accountOf_hourPosted_state (a : Fin 16) : (accountOf (hourPosted h g s) a).state = (accountOf s a).state := by
  have posted : accountOf (hourPosted h g s) a
      = if (nth s.act.slots a).held then { nth s.act.slots a with
          inventory := (nth s.act.slots a).inventory + (nth (closeAllocations h g s) a - nth (closeFuel h g s) a) }
        else nth s.act.slots a := nth_tab _ a
  rw [posted]
  split <;> rfl

theorem requested_hourPosted (q : Fin 72) (a : Fin 16) : (entryOf (hourPosted h g s) q a).requested = (entryOf s q a).requested := by
  by_cases hq : q = todayPosition h.hour
  · subst hq
    rw [entryOf, hourOf_hourPosted_same]
    simp only [postHour, nth_tab]
    split <;> rfl
  · rw [entryOf, hourOf_hourPosted_other h g s hq, entryOf]

theorem closePosted_refirmed : Refirmed (hourPosted h g s) (closePosted h g s) := report_refirmed _ _ _

theorem accountOf_closePosted_state (a : Fin 16) : (accountOf (closePosted h g s) a).state = (accountOf s a).state := by
  have act : (closePosted h g s).act = (hourPosted h g s).act := (report_changes _ _ _ .act (by decide)).symm
  rw [accountOf, act]
  exact accountOf_hourPosted_state h g s a

end

/-! ### The vacancy test (R145) -/

section
variable (s : State)

theorem vacancy_site (q : Fin 72) : (hourOf (vacancy s) q).site = (hourOf s q).site := by
  rw [vacancy, hourOf, State.withNfu_nfu, nth_each]
  rfl

theorem entryOf_vacancy (q : Fin 72) (a : Fin 16) :
    entryOf (vacancy s) q a = if vacates s a then HourEntry.clear else entryOf s q a := by
  rw [entryOf, vacancy, hourOf, State.withNfu_nfu, nth_each]
  simp only [nth_tab]
  rfl

theorem accountOf_vacancy (a : Fin 16) : accountOf (vacancy s) a = if vacates s a then Account.vacant else accountOf s a := by
  show nth (tab _) a = _
  simp only [nth_tab]

/-- An account that the vacancy test leaves in its state keeps its entries. -/
theorem entryOf_vacancy_of_state {a : Fin 16} (ha : (accountOf (vacancy s) a).state = (accountOf s a).state) (q : Fin 72) :
    entryOf (vacancy s) q a = entryOf s q a := by
  rw [entryOf_vacancy]
  cases hv : vacates s a with
  | false => rfl
  | true =>
    have closing : (accountOf s a).state = .closing := by
      simp only [vacates, Bool.and_eq_true, decide_eq_true_eq] at hv
      exact hv.1.1
    rw [accountOf_vacancy, hv, closing] at ha
    cases ha

/-- An account held after the vacancy test is in the state it was in. -/
theorem state_of_vacancy_held {a : Fin 16} (ha : (accountOf (vacancy s) a).held = true) :
    (accountOf (vacancy s) a).state = (accountOf s a).state := by
  rw [accountOf_vacancy] at ha ⊢
  cases hv : vacates s a with
  | true =>
    rw [hv] at ha
    cases ha
  | false => rfl

end

/-! ### The whole close (R175) -/

section
variable (h : HourId) (g : Gathered) (s : State)

/-- The state of a close before its vacancy test. -/
abbrev closeRecorded : State := keepRecord (closingRecord h g s) (closePosted h g s)

theorem completeClose_recorded : completeClose h g s = finishClose h (closeRecorded h g s) := completeClose_eq h g s

theorem finishClose_site (q : Fin 72) : (hourOf (finishClose h s) q).site = (hourOf s q).site :=
  vacancy_site (setEventOps evHourClosedOps (setEventCom evHourClosedCom s)) q

theorem entryOf_finishClose {a : Fin 16} (ha : (accountOf (finishClose h s) a).state = (accountOf s a).state) (q : Fin 72) :
    entryOf (finishClose h s) q a = entryOf s q a :=
  entryOf_vacancy_of_state (setEventOps evHourClosedOps (setEventCom evHourClosedCom s)) ha q

theorem state_of_finishClose_held {a : Fin 16} (ha : (accountOf (finishClose h s) a).held = true) :
    (accountOf (finishClose h s) a).state = (accountOf s a).state :=
  state_of_vacancy_held (setEventOps evHourClosedOps (setEventCom evHourClosedCom s)) ha

theorem finishClose_nfu : (finishClose h s).nfu = { s.nfu with hours := (finishClose h s).nfu.hours } := rfl

theorem finishClose_book : (finishClose h s).act.book = s.act.book := rfl

theorem comFlags_finishClose (e : Fin 4) :
    nth (finishClose h s).cdt.com.flags e = if e = evHourClosedCom then true else nth s.cdt.com.flags e :=
  comFlags_setEventCom evHourClosedCom e s

theorem opsFlags_finishClose (e : Fin 4) :
    nth (finishClose h s).cdt.ops.flags e = if e = evHourClosedOps then true else nth s.cdt.ops.flags e :=
  opsFlags_setEventOps evHourClosedOps e (setEventCom evHourClosedCom s)

theorem completeClose_site (q : Fin 72) : (hourOf (completeClose h g s) q).site = (hourOf (closePosted h g s) q).site :=
  finishClose_site h (closeRecorded h g s) q

/-- An account that a close leaves in its state keeps the entries that the posting left it. -/
theorem entryOf_completeClose {a : Fin 16} (ha : (accountOf (completeClose h g s) a).state = (accountOf s a).state) (q : Fin 72) :
    entryOf (completeClose h g s) q a = entryOf (closePosted h g s) q a :=
  entryOf_finishClose h (closeRecorded h g s) (ha.trans (accountOf_closePosted_state h g s a).symm) q

theorem state_of_completeClose_held {a : Fin 16} (ha : (accountOf (completeClose h g s) a).held = true) :
    (accountOf (completeClose h g s) a).state = (accountOf s a).state :=
  (state_of_finishClose_held h (closeRecorded h g s) ha).trans (accountOf_closePosted_state h g s a)

/-- A close writes of the NFU the hours alone. -/
theorem completeClose_nfu : (completeClose h g s).nfu = { s.nfu with hours := (completeClose h g s).nfu.hours } := by
  have posted : (closePosted h g s).nfu = { s.nfu with hours := (closePosted h g s).nfu.hours } := (closePosted_refirmed h g s).nfu
  rw [completeClose_recorded, finishClose_nfu, closeRecorded, keepRecord, State.withCau_nfu, posted]

/-- A close writes of the DIR the caverns alone. -/
theorem completeClose_dir : ∃ c, (completeClose h g s).dir = { s.dir with caverns := c } := by
  have finished : (completeClose h g s).dir = (closePosted h g s).dir :=
    (finishClose_tested_changes (closeRecorded h g s) .dir (by decide)).symm
  have posted : (closePosted h g s).dir = (hourPosted h g s).dir := (report_changes _ _ _ .dir (by decide)).symm
  exact ⟨_, finished.trans posted⟩

theorem completeClose_book :
    (completeClose h g s).act.book = wrapTotal (s.act.book + (measuredNet g.metering - energyFuel g.metering)) := by
  have posted : (closePosted h g s).act = (hourPosted h g s).act := (report_changes _ _ _ .act (by decide)).symm
  rw [completeClose_recorded, finishClose_book, closeRecorded, keepRecord, State.withCau_act, posted]
  rfl

/-- A close sets HOUR_CLOSED, and of Commercial's flags REFIRMED alone beside it. -/
theorem comFlags_completeClose {e : Fin 4} (he : e ≠ evRefirmed) :
    nth (completeClose h g s).cdt.com.flags e = if e = evHourClosedCom then true else nth s.cdt.com.flags e := by
  rw [completeClose_recorded, comFlags_finishClose, closeRecorded, keepRecord, State.withCau_cdt, (closePosted_refirmed h g s).com e he]
  rfl

theorem opsFlags_completeClose {e : Fin 4} (he : e ≠ evDirectionChanged) :
    nth (completeClose h g s).cdt.ops.flags e = if e = evHourClosedOps then true else nth s.cdt.ops.flags e := by
  rw [completeClose_recorded, opsFlags_finishClose, closeRecorded, keepRecord, State.withCau_cdt, (closePosted_refirmed h g s).ops e he]
  rfl

theorem requested_completeClose {a : Fin 16} (ha : (accountOf (completeClose h g s) a).state = (accountOf s a).state) (q : Fin 72) :
    (entryOf (completeClose h g s) q a).requested = (entryOf s q a).requested := by
  rw [entryOf_completeClose h g s ha, (closePosted_refirmed h g s).requested, requested_hourPosted]

end

/-! ### The rollover of the rows (R155) -/

theorem index?_of_lt {n i : Nat} (h : i < n) : index? n i = some ⟨i, h⟩ := by simp [index?, h]

theorem index?_of_le {n i : Nat} (h : n ≤ i) : index? n i = none := by simp [index?, Nat.not_lt.mpr h]

/-- The rows after a rollover: each hour takes the one a day later, and tomorrow is clear. -/
theorem hourOf_rollover (s : State) (q : Fin 72) : hourOf (rollover s) q = rowBefore s (q.val + 24) := nth_tab _ q

theorem rollover_nfu (s : State) :
    (rollover s).nfu = { s.nfu with
      hours := (rollover s).nfu.hours, todayDay := s.nfu.todayDay.map fun d => (d + 1) % 65536 } := rfl

theorem comFlags_rollover (s : State) (e : Fin 4) :
    nth (rollover s).cdt.com.flags e = if e = evDayRolled then true else nth s.cdt.com.flags e :=
  comFlags_setEventCom evDayRolled e _

theorem opsFlags_rollover (s : State) : (rollover s).cdt.ops = s.cdt.ops := rfl

theorem rowBefore_of_lt {s : State} {i : Nat} (h : i < 72) : rowBefore s i = hourOf s ⟨i, h⟩ := by
  rw [rowBefore, index?_of_lt h]

theorem rowBefore_of_le {s : State} {i : Nat} (h : 72 ≤ i) : rowBefore s i = HourCell.clear := by
  rw [rowBefore, index?_of_le h]

theorem rolloverAfter_last {h : HourId} (hh : h.hour = 23) (s : State) : rolloverAfter h s = rollover s := if_pos hh

/-- The leads stand through a rollover. -/
theorem rolloverAfter_leads (h : HourId) (s : State) :
    (rolloverAfter h s).nfu.lead = s.nfu.lead ∧ (rolloverAfter h s).nfu.pendingLead = s.nfu.pendingLead := by
  unfold rolloverAfter
  split <;> exact ⟨rfl, rfl⟩

/-! ### A close with its rollover -/

section
variable (h : HourId) (g : Gathered) (s : State)

/-- The hour `h` closed, and the rows rolled over after an hour 23. -/
abbrev closedAndRolled : State := rolloverAfter h (completeClose h g s)

theorem closedAndRolled_changes : ChangesOnly [.clock, .cdt, .dir, .act, .nfu, .cau] s (closedAndRolled h g s) :=
  (completeClose_changes h g s).trans ((rolloverAfter_changes h _).mono (by decide))

theorem closedAndRolled_clock : (closedAndRolled h g s).clock = { s.clock with lastClosed := some h } :=
  (clock_of_changes (rolloverAfter_changes h _) (by decide)).trans (completeClose_clock h g s)

theorem closedAndRolled_act : (closedAndRolled h g s).act = (completeClose h g s).act :=
  (rolloverAfter_changes h _ .act (by decide)).symm

theorem closedAndRolled_cau : (closedAndRolled h g s).cau = { s.cau with history := appendRecord s.cau.history (closingRecord h g s) } :=
  (cau_of_changes (rolloverAfter_changes h _) (by decide)).trans (completeClose_cau h g s)

theorem closedAndRolled_dir : ∃ c, (closedAndRolled h g s).dir = { s.dir with caverns := c } := by
  obtain ⟨c, hc⟩ := completeClose_dir h g s
  exact ⟨c, (rolloverAfter_changes h _ .dir (by decide)).symm.trans hc⟩

theorem closedAndRolled_leads :
    (closedAndRolled h g s).nfu.lead = s.nfu.lead ∧ (closedAndRolled h g s).nfu.pendingLead = s.nfu.pendingLead := by
  obtain ⟨lead, pending⟩ := rolloverAfter_leads h (completeClose h g s)
  rw [lead, pending, completeClose_nfu]
  exact ⟨rfl, rfl⟩

/-- HOUR_CLOSED is set on both ports. -/
theorem closedAndRolled_flags :
    nth (closedAndRolled h g s).cdt.com.flags evHourClosedCom = true
      ∧ nth (closedAndRolled h g s).cdt.ops.flags evHourClosedOps = true := by
  have com := (comFlags_completeClose h g s (e := evHourClosedCom) (by decide)).trans (if_pos rfl)
  have ops := (opsFlags_completeClose h g s (e := evHourClosedOps) (by decide)).trans (if_pos rfl)
  unfold closedAndRolled rolloverAfter
  split
  · exact ⟨(comFlags_rollover _ _).trans com, by rw [opsFlags_rollover, ops]⟩
  · exact ⟨com, ops⟩

theorem closedAndRolled_today :
    (closedAndRolled h g s).nfu.todayDay
      = if h.hour = 23 then s.nfu.todayDay.map (fun d => (d + 1) % 65536) else s.nfu.todayDay := by
  unfold closedAndRolled rolloverAfter
  split
  · rw [rollover_nfu, completeClose_nfu]
  · rw [completeClose_nfu]

end

/-! ### The hour boundary (R4) -/

section
variable {h : HourId} {s : State}

/-- The state from which the hour after the open hour `h` starts. -/
abbrev hourClosed (h : HourId) (s : State) : State := closedAndRolled h (gather (bookOpenGaps s)) (gathered s)

theorem hourBoundaryEvent_eq (ho : openHour s = some h) :
    hourBoundaryEvent s = startHour (todayPosition h.next.hour) (hourClosed h s) := by
  rw [hourBoundaryEvent_of_open ho, closeHour_eq]

theorem hourClosed_mtu : (hourClosed h s).mtu = (gathered s).mtu := (closedAndRolled_changes h _ _ .mtu (by decide)).symm

theorem hourClosed_dsq : (hourClosed h s).dsq = (gathered s).dsq := (closedAndRolled_changes h _ _ .dsq (by decide)).symm

theorem trainOf_hourClosed (d : Fin 2) : trainOf (hourClosed h s) d = { trainOf s d with offSpecTenths := 0 } := by
  have booked : (bookOpenGaps s).dsq = s.dsq := (bookOpenGaps_changes s .dsq (by decide)).symm
  rw [trainOf, hourClosed_dsq, ← trainOf, trainOf_clearGathered, trainOf, booked, trainOf]

theorem pointOf_hourClosed (k : Fin 7) :
    pointOf (hourClosed h s) k
      = { (pointOf (bookOpenGaps s) k).eachDirection k fun d => { d with hourVolume := 0 } with estimatedTenths := 0 } := by
  rw [pointOf, hourClosed_mtu, ← pointOf, pointOf_clearGathered]

theorem hourClosed_startsFrom (hrun : clockRunning s = true) : StartsFrom (todayPosition h.next.hour) s (hourClosed h s) := by
  have closed := closedAndRolled_changes h (gather (bookOpenGaps s)) (gathered s)
  have before := gathered_changes s
  have clock : (hourClosed h s).clock = { s.clock with lastClosed := some h } := by
    rw [closedAndRolled_clock, clock_of_changes before (by decide)]
  obtain ⟨c, dir⟩ := closedAndRolled_dir h (gather (bookOpenGaps s)) (gathered s)
  have gatheredDir : (gathered s).dir = s.dir := (before .dir (by decide)).symm
  have gatheredNfu : (gathered s).nfu = s.nfu := (before .nfu (by decide)).symm
  obtain ⟨lead, pendingLead⟩ := closedAndRolled_leads h (gather (bookOpenGaps s)) (gathered s)
  obtain ⟨_, mtu⟩ := gathered_mtu s
  have booked : (bookOpenGaps s).dsq = s.dsq := (bookOpenGaps_changes s .dsq (by decide)).symm
  refine ⟨openPosition_of_lastClosed ?_ (by rw [clock]), ?_, ?_, ?_, ?_, ?_, ?_, ?_, ?_, ?_, ?_, ?_, fun d => ?_⟩
  · rw [← hrun]
    unfold clockRunning
    rw [clock]
  · exact (closed .fine (by decide)).symm.trans (before .fine (by decide)).symm
  · exact (closed .fsu (by decide)).symm.trans (before .fsu (by decide)).symm
  · exact (closed .cpd (by decide)).symm.trans (before .cpd (by decide)).symm
  · rw [dir, gatheredDir]
  · rw [dir, gatheredDir]
  · rw [lead, gatheredNfu]
  · rw [pendingLead, gatheredNfu]
  · rw [hourClosed_mtu, mtu]
  · rw [hourClosed_mtu, mtu]
  · rw [hourClosed_mtu, mtu]
  · rw [hourClosed_dsq, clearGathered_banks, booked]
  · rw [trainOf_hourClosed]

end

section
variable {h : HourId} {s : State}

/-- After hour 23 the requests stand a day earlier, and those of tomorrow are gone (R155). -/
theorem requested_hourClosed_last (hh : h.hour = 23) {p q : Fin 72} {a : Fin 16} (hq : q.val = p.val + 24)
    (ha : (accountOf (hourClosed h s) a).state = (accountOf s a).state) :
    (entryOf (hourClosed h s) p a).requested = (entryOf s q a).requested := by
  have before := gathered_changes s
  have act : (gathered s).act = s.act := (before .act (by decide)).symm
  have nfu : (gathered s).nfu = s.nfu := (before .nfu (by decide)).symm
  have state : (accountOf (completeClose h (gather (bookOpenGaps s)) (gathered s)) a).state = (accountOf (gathered s) a).state := by
    rw [accountOf, ← closedAndRolled_act, ← accountOf, ha, accountOf, ← act, accountOf]
  rw [entryOf, hourClosed, closedAndRolled, rolloverAfter_last hh, hourOf_rollover, ← hq, rowBefore_of_lt q.isLt, ← entryOf,
    requested_completeClose h _ _ state, entryOf, hourOf, nfu, ← hourOf, ← entryOf]

theorem requested_hourClosed_tomorrow (hh : h.hour = 23) {p : Fin 72} (hp : 48 ≤ p.val) (a : Fin 16) :
    (entryOf (hourClosed h s) p a).requested = none := by
  rw [entryOf, hourClosed, closedAndRolled, rolloverAfter_last hh, hourOf_rollover, rowBefore_of_le (by omega)]
  simp [HourCell.clear, HourEntry.clear]

/-- What the record of a close raised by the clock takes of the state in which it gathers. -/
theorem closingRecord_gather (h : HourId) (u s : State) :
    (closingRecord h (gather u) s).hour = h ∧ (closingRecord h (gather u) s).outage = false
      ∧ (closingRecord h (gather u) s).trimmed = u.clock.trimmed ∧ (closingRecord h (gather u) s).cv = u.mtu.latchedCv
      ∧ (closingRecord h (gather u) s).mode = s.cau.mode :=
  ⟨rfl, rfl, rfl, rfl, rfl⟩

theorem gather_metering (u : State) : (gather u).metering = hourMetering u.mtu := rfl

/-- Settles O16: the boundary is the close of the open hour with its rollover, then the start of the next hour, each as its own lemmas state
it. -/
theorem hourBoundaryClosesTheOpenHour : Obligations.HourBoundaryClosesTheOpenHour := by
  refine ⟨fun s l hheld hrun hl hdue => ?_, fun s hdue => ?_⟩
  · have ho : openHour s = some l.next := openHour_of_lastClosed hrun hl
    have event := hourBoundaryEvent_eq ho
    have cau := hourBoundaryEvent_cau ho
    have before := gathered_changes s
    have kept := startHour_kept (todayPosition l.next.next.hour) (hourClosed l.next s)
    have mtu := startHour_mtu (todayPosition l.next.next.hour) (hourClosed l.next s)
    obtain ⟨unclocked, closedMtu⟩ := gathered_mtu s
    have starts : StartsFrom (todayPosition l.next.next.hour) s (hourClosed l.next s) := hourClosed_startsFrom hrun
    have act : (hourBoundaryEvent s).act = (hourClosed l.next s).act := by rw [event, startHour_act]
    have nfu : (gathered s).nfu = s.nfu := (before .nfu (by decide)).symm
    have today := closedAndRolled_today l.next (gather (bookOpenGaps s)) (gathered s)
    obtain ⟨hour, outage, trimmed, cv, mode⟩ := closingRecord_gather l.next (bookOpenGaps s) (gathered s)
    obtain ⟨closedCom, closedOps⟩ := closedAndRolled_flags l.next (gather (bookOpenGaps s)) (gathered s)
    refine ⟨_, closingRecord l.next (gather (bookOpenGaps s)) (gathered s), exec_hourBoundary hheld hdue, hourBoundaryEvent_clock ho,
      ?_, hour, outage, ?_, ?_, ?_, ?_, fun k => ?_, ?_, ?_, ?_, hourBoundaryEvent_changes s, fun hh => ?_, fun hh => ⟨?_, ?_, ?_, ?_⟩,
      ?_, ?_, fun d => ?_⟩
    · rw [cau, getLast_appendRecord]
    · rw [trimmed, clock_of_changes (bookOpenGaps_changes s) (by decide)]
    · obtain ⟨_, _, _, booked⟩ := bookOpenGaps_mtu s
      rw [cv, booked]
    · rw [mode, cau_of_changes before (by decide)]
    · have gatheredAct : (gathered s).act = s.act := (before .act (by decide)).symm
      rw [act, closedAndRolled_act, completeClose_book, gatheredAct, gather_metering]
    · have point : pointOf (hourBoundaryEvent s) k = pointOf (hourClosed l.next s) k := by rw [event, pointOf, mtu, pointOf]
      rw [point, pointOf_hourClosed]
      exact ⟨rfl, fun hk => by simp [Point.eachDirection, hk], rfl⟩
    · rw [event, mtu]
      simp only [timeBase, starts.fine]
    · rw [event, kept.com _ (by decide) (by decide), closedCom]
    · rw [event, kept.ops _ (by decide), closedOps]
    · rw [event, kept.today, today, if_neg hh, nfu]
    · rw [event, kept.today, today, if_pos hh, nfu]
    · rw [event, kept.com _ (by decide) (by decide), hourClosed, closedAndRolled, rolloverAfter_last hh, comFlags_rollover, if_pos rfl]
    · intro p q a hq ha
      rw [event, kept.requested]
      exact requested_hourClosed_last hh hq (by rw [accountOf, ← act, ← accountOf, ha])
    · intro p a hp
      rw [event, kept.requested, requested_hourClosed_tomorrow hh hp]
    · rw [event]
      exact startHour_hourStarted starts
    · rw [event, mtu, hourClosed_mtu, closedMtu]
      rfl
    · rw [event, startHour_offSpecTenths, trainOf_hourClosed]
  · show unlessHeld (onlyIf (boundaryDue s) hourBoundaryEvent) s = .next s
    rw [hdue, unlessHeld_onlyIf_false]

end

end Sys2Proof.Machine

/-! SUPPORT. The missed hours that a SET-CLOCK closes: the firm at zero, the close without measurement and the rollovers (R8, R155,
R188). -/

namespace Sys2Proof.Machine

open Sys2Proof.Safety

/-! ### A fall never raises the derate class (R69) -/

section
variable (table : Vector Condition 56)

/-- The level of a lead condition; 0 of none. -/
def leadLevel : Option (Fin 56) → Nat
  | some n => (nth table n).level
  | none => 0

theorem formClass_eq : formClass table = leadLevel table (formLead table) := by
  unfold formClass leadLevel
  cases formLead table <;> rfl

theorem betterLead_level (n : Fin 56) (best : Option (Fin 56)) :
    leadLevel table best ≤ leadLevel table (betterLead table n best)
      ∧ ((nth table n).active = true → (nth table n).level ≤ leadLevel table (betterLead table n best)) := by
  unfold betterLead
  dsimp only
  split
  · cases best with
    | none => exact ⟨Nat.zero_le _, fun _ => le_rfl⟩
    | some b =>
      dsimp only
      split
      · next hb => exact ⟨le_of_lt hb, fun _ => le_rfl⟩
      · next hb => exact ⟨le_rfl, fun _ => not_lt.mp hb⟩
  · next hn =>
    refine ⟨le_rfl, fun ha => ?_⟩
    have low : (nth table n).level = 0 := by
      rw [ha] at hn
      simpa using hn
    rw [low]
    exact Nat.zero_le _

/-- No Active condition has a level above the class. -/
theorem level_le_formClass {n : Fin 56} (h : (nth table n).active = true) : (nth table n).level ≤ formClass table := by
  have walk : ∀ (l : List (Fin 56)) (best : Option (Fin 56)),
      leadLevel table best ≤ leadLevel table (l.foldl (fun b i => betterLead table i b) best)
        ∧ ∀ m ∈ l, (nth table m).active = true →
          (nth table m).level ≤ leadLevel table (l.foldl (fun b i => betterLead table i b) best) := by
    intro l
    induction l with
    | nil => exact fun best => ⟨le_rfl, nofun⟩
    | cons i l ih =>
      intro best
      obtain ⟨up, own⟩ := betterLead_level table i best
      obtain ⟨rest, all⟩ := ih (betterLead table i best)
      refine ⟨up.trans rest, fun m hm ha => ?_⟩
      rcases List.mem_cons.mp hm with rfl | hm
      · exact (own ha).trans rest
      · exact all m hm ha
  rw [formClass_eq]
  exact (walk (List.finRange 56) none).2 n (List.mem_finRange n) h

/-- The class is 0, or the level of an Active condition. -/
theorem formClass_attained : formClass table = 0 ∨ ∃ n, (nth table n).active = true ∧ (nth table n).level = formClass table := by
  have active : ∀ n, formLead table = some n → (nth table n).active = true := by
    refine overFin_keeps (fun best : Option (Fin 56) => ∀ n, best = some n → (nth table n).active = true) _
      (fun i best hb n hn => ?_) nofun
    unfold betterLead at hn
    dsimp only at hn
    split at hn
    · next hi =>
      have ha : (nth table i).active = true := (Bool.and_eq_true_iff.mp hi).1
      cases best with
      | none => cases hn; exact ha
      | some b =>
        dsimp only at hn
        split at hn <;> cases hn
        · exact ha
        · exact hb _ rfl
    · exact hb n hn
  rw [formClass_eq]
  cases h : formLead table with
  | none => exact .inl rfl
  | some n => exact .inr ⟨n, active n h, rfl⟩

/-- The class of a table in which a condition falls. -/
theorem formClass_fall (n : Fin 56) : formClass (alter table n Condition.fall) ≤ formClass table := by
  rcases formClass_attained (alter table n Condition.fall) with h | ⟨m, ha, hl⟩
  · rw [h]
    exact Nat.zero_le _
  · rw [nth_alter] at ha hl
    split at ha
    · cases ha
    · next hm =>
      rw [if_neg hm] at hl
      rw [← hl]
      exact level_le_formClass table ha

end

theorem classFormed_congr {s t : State} (h : t.cdt.derateClass = s.cdt.derateClass) (hl : t.cdt.lead = s.cdt.lead)
    (hc : t.cdt.conditions = s.cdt.conditions) (hs : ClassFormed s) : ClassFormed t := by
  unfold ClassFormed at *
  rw [h, hl, hc]
  exact hs

/-- With the class formed, a report that a condition is inactive raises no re-firm, and leaves the class formed. -/
theorem report_inactive {s : State} (hs : ClassFormed s) (n : Fin 56) :
    report n false s = s.withCdt (s.cdt.follow n false) ∧ ClassFormed (report n false s) := by
  have same : report n false s = s.withCdt (s.cdt.follow n false) := by
    refine if_neg (not_lt.mpr ?_)
    rw [State.withCdt_cdt]
    unfold Cdt.follow
    split
    · exact le_rfl
    · rw [hs.1]
      exact formClass_fall s.cdt.conditions n
  refine ⟨same, ?_⟩
  rw [same]
  unfold ClassFormed
  rw [State.withCdt_cdt]
  unfold Cdt.follow
  split
  · exact hs
  · exact ⟨rfl, rfl⟩

/-! ### The firm at zero (R8) -/

section
variable {p q : Fin 72} {s : State}

theorem firmAtZero_of_firmed (h : (hourOf s p).site.firmed = true) : firmAtZero p s = s := if_pos h

/-- The hour that a firm at zero records. -/
abbrev zeroFirmed (s : State) (c : HourCell) : HourCell :=
  { site := { c.site with firmed := true, injectionCapacity := 0, withdrawalCapacity := 0, net := 0, direction := .standby }
    entries := tab fun a => if (accountOf s a).held then { nth c.entries a with confirmed := some 0 } else nth c.entries a }

theorem firmAtZero_of_unfirmed (h : (hourOf s p).site.firmed = false) :
    firmAtZero p s = setEventCom evHourFirmed (alterHour p (zeroFirmed s) s) := by
  unfold firmAtZero
  rw [if_neg (by rw [h]; exact Bool.false_ne_true)]

theorem hourOf_firmAtZero_same (h : (hourOf s p).site.firmed = false) : hourOf (firmAtZero p s) p = zeroFirmed s (hourOf s p) := by
  rw [firmAtZero_of_unfirmed h, hourOf_setEventCom, hourOf_alterHour_same]

theorem hourOf_firmAtZero_other (h : q ≠ p) : hourOf (firmAtZero p s) q = hourOf s q := by
  cases hf : (hourOf s p).site.firmed with
  | true => rw [firmAtZero_of_firmed hf]
  | false => rw [firmAtZero_of_unfirmed hf, hourOf_setEventCom, hourOf_alterHour_other _ _ h]

theorem firmAtZero_firmed (p : Fin 72) (s : State) : (hourOf (firmAtZero p s) p).site.firmed = true := by
  cases hf : (hourOf s p).site.firmed with
  | true => rw [firmAtZero_of_firmed hf, hf]
  | false => rw [hourOf_firmAtZero_same hf]

theorem firmAtZero_nfu (p : Fin 72) (s : State) : (firmAtZero p s).nfu = { s.nfu with hours := (firmAtZero p s).nfu.hours } := by
  unfold firmAtZero
  split <;> rfl

theorem firmAtZero_act (p : Fin 72) (s : State) : (firmAtZero p s).act = s.act := (firmAtZero_changes p s .act (by decide)).symm

theorem accountOf_firmAtZero (p : Fin 72) (s : State) (a : Fin 16) : accountOf (firmAtZero p s) a = accountOf s a := by
  rw [accountOf, firmAtZero_act, accountOf]

theorem firmAtZero_classFormed (p : Fin 72) (hs : ClassFormed s) : ClassFormed (firmAtZero p s) := by
  unfold firmAtZero
  split
  · exact hs
  · exact classFormed_congr rfl rfl rfl hs

theorem comFlags_firmAtZero (p : Fin 72) (s : State) {e : Fin 4} (he : nth s.cdt.com.flags e = true) :
    nth (firmAtZero p s).cdt.com.flags e = true := by
  unfold firmAtZero
  split
  · exact he
  · rw [comFlags_setEventCom]
    split
    · rfl
    · exact he

theorem opsFlags_firmAtZero (p : Fin 72) (s : State) : (firmAtZero p s).cdt.ops = s.cdt.ops := by
  unfold firmAtZero
  split <;> rfl

theorem requested_firmAtZero (p q : Fin 72) (s : State) (a : Fin 16) :
    (entryOf (firmAtZero p s) q a).requested = (entryOf s q a).requested := by
  by_cases hq : q = p
  · subst hq
    cases hf : (hourOf s q).site.firmed with
    | true => rw [firmAtZero_of_firmed hf]
    | false =>
      rw [entryOf, hourOf_firmAtZero_same hf]
      simp only [nth_tab]
      split <;> rfl
  · rw [entryOf, hourOf_firmAtZero_other hq, entryOf]

end

/-! ### The quantities of a close without measurement (R188) -/

/-- Nothing to share gives nothing to each. -/
theorem largestRemainder_zero (basis : Vector Nat 16) (i : Fin 16) : nth (largestRemainder 0 basis) i = 0 := by
  simp [largestRemainder]

theorem closeFuel_missed (h : HourId) (s : State) (a : Fin 16) : nth (closeFuel h gatherMissed s) a = 0 := by
  have fuel : energyFuel gatherMissed.metering = 0 := nth_fill 0 2
  simp only [closeFuel, shareFuel, fuel, largestRemainder_zero, nth_tab]
  split
  · rfl
  · exact min_eq_left (le_max_left 0 _)

theorem measuredNet_missed : measuredNet gatherMissed.metering = 0 := by
  simp [measuredNet, energyIn, energyOut, gatherMissed, HourMetering.zero]

theorem closeAllocations_asNominated {h : HourId} {g : Gathered} {s : State} (hm : s.cau.mode = .asNominated) :
    closeAllocations h g s = closeQuantities h s := by
  unfold closeAllocations allocate
  rw [hm]

/-- Confirmations of 0 are allocated as they are. -/
theorem closeAllocations_of_zero {h : HourId} {g : Gathered} {s : State} (hq : ∀ a, nth (closeQuantities h s) a = 0) :
    closeAllocations h g s = closeQuantities h s := by
  have net : sumInt (nth (closeQuantities h s)) = 0 := by
    rw [sumInt_eq]
    exact Finset.sum_eq_zero fun a _ => hq a
  unfold closeAllocations allocate
  cases s.cau.mode with
  | asNominated => rfl
  | proRata =>
    show proRata s (closeQuantities h s) _ = closeQuantities h s
    unfold proRata
    exact if_pos (.inr net)

theorem reconciliation_missed : reconciliation gatherMissed.metering = 0 := by
  rw [reconciliation, measuredNet_missed]
  simp [energyFuel, cavernNets, gatherMissed, HourMetering.zero]

theorem differs_missed (s : State) : differs s gatherMissed.metering = false := by
  unfold differs
  rw [reconciliation_missed]
  exact decide_eq_false (Nat.not_lt_zero _)

/-! ### The close of a missed hour -/

section
variable {h : HourId} {g : Gathered} {s : State}

/-- Its own hour stands as it was posted: it is closed, and no re-firm reaches it. -/
theorem hourOf_closePosted_same :
    hourOf (closePosted h g s) (todayPosition h.hour)
      = postHour s (closeAllocations h g s) (closeFuel h g s) (hourOf s (todayPosition h.hour)) := by
  rw [(closePosted_refirmed h g s).stands, hourOf_hourPosted_same]
  exact refirmReaches_closed (by rw [hourOf_hourPosted_same]; rfl)

theorem firmed_closePosted_other {q : Fin 72} (hq : q ≠ todayPosition h.hour) :
    (hourOf (closePosted h g s) q).site.firmed = (hourOf s q).site.firmed := by
  rw [(closePosted_refirmed h g s).firmed, hourOf_hourPosted_other h g s hq]

/-- Another hour stands through the close of a missed hour while the class is formed, and always when it is closed or unfirmed. -/
theorem hourOf_closePosted_other {q : Fin 72} (hq : q ≠ todayPosition h.hour)
    (hs : ClassFormed s ∨ (hourOf s q).site.closed = true ∨ (hourOf s q).site.firmed = false) :
    hourOf (closePosted h gatherMissed s) q = hourOf s q := by
  have posted := hourOf_hourPosted_other h gatherMissed s hq
  rw [← posted] at hs
  refine Eq.trans ?_ posted
  rcases hs with hs | hs | hs
  · have formed : ClassFormed (hourPosted h gatherMissed s) := hs
    rw [closePosted_eq, differs_missed, (report_inactive formed condMeterDiff).1]
    rfl
  · exact (closePosted_refirmed h gatherMissed s).stands q (refirmReaches_closed hs)
  · exact (closePosted_refirmed h gatherMissed s).stands q (refirmReaches_unfirmed hs)

theorem completeClose_classFormed (hs : ClassFormed s) : ClassFormed (completeClose h gatherMissed s) := by
  have formed : ClassFormed (hourPosted h gatherMissed s) := hs
  have told : ClassFormed (closePosted h gatherMissed s) := by
    rw [closePosted_eq, differs_missed]
    exact (report_inactive formed condMeterDiff).2
  have finished (u : State) (hu : ClassFormed u) : ClassFormed (finishClose h u) := hu
  rw [completeClose_recorded]
  exact finished _ told

end

/-! ### What a missed hour leaves of the rows -/

/-- A cell that stands, for the shippers that hold an account. -/
def CellStands (u : State) (c c' : HourCell) : Prop :=
  c'.site = c.site ∧ ∀ a, (accountOf u a).held = true → nth c'.entries a = nth c.entries a

theorem CellStands.refl (u : State) (c : HourCell) : CellStands u c c := ⟨rfl, fun _ _ => rfl⟩

/-- What the close of a missed hour makes of its cell, in a state `u` after it (R8, R188); `formed` says that no re-firm was raised before
it. -/
structure MissedClosed (formed : Prop) (mode : AllocationMode) (u : State) (was c : HourCell) : Prop where
  closed : c.site.closed = true
  firmed : c.site.firmed = true
  zeroSite : was.site.firmed = false →
    c.site.injectionCapacity = 0 ∧ c.site.withdrawalCapacity = 0 ∧ c.site.net = 0 ∧ c.site.direction = .standby
      ∧ nth u.cdt.com.flags evHourFirmed = true
  zeroEntries : was.site.firmed = false → ∀ a, (accountOf u a).held = true →
    nth c.entries a = { nth was.entries a with confirmed := some 0, allocated := some 0, fuel := some 0 }
  kept : was.site.firmed = true → formed → ∀ a, (accountOf u a).held = true →
    (nth c.entries a).confirmed = (nth was.entries a).confirmed ∧ (nth c.entries a).fuel = some 0
      ∧ (mode = .asNominated → (nth c.entries a).allocated = some ((nth was.entries a).confirmed.getD 0))

/-- The cell of a closed missed hour, as a later state finds it. -/
theorem MissedClosed.later {formed : Prop} {mode : AllocationMode} {u v : State} {was c c' : HourCell}
    (h : MissedClosed formed mode u was c) (hs : CellStands v c c')
    (hheld : ∀ a, (accountOf v a).held = true → (accountOf u a).held = true)
    (hflag : nth u.cdt.com.flags evHourFirmed = true → nth v.cdt.com.flags evHourFirmed = true) :
    MissedClosed formed mode v was c' := by
  obtain ⟨site, entries⟩ := hs
  refine ⟨by rw [site, h.closed], by rw [site, h.firmed], fun hw => ?_, fun hw a ha => ?_, fun hw hf a ha => ?_⟩
  · obtain ⟨h1, h2, h3, h4, h5⟩ := h.zeroSite hw
    rw [site]
    exact ⟨h1, h2, h3, h4, hflag h5⟩
  · rw [entries a ha]
    exact h.zeroEntries hw a (hheld a ha)
  · rw [entries a ha]
    exact h.kept hw hf a (hheld a ha)

/-- The cell of a missed hour against an earlier cell, which an unfirmed hour keeps in any case and a firmed one while the class is
formed. -/
theorem MissedClosed.earlier {formed formed' : Prop} {mode : AllocationMode} {u : State} {was was' c : HourCell}
    (h : MissedClosed formed mode u was c) (hf : formed' → formed) (hfirmed : was.site.firmed = was'.site.firmed)
    (hs : was'.site.firmed = false ∨ formed' → ∀ a, (accountOf u a).held = true → nth was.entries a = nth was'.entries a) :
    MissedClosed formed' mode u was' c := by
  refine ⟨h.closed, h.firmed, fun hw => h.zeroSite (hfirmed.trans hw), fun hw a ha => ?_, fun hw hn a ha => ?_⟩
  · rw [← hs (.inl hw) a ha]
    exact h.zeroEntries (hfirmed.trans hw) a ha
  · rw [← hs (.inr hn) a ha]
    exact h.kept (hfirmed.trans hw) (hf hn) a ha

section
variable (h : HourId) (s : State)

/-- The close of a missed hour before its rollover. -/
abbrev missedClose : State := completeClose h gatherMissed (firmAtZero (todayPosition h.hour) s)

theorem state_of_missedClose_held {a : Fin 16} (ha : (accountOf (missedClose h s) a).held = true) :
    (accountOf (missedClose h s) a).state = (accountOf (firmAtZero (todayPosition h.hour) s) a).state :=
  state_of_completeClose_held h gatherMissed _ ha

theorem held_of_missedClose {a : Fin 16} (ha : (accountOf (missedClose h s) a).held = true) : (accountOf s a).held = true := by
  have state := state_of_missedClose_held h s ha
  rw [accountOf_firmAtZero] at state
  rwa [Account.held, ← state, ← Account.held]

theorem requested_missedClose {a : Fin 16} (ha : (accountOf (missedClose h s) a).held = true) (q : Fin 72) :
    (entryOf (missedClose h s) q a).requested = (entryOf s q a).requested := by
  rw [requested_completeClose h gatherMissed _ (state_of_missedClose_held h s ha), requested_firmAtZero]

theorem firmed_missedClose_other {q : Fin 72} (hq : q ≠ todayPosition h.hour) :
    (hourOf (missedClose h s) q).site.firmed = (hourOf s q).site.firmed := by
  rw [completeClose_site, firmed_closePosted_other hq, hourOf_firmAtZero_other hq]

theorem missedClose_stands {q : Fin 72} (hq : q ≠ todayPosition h.hour)
    (hs : ClassFormed s ∨ (hourOf s q).site.closed = true ∨ (hourOf s q).site.firmed = false) :
    CellStands (missedClose h s) (hourOf s q) (hourOf (missedClose h s) q) := by
  have stands : hourOf (closePosted h gatherMissed (firmAtZero (todayPosition h.hour) s)) q = hourOf s q := by
    rw [hourOf_closePosted_other hq, hourOf_firmAtZero_other hq]
    rw [hourOf_firmAtZero_other hq]
    exact hs.imp_left (firmAtZero_classFormed _)
  refine ⟨by rw [completeClose_site, stands], fun a ha => ?_⟩
  rw [← entryOf, entryOf_completeClose h gatherMissed _ (state_of_missedClose_held h s ha), entryOf, stands]

/-- The confirmations that the close of an hour takes of the shippers that hold an account. -/
theorem closeQuantities_held {a : Fin 16} (ha : (accountOf s a).held = true) :
    nth (closeQuantities h s) a = confirmedOf s (todayPosition h.hour) a := by
  simp only [closeQuantities, closingConfirmed, nth_tab, ha, if_true]

theorem missedClose_closed (formed : Prop) :
    MissedClosed formed s.cau.mode (missedClose h s) (hourOf s (todayPosition h.hour))
      (hourOf (missedClose h s) (todayPosition h.hour)) := by
  obtain ⟨z, hz⟩ : ∃ z, z = firmAtZero (todayPosition h.hour) s := ⟨_, rfl⟩
  have mode : z.cau.mode = s.cau.mode := by rw [hz, cau_of_changes (firmAtZero_changes _ s) (by decide)]
  have site : (hourOf (missedClose h s) (todayPosition h.hour)).site
      = { (hourOf z (todayPosition h.hour)).site with closed := true } := by
    rw [completeClose_site, hourOf_closePosted_same, hz]
    rfl
  have entries (a : Fin 16) (ha : (accountOf (missedClose h s) a).held = true) :
      nth (hourOf (missedClose h s) (todayPosition h.hour)).entries a
        = { entryOf z (todayPosition h.hour) a with allocated := some (nth (closeAllocations h gatherMissed z) a), fuel := some 0 } := by
    have before : (accountOf z a).held = true := by
      rw [hz, accountOf_firmAtZero]
      exact held_of_missedClose h s ha
    rw [← entryOf, entryOf_completeClose h gatherMissed _ (state_of_missedClose_held h s ha), ← hz, entryOf, hourOf_closePosted_same]
    simp only [postHour, nth_tab, before, if_true, closeFuel_missed]
    rfl
  have zero (hw : (hourOf s (todayPosition h.hour)).site.firmed = false) :
      hourOf z (todayPosition h.hour) = zeroFirmed s (hourOf s (todayPosition h.hour)) := by rw [hz, hourOf_firmAtZero_same hw]
  refine ⟨by rw [site], by rw [site]; simp only [hz, firmAtZero_firmed], fun hw => ?_, fun hw a ha => ?_, fun hw _ a ha => ?_⟩
  · rw [site, zero hw]
    refine ⟨rfl, rfl, rfl, rfl, ?_⟩
    rw [comFlags_completeClose h gatherMissed _ (by decide), firmAtZero_of_unfirmed hw, comFlags_setEventCom]
    rfl
  · have confirmed (b : Fin 16) : nth (closeQuantities h z) b = 0 := by
      by_cases hb : (accountOf z b).held = true
      · rw [closeQuantities_held h z hb, confirmedOf, entryOf, zero hw]
        rw [hz, accountOf_firmAtZero] at hb
        simp only [nth_tab, hb, if_true]
        rfl
      · simp only [closeQuantities, closingConfirmed, nth_tab, hb, Bool.false_eq_true, if_false]
    rw [entries a ha, closeAllocations_of_zero confirmed, confirmed, entryOf, zero hw]
    simp only [nth_tab, held_of_missedClose h s ha, if_true]
  · have same : z = s := by rw [hz, firmAtZero_of_firmed hw]
    rw [entries a ha, same]
    refine ⟨rfl, rfl, fun hm => ?_⟩
    rw [closeAllocations_asNominated hm, closeQuantities_held h s (held_of_missedClose h s ha)]
    rfl

end

end Sys2Proof.Machine

/-! SUPPORT. The missed hours of a SET-CLOCK, one after the other (R8, R155, R188). -/

namespace Sys2Proof.Machine

open Sys2Proof.Safety

/-! ### One missed hour with its rollover -/

/-- How many positions the close of the hour moves the rows. -/
def dayShift (h : HourId) : Nat := if h.hour = 23 then 24 else 0

theorem dayShift_cases (h : HourId) : dayShift h = 0 ∨ dayShift h = 24 := by
  unfold dayShift
  split
  · exact .inr rfl
  · exact .inl rfl

section
variable (h : HourId) (s : State)

theorem missedHour_eq : missedHour h s = closedAndRolled h gatherMissed (firmAtZero (todayPosition h.hour) s) := rfl

theorem rowBefore_rolloverAfter (x : Nat) : rowBefore (rolloverAfter h s) x = rowBefore s (x + dayShift h) := by
  unfold rolloverAfter dayShift
  split
  · by_cases hx : x < 72
    · rw [rowBefore_of_lt hx, hourOf_rollover]
    · rw [rowBefore_of_le (by omega), rowBefore_of_le (by omega)]
  · rfl

theorem rowBefore_missedHour (x : Nat) : rowBefore (missedHour h s) x = rowBefore (missedClose h s) (x + dayShift h) :=
  rowBefore_rolloverAfter h (missedClose h s) x

theorem accountOf_missedHour (a : Fin 16) : accountOf (missedHour h s) a = accountOf (missedClose h s) a := by
  rw [accountOf, missedHour_eq, closedAndRolled_act, accountOf]

theorem held_of_missedHour {a : Fin 16} (ha : (accountOf (missedHour h s) a).held = true) : (accountOf s a).held = true := by
  rw [accountOf_missedHour] at ha
  exact held_of_missedClose h s ha

theorem CellStands.rolled {c c' : HourCell} (hs : CellStands (missedClose h s) c c') : CellStands (missedHour h s) c c' :=
  ⟨hs.1, fun a ha => hs.2 a (by rwa [accountOf_missedHour] at ha)⟩

theorem requested_missedHour {a : Fin 16} (ha : (accountOf (missedHour h s) a).held = true) (x : Nat) :
    (nth (rowBefore (missedHour h s) x).entries a).requested = (nth (rowBefore s (x + dayShift h)).entries a).requested := by
  rw [accountOf_missedHour] at ha
  rw [rowBefore_missedHour]
  by_cases hx : x + dayShift h < 72
  · rw [rowBefore_of_lt hx, rowBefore_of_lt hx]
    exact requested_missedClose h s ha _
  · rw [rowBefore_of_le (by omega), rowBefore_of_le (by omega)]

theorem firmed_missedHour {x : Nat} (hx : x + dayShift h ≠ (todayPosition h.hour).val) :
    (rowBefore (missedHour h s) x).site.firmed = (rowBefore s (x + dayShift h)).site.firmed := by
  rw [rowBefore_missedHour]
  by_cases hin : x + dayShift h < 72
  · rw [rowBefore_of_lt hin, rowBefore_of_lt hin]
    exact firmed_missedClose_other h s fun he => hx (congrArg Fin.val he)
  · rw [rowBefore_of_le (by omega), rowBefore_of_le (by omega)]

/-- Another hour stands while the class is formed, and always when it is closed or unfirmed. -/
theorem missedHour_stands {x : Nat} (hx : x + dayShift h ≠ (todayPosition h.hour).val)
    (hs : ClassFormed s ∨ (rowBefore s (x + dayShift h)).site.closed = true ∨ (rowBefore s (x + dayShift h)).site.firmed = false) :
    CellStands (missedHour h s) (rowBefore s (x + dayShift h)) (rowBefore (missedHour h s) x) := by
  rw [rowBefore_missedHour]
  by_cases hin : x + dayShift h < 72
  · rw [rowBefore_of_lt hin] at hs ⊢
    rw [rowBefore_of_lt hin]
    exact (missedClose_stands h s (fun he => hx (congrArg Fin.val he)) hs).rolled
  · rw [rowBefore_of_le (by omega), rowBefore_of_le (by omega)]
    exact .refl _ _

/-- An event flag that was set stays set through a rollover. -/
theorem comFlags_rolloverAfter {e : Fin 4} (he : nth s.cdt.com.flags e = true) : nth (rolloverAfter h s).cdt.com.flags e = true := by
  unfold rolloverAfter
  split
  · rw [comFlags_rollover]
    split
    · rfl
    · exact he
  · exact he

/-- An event flag that was set stays set through a missed hour. -/
theorem comFlags_missedHour {e : Fin 4} (hr : e ≠ evRefirmed) (he : nth s.cdt.com.flags e = true) :
    nth (missedHour h s).cdt.com.flags e = true := by
  refine comFlags_rolloverAfter h (missedClose h s) ?_
  rw [comFlags_completeClose h gatherMissed _ hr]
  split
  · rfl
  · exact comFlags_firmAtZero _ s he

theorem opsFlags_missedHour {e : Fin 4} (hr : e ≠ evDirectionChanged) (he : nth s.cdt.ops.flags e = true) :
    nth (missedHour h s).cdt.ops.flags e = true := by
  have closed : nth (missedClose h s).cdt.ops.flags e = true := by
    rw [opsFlags_completeClose h gatherMissed _ hr, opsFlags_firmAtZero, he, ite_self]
  rw [missedHour_eq]
  unfold closedAndRolled rolloverAfter
  split
  · rw [opsFlags_rollover, closed]
  · exact closed

theorem dayRolled_missedHour (hh : dayShift h ≠ 0) : nth (missedHour h s).cdt.com.flags evDayRolled = true := by
  have last : h.hour = 23 := by
    by_contra hne
    exact hh (if_neg hne)
  rw [missedHour_eq, closedAndRolled, rolloverAfter_last last, comFlags_rollover]
  rfl

theorem rolloverAfter_classFormed (hs : ClassFormed s) : ClassFormed (rolloverAfter h s) := by
  unfold rolloverAfter
  split
  · exact classFormed_congr rfl rfl rfl hs
  · exact hs

theorem missedHour_classFormed (hs : ClassFormed s) : ClassFormed (missedHour h s) :=
  rolloverAfter_classFormed h _ (completeClose_classFormed (firmAtZero_classFormed _ hs))

theorem missedHour_changes : ChangesOnly [.clock, .cdt, .dir, .act, .nfu, .cau] s (missedHour h s) :=
  ((firmAtZero_changes _ s).mono (by decide)).trans (closedAndRolled_changes h gatherMissed _)

theorem missedHour_clock : (missedHour h s).clock = { s.clock with lastClosed := some h } := by
  rw [missedHour_eq, closedAndRolled_clock, clock_of_changes (firmAtZero_changes _ s) (by decide)]

theorem missedHour_dir : ∃ c, (missedHour h s).dir = { s.dir with caverns := c } := by
  obtain ⟨c, hc⟩ := closedAndRolled_dir h gatherMissed (firmAtZero (todayPosition h.hour) s)
  exact ⟨c, by rw [missedHour_eq, hc, ← firmAtZero_changes _ s .dir (by decide)]⟩

theorem missedHour_leads :
    (missedHour h s).nfu.lead = s.nfu.lead ∧ (missedHour h s).nfu.pendingLead = s.nfu.pendingLead := by
  obtain ⟨lead, pending⟩ := closedAndRolled_leads h gatherMissed (firmAtZero (todayPosition h.hour) s)
  rw [missedHour_eq, lead, pending, firmAtZero_nfu]
  exact ⟨rfl, rfl⟩

theorem missedHour_today :
    (missedHour h s).nfu.todayDay = s.nfu.todayDay.map fun d => if dayShift h = 0 then d else (d + 1) % 65536 := by
  rw [missedHour_eq, closedAndRolled_today, firmAtZero_nfu, dayShift]
  split
  · rfl
  · exact Option.map_id'.symm

/-- The record of a missed hour (R188). -/
theorem missedHour_cau :
    ∃ r, (missedHour h s).cau = { s.cau with history := appendRecord s.cau.history r } ∧ outageRecord h s.cau.mode r := by
  have before : (firmAtZero (todayPosition h.hour) s).cau = s.cau := cau_of_changes (firmAtZero_changes _ s) (by decide)
  refine ⟨closingRecord h gatherMissed (firmAtZero (todayPosition h.hour) s), by rw [missedHour_eq, closedAndRolled_cau, before], ?_⟩
  have difference : reconciliation gatherMissed.metering = 0 := reconciliation_missed
  refine ⟨rfl, rfl, ?_, ?_, ?_, fun k => ?_, difference, rfl, congrArg Cau.mode before, rfl, fun d => ?_, rfl, rfl⟩
  all_goals simp [hourRecord, energyIn, energyOut, energyFuel, cavernNets, gatherMissed, HourMetering.zero]

end

/-! ### Every missed hour -/

/-- From `s` to `u` the hours of `n` positions from `first` on have been closed as missed, the rows moved by `rolled` positions. -/
structure HoursMissed (n first rolled : Nat) (s u : State) : Prop where
  changes : ChangesOnly [.clock, .cdt, .dir, .act, .nfu, .cau] s u
  dir : ∃ c, u.dir = { s.dir with caverns := c }
  lead : u.nfu.lead = s.nfu.lead
  pendingLead : u.nfu.pendingLead = s.nfu.pendingLead
  mode : u.cau.mode = s.cau.mode
  held : ∀ a, (accountOf u a).held = true → (accountOf s a).held = true
  com : ∀ e, e ≠ evRefirmed → nth s.cdt.com.flags e = true → nth u.cdt.com.flags e = true
  ops : ∀ e, e ≠ evDirectionChanged → nth s.cdt.ops.flags e = true → nth u.cdt.ops.flags e = true
  flags : 1 ≤ n → nth u.cdt.com.flags evHourClosedCom = true ∧ nth u.cdt.ops.flags evHourClosedOps = true
  dayRolled : 0 < rolled → nth u.cdt.com.flags evDayRolled = true
  today : u.nfu.todayDay = s.nfu.todayDay.map fun d => if rolled = 0 then d else (d + rolled / 24) % 65536
  requested : ∀ x a, (accountOf u a).held = true →
    (nth (rowBefore u x).entries a).requested = (nth (rowBefore s (x + rolled)).entries a).requested
  stands : ∀ x, x + rolled < first → ClassFormed s ∨ (rowBefore s (x + rolled)).site.closed = true →
    CellStands u (rowBefore s (x + rolled)) (rowBefore u x)
  missed : ∀ i x, i < n → x + rolled = first + i →
    MissedClosed (ClassFormed s) s.cau.mode u (rowBefore s (first + i)) (rowBefore u x)

theorem HoursMissed.zero (first : Nat) (s : State) : HoursMissed 0 first 0 s s :=
  ⟨.refl _ s, ⟨_, rfl⟩, rfl, rfl, rfl, fun _ => id, fun _ _ => id, fun _ _ => id, fun h => absurd h (by omega),
    fun h => absurd h (by omega), by simp, fun _ _ _ => rfl, fun _ _ _ => .refl _ _, fun _ _ h => absurd h (by omega)⟩

/-- A missed hour before those that follow it. -/
theorem HoursMissed.cons {n first rolled : Nat} {h : HourId} {s u : State}
    (hfirst : first + dayShift h = (todayPosition h.hour).val + 1) (hu : HoursMissed n first rolled (missedHour h s) u) :
    HoursMissed (n + 1) (todayPosition h.hour).val (rolled + dayShift h) s u where
  changes := (missedHour_changes h s).trans hu.changes
  dir := by
    obtain ⟨c, hc⟩ := missedHour_dir h s
    obtain ⟨d, hd⟩ := hu.dir
    exact ⟨d, by rw [hd, hc]⟩
  lead := hu.lead.trans (missedHour_leads h s).1
  pendingLead := hu.pendingLead.trans (missedHour_leads h s).2
  mode := by
    obtain ⟨_, hr, -⟩ := missedHour_cau h s
    rw [hu.mode, hr]
  held a ha := held_of_missedHour h s (hu.held a ha)
  com e hr he := hu.com e hr (comFlags_missedHour h s hr he)
  ops e hr he := hu.ops e hr (opsFlags_missedHour h s hr he)
  flags _ := by
    obtain ⟨com, ops⟩ := closedAndRolled_flags h gatherMissed (firmAtZero (todayPosition h.hour) s)
    exact ⟨hu.com _ (by decide) com, hu.ops _ (by decide) ops⟩
  dayRolled hr := by
    by_cases h0 : rolled = 0
    · exact hu.com _ (by decide) (dayRolled_missedHour h s (by omega))
    · exact hu.dayRolled (by omega)
  today := by
    rw [hu.today, missedHour_today, Option.map_map]
    congr 1
    funext d
    rcases dayShift_cases h with hz | hz
    · simp only [Function.comp_apply, hz, if_true, Nat.add_zero]
    · simp only [Function.comp_apply, hz, show ¬(24 = 0) by omega, show ¬(rolled + 24 = 0) by omega, if_false]
      split
      · next h0 => rw [h0]
      · omega
  requested x a ha := by
    rw [hu.requested x a ha, requested_missedHour h s (hu.held a ha), Nat.add_assoc]
  stands x hx hs := by
    rw [← Nat.add_assoc] at hs ⊢
    have first' := missedHour_stands h s (x := x + rolled) (by omega) (hs.imp_right Or.inl)
    have rest := hu.stands x (by omega) (hs.imp (missedHour_classFormed h s) fun hc => by rw [first'.1, hc])
    exact ⟨rest.1.trans first'.1, fun a ha => (rest.2 a ha).trans (first'.2 a (hu.held a ha))⟩
  missed i x hi hx := by
    cases i with
    | zero =>
      have here : rowBefore (missedHour h s) (x + rolled) = hourOf (missedClose h s) (todayPosition h.hour) := by
        rw [rowBefore_missedHour, show x + rolled + dayShift h = (todayPosition h.hour).val by omega,
          rowBefore_of_lt (todayPosition h.hour).isLt]
      have own := missedClose_closed h s (ClassFormed s)
      rw [← here] at own
      have stands := hu.stands x (by omega) (.inr own.closed)
      rw [Nat.add_zero, rowBefore_of_lt (todayPosition h.hour).isLt]
      refine own.later stands (fun a ha => ?_) fun hf => hu.com _ (by decide) (comFlags_rolloverAfter h _ hf)
      rw [← accountOf_missedHour]
      exact hu.held a ha
    | succ i =>
      have was : first + i + dayShift h = (todayPosition h.hour).val + (i + 1) := by omega
      have mode : (missedHour h s).cau.mode = s.cau.mode := by
        obtain ⟨_, hr, -⟩ := missedHour_cau h s
        rw [hr]
      have rest := hu.missed i x (by omega) (by omega)
      rw [mode] at rest
      refine rest.earlier (missedHour_classFormed h s) ?_ fun hs a ha => ?_
      · rw [firmed_missedHour h s (by omega), was]
      · have stands := missedHour_stands h s (x := first + i) (by omega) (by rw [was]; exact hs.symm.imp_right Or.inr)
        rw [stands.2 a (hu.held a ha), was]

end Sys2Proof.Machine

/-! SUPPORT. The hours that a SET-CLOCK counts, and the books it brings level with the set time (R6 to R9). -/

namespace Sys2Proof.Machine

open Sys2Proof.Safety

/-! ### Hours by their index (R6) -/

/-- The hour of an index, counted on over the span of the hours. -/
def hourAt (i : Nat) : HourId := ⟨i / 24 % 65536, i % 24⟩

theorem hourAt_index {h : HourId} (hr : hourInRange h) : hourAt h.index = h := by
  obtain ⟨day, hour⟩ := h
  obtain ⟨hday, hhour⟩ := hr
  simp only at hday hhour
  simp only [hourAt, HourId.index, HourId.mk.injEq]
  omega

theorem hourAt_next (i : Nat) : (hourAt i).next = hourAt (i + 1) := by
  unfold HourId.next hourAt
  split <;> simp only [HourId.mk.injEq] at * <;> omega

theorem hourAt_previous (i : Nat) : (hourAt (i + 1)).previous = hourAt i := by
  unfold HourId.previous hourAt
  split <;> simp only [HourId.mk.injEq] at * <;> omega

theorem iterate_next_hourAt (n i : Nat) : HourId.next^[n] (hourAt i) = hourAt (i + n) := by
  induction n generalizing i with
  | zero => rfl
  | succ n ih => rw [Function.iterate_succ_apply, hourAt_next, ih, Nat.add_assoc, Nat.add_comm 1]

/-- The hour that lies the forward distance ahead. -/
theorem hourAt_forwardDistance {a b : HourId} (ha : hourInRange a) (hb : hourInRange b) : hourAt (a.index + forwardDistance a b) = b := by
  have hb' := hourAt_index hb
  obtain ⟨hday, hhour⟩ := ha
  have bound : a.index < 1572864 := by
    unfold HourId.index
    omega
  obtain ⟨hday', hhour'⟩ := hb
  have bound' : b.index < 1572864 := by
    unfold HourId.index
    omega
  refine Eq.trans ?_ hb'
  unfold hourAt forwardDistance Config.hourSpan
  simp only [HourId.mk.injEq]
  omega

theorem forwardDistance_self {a : HourId} : forwardDistance a a = 0 := by
  unfold forwardDistance Config.hourSpan
  omega

section
variable {h set : HourId} {n : Nat} (hh : hourInRange h) (hs : hourInRange set) (hd : forwardDistance h set = n + 1)
include hh hs hd

/-- The last of the missed hours is the hour before the set one. -/
theorem iterate_next_previous : HourId.next^[n] h = set.previous := by
  rw [← hourAt_forwardDistance hh hs, hd, ← Nat.add_assoc, hourAt_previous, ← iterate_next_hourAt, hourAt_index hh]

/-- The positions of the missed hours lead to the set hour's, the rows moved by their rollovers. -/
theorem todayPosition_of_missed :
    (todayPosition set.hour).val + 24 * ((h.next.hour + n) / 24) = (todayPosition h.next.hour).val + n := by
  have hset : set = hourAt (h.index + (n + 1)) := by rw [← hd, hourAt_forwardDistance hh hs]
  have hnext : h.next = hourAt (h.index + 1) := by rw [← hourAt_next, hourAt_index hh]
  rw [hset, hnext]
  simp only [hourAt, todayPosition]
  omega

end

/-! ### All missed hours -/

theorem closeMissedHours_missed (n : Nat) {h : HourId} (hh : h.hour < 24) (s : State) :
    HoursMissed n (todayPosition h.hour).val (24 * ((h.hour + n) / 24)) s (closeMissedHours n h s) := by
  induction n generalizing h s with
  | zero =>
    rw [Nat.add_zero, Nat.div_eq_of_lt hh]
    exact .zero _ s
  | succ n ih =>
    have next : h.next.hour < 24 ∧ (todayPosition h.next.hour).val + dayShift h = (todayPosition h.hour).val + 1
        ∧ 24 * ((h.next.hour + n) / 24) + dayShift h = 24 * ((h.hour + (n + 1)) / 24) := by
      unfold HourId.next dayShift todayPosition
      split <;> dsimp only <;> omega
    obtain ⟨hlt, hfirst, hrolled⟩ := next
    rw [← hrolled]
    exact (ih hlt (missedHour h s)).cons hfirst

theorem closeMissedHours_clock (n : Nat) {l : HourId} {s : State} (hl : s.clock.lastClosed = some l) :
    (closeMissedHours n l.next s).clock = { s.clock with lastClosed := some (HourId.next^[n] l) } := by
  induction n generalizing l s with
  | zero =>
    show s.clock = { s.clock with lastClosed := some l }
    rw [← hl]
  | succ n ih =>
    have clock := missedHour_clock l.next s
    rw [closeMissedHours, ih (by rw [clock]), clock, Function.iterate_succ_apply]

/-- A record appended, the oldest of 48 gone. -/
theorem appendRecord_eq (history : List HourRecord) (r : HourRecord) :
    appendRecord history r = (history ++ [r]).drop (history.length + 1 - 48) := by
  unfold appendRecord Config.historyLength
  split
  · rw [Nat.sub_eq_zero_of_le (by omega), List.drop_zero]
  · rw [List.drop_append_of_le_length (by omega)]

/-- Every missed hour leaves its record, and the mode stands. -/
theorem closeMissedHours_history (n : Nat) (l : HourId) (s : State) (hlen : s.cau.history.length ≤ 48) :
    ∃ rs : List HourRecord, rs.length = n
      ∧ (closeMissedHours n l.next s).cau.history = (s.cau.history ++ rs).drop (s.cau.history.length + n - 48)
      ∧ ∀ i r, rs[i]? = some r → outageRecord (HourId.next^[i + 1] l) s.cau.mode r := by
  induction n generalizing l s with
  | zero =>
    refine ⟨[], rfl, ?_, fun i r hr => by simp at hr⟩
    rw [List.append_nil, Nat.add_zero, Nat.sub_eq_zero_of_le hlen, List.drop_zero]
    rfl
  | succ n ih =>
    obtain ⟨r, hcau, hr⟩ := missedHour_cau l.next s
    have length : (missedHour l.next s).cau.history.length = min 48 (s.cau.history.length + 1) := by
      rw [hcau]
      exact length_appendRecord r hlen
    obtain ⟨rs, hrs, hhist, hout⟩ := ih l.next (missedHour l.next s) (by omega)
    refine ⟨r :: rs, by rw [List.length_cons, hrs], ?_, fun i x hx => ?_⟩
    · have cut : s.cau.history.length + 1 - 48 ≤ (s.cau.history ++ [r]).length := by
        simp only [List.length_append, List.length_singleton]
        omega
      rw [closeMissedHours, hhist, length, hcau, appendRecord_eq, ← List.drop_append_of_le_length cut,
        List.drop_drop, List.append_assoc, List.singleton_append]
      congr 1
      omega
    · cases i with
      | zero =>
        obtain rfl : r = x := by simpa using hx
        exact hr
      | succ i =>
        have mode : (missedHour l.next s).cau.mode = s.cau.mode := by rw [hcau]
        rw [← mode, Function.iterate_succ_apply]
        exact hout i x hx

/-! ### The books level with the set time (R8, R9) -/

/-- What the books brought level with the set hour leave of the part: nothing but the clock's last closed hour, and what closes, rollovers
and clearings write, the leads standing. -/
structure BooksLevel (set : HourId) (s u : State) : Prop where
  changes : ChangesOnly [.clock, .cdt, .dir, .act, .nfu, .cau] s u
  lastClosed : u.clock.lastClosed = some set.previous
  dir : ∃ c, u.dir = { s.dir with caverns := c }
  lead : u.nfu.lead = s.nfu.lead
  pendingLead : u.nfu.pendingLead = s.nfu.pendingLead

section
variable {set : HourId} {s : State}

theorem firstSet_level (set : HourId) (s : State) : BooksLevel set s (firstSet set s) :=
  ⟨((withNfu_changes s _).mono (by decide)).trans ((withClock_changes _ _).mono (by decide)), rfl, ⟨_, rfl⟩, rfl, rfl⟩

theorem abandonHours_level (set : HourId) (s : State) : BooksLevel set s (abandonHours set s) :=
  ⟨((withNfu_changes s _).mono (by decide)).trans ((withClock_changes _ _).mono (by decide)), rfl, ⟨_, rfl⟩, rfl, rfl⟩

theorem closeMissedHours_level {h : HourId} {n : Nat} (hh : hourInRange h) (hs : hourInRange set) (hl : s.clock.lastClosed = some h)
    (hd : forwardDistance h set = n + 1) : BooksLevel set s (closeMissedHours n h.next s) := by
  have missed := closeMissedHours_missed n (hourInRange_next hh).2 s
  exact ⟨missed.changes, by rw [closeMissedHours_clock n hl, iterate_next_previous hh hs hd], missed.dir, missed.lead,
    missed.pendingLead⟩

end

end Sys2Proof.Machine

/-! SUPPORT. How a SET-CLOCK completes: the clock runs, the overdue hours are firmed, the unclocked measurement is taken, and the set hour
starts (R10, R54). -/

namespace Sys2Proof.Machine

open Sys2Proof.Safety

/-! ### The unclocked measurement (R54) -/

/-- What every pass of two walks keeps between them, the two walks keep. -/
theorem overFin_relates {n : Nat} {σ : Type} (R : σ → σ → Prop) (f : Fin n → σ → σ)
    (h : ∀ i s t, R s t → R (f i s) (f i t)) {s t : σ}
    (hs : R s t) : R (overFin n f s) (overFin n f t) := by
  unfold overFin
  induction List.finRange n generalizing s t with
  | nil => exact hs
  | cons i l ih => exact ih (h i s t hs)

/-- Two states with the same metering at the same time. -/
def SameMetering (s t : State) : Prop := t.mtu = s.mtu ∧ t.fine = s.fine

theorem bookGap_same {s t : State} (b : Bool) (k : Fin 7) (h : SameMetering s t) : SameMetering (bookGap b k s) (bookGap b k t) := by
  obtain ⟨mtu, fine⟩ := h
  have point : pointOf t k = pointOf s k := by rw [pointOf, mtu, pointOf]
  have time : timeBase t = timeBase s := by rw [timeBase, fine, timeBase]
  unfold bookGap
  rw [point]
  split
  · exact ⟨mtu, fine⟩
  · unfold setMeterFlags alterPoint
    rw [time]
    cases b
    · simp only [Bool.false_eq_true, if_false, State.withMtu_mtu, mtu]
      exact ⟨rfl, fine⟩
    · simp only [if_true, State.withMtu_mtu, mtu]
      exact ⟨rfl, fine⟩

/-- The merge once the gaps are booked. -/
def mergedUnclocked (booked : State) : State :=
  setMeterFlags true { MeterFlags.clear with restart := true } (booked.withMtu { booked.mtu with
    points := tab fun k => (nth booked.mtu.points k).eachDirection k fun d =>
      { d.book true d.unclocked with unclocked := 0 }
    flags := (booked.mtu.flags.merge booked.mtu.unclockedFlags)
    unclockedFlags := MeterFlags.clear })

theorem mergeUnclocked_eq (s : State) : mergeUnclocked s = mergedUnclocked (overFin 7 (fun k s => bookGap false k s) s) := rfl

theorem mergedUnclocked_mtu (s : State) :
    (mergedUnclocked s).mtu = { s.mtu with
      points := (mergedUnclocked s).mtu.points, flags := (mergedUnclocked s).mtu.flags, unclockedFlags := MeterFlags.clear } := by
  simp only [mergedUnclocked, setMeterFlags, if_true, State.withMtu_mtu]

/-- The merged metering depends on the metering and the time alone. -/
theorem mergeUnclocked_mtu_congr {s t : State} (h : SameMetering s t) : (mergeUnclocked t).mtu = (mergeUnclocked s).mtu := by
  have booked := overFin_relates SameMetering (fun k s => bookGap false k s) (fun k _ _ h => bookGap_same false k h) h
  rw [mergeUnclocked_eq, mergeUnclocked_eq]
  generalize overFin 7 (fun k s => bookGap false k s) s = u at booked
  generalize overFin 7 (fun k s => bookGap false k s) t = v at booked
  obtain ⟨mtu, -⟩ := booked
  simp only [mergedUnclocked, setMeterFlags, if_true, State.withMtu_mtu, mtu]

theorem mergeUnclocked_mtu (s : State) :
    (mergeUnclocked s).mtu = { s.mtu with
      points := (mergeUnclocked s).mtu.points, flags := (mergeUnclocked s).mtu.flags, unclockedFlags := MeterFlags.clear } := by
  have booked := bookGaps_mtu false s
  rw [mergeUnclocked_eq]
  generalize overFin 7 (fun k s => bookGap false k s) s = u at booked
  obtain ⟨_, _, _, hu⟩ := booked
  rw [mergedUnclocked_mtu, hu]

/-! ### The firm of an hour that nobody requested -/

theorem firm_act (p : Fin 72) (s : State) : (firm p s).act = s.act := (firm_changes p s .act (by decide)).symm

/-- An hour of a run is firmed as it stood before the run, with the accounts as they stood. -/
theorem hourOf_firmRun {start count : Nat} {s : State} {q : Fin 72} (h1 : start ≤ q.val) (h2 : q.val < start + count) :
    ∃ s', s'.act = s.act ∧ hourOf s' q = hourOf s q ∧ hourOf (firmRun start count s) q = hourOf (firm q s') q := by
  induction count generalizing start s with
  | zero => omega
  | succ count ih =>
    rw [firmRun, index?_of_lt (by omega : start < 72)]
    have rest := firmRun_hoursFirmed (start + 1) count (firm ⟨start, by omega⟩ s)
    by_cases hq : q.val = start
    · subst hq
      exact ⟨s, rfl, rfl, rest.stands q (firmed_firm q s)⟩
    · obtain ⟨s', act, hour, fired⟩ := ih (start := start + 1) (s := firm ⟨start, by omega⟩ s) (by omega) (by omega)
      refine ⟨s', act.trans (firm_act _ s), hour.trans (hourOf_firm_other s fun he => hq (congrArg Fin.val he)), fired⟩

theorem rightsQuantity_zero (s : State) (a : Fin 16) : rightsQuantity s a 0 = 0 := by
  unfold rightsQuantity
  split <;> rfl

/-- Without a request an hour is firmed with confirmations of 0 (R164). -/
theorem entryOf_firm_unrequested {q : Fin 72} {s : State} (hf : (hourOf s q).site.firmed = false)
    (hr : ∀ a, (entryOf s q a).requested = none) (a : Fin 16) :
    entryOf (firm q s) q a
      = if (accountOf s a).held then { entryOf s q a with confirmed := some 0, reduced := false, curtailed := false }
        else entryOf s q a := by
  have none (b : Fin 16) : nth (tab fun a => rightsQuantity s a (requestedOf s q a)) b = 0 := by
    rw [nth_tab, requestedOf, hr b]
    exact rightsQuantity_zero s b
  have request : (nth (hourOf s q).entries a).requested = Option.none := hr a
  rw [entryOf, firm_of_unfirmed hf, hourOf_setEventCom, hourOf_alterHour_same]
  simp only [firmedCell, curtail_of_zero none]
  simp only [nth_tab] at none
  simp only [nth_tab, none, lowered_self, request]
  simp [entryOf, request]

end Sys2Proof.Machine

/-! SUPPORT. The set hour of a SET-CLOCK from the level books to its start (R10). -/

namespace Sys2Proof.Machine

open Sys2Proof.Safety

theorem startHour_conditions (p : Fin 72) (s : State) {n : Fin 56} (hcv : n ≠ condCv) (ho : n ≠ condOverrun) :
    conditionActive (startHour p s) n = conditionActive s n := by
  have latched : conditionActive (latchCv s) n = conditionActive s n := by
    rcases latchCv_cases s with ⟨-, h⟩ | ⟨b, -, -, h⟩ | ⟨b, -, -, h⟩ <;> rw [h, conditionActive_report, if_neg hcv] <;> rfl
  have turned := (hourTurn_turned p (hourPrepared p s)).conditions n ho
  rw [conditionActive_changeLead, latched] at turned
  exact turned

/-- An hour not yet firmed stands through the start of an hour that changes no lead. -/
theorem hourOf_startHour_unfirmed {p q : Fin 72} {s : State} (hl : s.nfu.pendingLead = none) (hf : (hourOf s q).site.firmed = false) :
    hourOf (startHour p s) q = hourOf s q := by
  have latched := (latchCv_refirmed s).stands q (refirmReaches_unfirmed hf)
  have pending : (latchCv s).nfu.pendingLead = none := by rw [(latchCv_refirmed s).pendingLead, hl]
  have turned := (hourTurn_turned p (latchCv s)).stands q (refirmReaches_unfirmed (by rw [latched, hf]))
  rw [startHour_turn, hourPrepared, changeLead_of_none pending]
  exact turned.trans latched

/-- The lead of an hour's start leaves a firmed hour as it is. -/
theorem hourOf_changeLead_firmed {p q : Fin 72} {s : State} (hf : (hourOf s q).site.firmed = true) :
    hourOf (changeLead p s) q = hourOf s q := by
  cases h : s.nfu.pendingLead with
  | none => rw [changeLead_of_none h]
  | some lead =>
    obtain ⟨_, -, run⟩ := changeLead_of_some (p := p) h
    exact run.stands q hf

/-- A firmed hour without a quantity keeps its entries through the start of an hour. -/
theorem entryOf_startHour_of_zero {p q : Fin 72} {s : State} (hf : (hourOf s q).site.firmed = true) (hz : ∀ a, confirmedOf s q a = 0)
    (a : Fin 16) : entryOf (startHour p s) q a = entryOf s q a := by
  have latched := (latchCv_refirmed s).zeros q hz
  have led (b : Fin 16) : entryOf (hourPrepared p s) q b = entryOf s q b := by
    rw [entryOf, hourOf_changeLead_firmed (by rw [(latchCv_refirmed s).firmed, hf]), ← entryOf, latched b]
  have turned := (hourTurn_turned p (hourPrepared p s)).zeros q fun b => by
    rw [confirmedOf, led b]
    exact hz b
  exact (turned a).trans (led a)

section
variable (day seconds : Nat) (u : State)

/-- The clock as a SET-CLOCK sets it, before the report of condition 54. -/
abbrev clockSetTo : State := u.withClock { u.clock with state := .running, day := day, seconds := seconds, tenths := 0 }

theorem runClock_refirmed : Refirmed (clockSetTo day seconds u) (runClock day seconds u) := report_refirmed _ _ _

/-- The set hour with its overdue firms fired (R10 step 2). -/
abbrev overdueFired : State :=
  firmRun (todayPosition (seconds / 3600)).val
    (overdueCount (runClock day seconds u) (runClock day seconds u).nfu.lead + 1) (runClock day seconds u)

theorem completeSet_eq :
    completeSet day seconds u = startHour (todayPosition (seconds / 3600)) (mergeUnclocked (overdueFired day seconds u)) := rfl

theorem overdueFired_changes : ChangesOnly [.clock, .cdt, .nfu] u (overdueFired day seconds u) :=
  (runClock_changes day seconds u).trans ((firmRun_changes _ _ _).mono (by decide))

theorem overdueFired_clock :
    (overdueFired day seconds u).clock = { u.clock with state := .running, day := day, seconds := seconds, tenths := 0 } :=
  (clock_of_changes (firmRun_changes _ _ _) (by decide)).trans (runClock_clock day seconds u)

theorem completeSet_act : (completeSet day seconds u).act = u.act := by
  rw [completeSet_eq, startHour_act, ← mergeUnclocked_changes _ .act (by decide), ← overdueFired_changes day seconds u .act (by decide)]

theorem completeSet_cau : (completeSet day seconds u).cau = u.cau := by
  rw [completeSet_eq, startHour_cau, cau_of_changes (mergeUnclocked_changes _) (by decide),
    cau_of_changes (overdueFired_changes day seconds u) (by decide)]

theorem completeSet_clock :
    (completeSet day seconds u).clock
      = { u.clock with state := .running, day := day, seconds := seconds, tenths := 0, trimmed := false } := by
  rw [completeSet_eq, startHour_clock, clock_of_changes (mergeUnclocked_changes _) (by decide), overdueFired_clock]

theorem mergeUnclocked_kept (v : State) : HoursKept v (mergeUnclocked v) := by
  have nfu : (mergeUnclocked v).nfu = v.nfu := (mergeUnclocked_changes v .nfu (by decide)).symm
  have cdt : (mergeUnclocked v).cdt = v.cdt := (mergeUnclocked_changes v .cdt (by decide)).symm
  exact .of_eq (by rw [nfu]) (by rw [nfu]) (by rw [cdt]) (by rw [cdt])

theorem completeSet_kept : HoursKept u (completeSet day seconds u) := by
  have set : HoursKept u (clockSetTo day seconds u) := .of_eq rfl rfl rfl rfl
  have told : HoursKept u (runClock day seconds u) := set.trans (runClock_refirmed day seconds u).kept
  have fired : HoursKept u (overdueFired day seconds u) := told.trans (firmRun_hoursFirmed _ _ _).kept
  rw [completeSet_eq]
  exact (fired.trans (mergeUnclocked_kept _)).trans (startHour_kept _ _)

theorem hourOf_mergeUnclocked (v : State) (q : Fin 72) : hourOf (mergeUnclocked v) q = hourOf v q := by
  rw [hourOf, ← mergeUnclocked_changes v .nfu (by decide), hourOf]

theorem completeSet_condition : conditionActive (completeSet day seconds u) condClockUnset = false := by
  have told : conditionActive (runClock day seconds u) condClockUnset = false := by
    rw [runClock, conditionActive_report, if_pos rfl]
  rw [completeSet_eq, startHour_conditions _ _ (by decide) (by decide), conditionActive, ← mergeUnclocked_changes _ .cdt (by decide),
    ← conditionActive, (firmRun_hoursFirmed _ _ _).conditions, told]

end

section
variable {day seconds : Nat} {s u : State} (hlevel : BooksLevel ⟨day, seconds / 3600⟩ s u) (hr : hourInRange ⟨day, seconds / 3600⟩)
include hlevel hr

theorem openHour_of_set {v : State} (hc : v.clock.state = .running) (hl : v.clock.lastClosed = u.clock.lastClosed) :
    openHour v = some ⟨day, seconds / 3600⟩ := by
  have running : clockRunning v = true := by simp [clockRunning, hc]
  rw [openHour_of_lastClosed running (hl.trans hlevel.lastClosed), next_previous hr]

theorem openPosition_of_set {v : State} (hc : v.clock.state = .running) (hl : v.clock.lastClosed = u.clock.lastClosed) :
    openPosition v = some (todayPosition (seconds / 3600)) := by
  rw [openPosition, openHour_of_set hlevel hr hc hl, Option.map_some]

/-- The set time stands in the open hour: the firm point of that hour alone can have been reached. -/
theorem firmPointReached_of_set : firmPointReached (runClock day seconds u) = decide (1800 ≤ seconds % 3600) := by
  have clock := runClock_clock day seconds u
  have opened : openHour (runClock day seconds u) = some ⟨day, seconds / 3600⟩ :=
    openHour_of_set hlevel hr (by rw [clock]) (by rw [clock])
  have here : clockHour (runClock day seconds u) = ⟨day, seconds / 3600⟩ := by
    unfold clockHour
    rw [clock]
  have due : boundaryDue (runClock day seconds u) = false := by
    simp only [boundaryDue, opened, here, forwardDistance_self]
    rfl
  rw [firmPointReached, due, clock, Bool.false_or]

/-- The hours that a set fires: as many as the lead, and one more once the set hour's firm point is reached. -/
theorem overdueCount_of_set :
    overdueCount (runClock day seconds u) (runClock day seconds u).nfu.lead
      = if 1800 ≤ seconds % 3600 then s.nfu.lead else s.nfu.lead - 1 := by
  rw [overdueCount, firmPointReached_of_set hlevel hr, (runClock_refirmed day seconds u).lead]
  simp only [State.withClock_nfu, hlevel.lead, decide_eq_true_eq]

theorem completeSet_firmed {q : Fin 72} (h1 : todayPosition (seconds / 3600) ≤ q)
    (h2 : q.val < (todayPosition (seconds / 3600)).val + s.nfu.lead + if 1800 ≤ seconds % 3600 then 1 else 0) :
    (hourOf (completeSet day seconds u) q).site.firmed = true := by
  have fired : (hourOf (overdueFired day seconds u) q).site.firmed = true := by
    refine (firmRun_hoursFirmed _ _ _).firmed q h1 ?_
    rw [overdueCount_of_set hlevel hr]
    split at h2 <;> rename_i hp <;> simp only [hp, if_true, if_false] <;> omega
  rw [completeSet_eq]
  exact (startHour_kept _ _).firmed q (by rw [hourOf_mergeUnclocked, fired])

theorem openPosition_overdueFired : openPosition (overdueFired day seconds u) = some (todayPosition (seconds / 3600)) := by
  have clock := overdueFired_clock day seconds u
  exact openPosition_of_set hlevel hr (by rw [clock]) (by rw [clock])

theorem openPosition_mergeUnclocked :
    openPosition (mergeUnclocked (overdueFired day seconds u)) = some (todayPosition (seconds / 3600)) := by
  rw [openPosition_congr (clock_of_changes (mergeUnclocked_changes _) (by decide)), openPosition_overdueFired hlevel hr]

/-- The hours before the set one stand. -/
theorem hourOf_completeSet_before {q : Fin 72} (hq : q < todayPosition (seconds / 3600)) :
    hourOf (completeSet day seconds u) q = hourOf u q := by
  have opened : openPosition (clockSetTo day seconds u) = some (todayPosition (seconds / 3600)) :=
    openPosition_of_set hlevel hr rfl rfl
  have told := (runClock_refirmed day seconds u).stands q (refirmReaches_started opened hq.le)
  have fired : hourOf (overdueFired day seconds u) q = hourOf (runClock day seconds u) q :=
    (firmRun_hoursFirmed _ _ _).outside q (.inl hq)
  rw [completeSet_eq, hourOf_startHour (openPosition_mergeUnclocked hlevel hr) hq.le, hourOf_mergeUnclocked, fired, told]
  rfl

/-- An unfirmed hour past the overdue ones stands while no lead is pending. -/
theorem hourOf_completeSet_after {q : Fin 72} (hlead : 1 ≤ s.nfu.lead) (hpending : s.nfu.pendingLead = none)
    (hq : (todayPosition (seconds / 3600)).val + s.nfu.lead + (if 1800 ≤ seconds % 3600 then 1 else 0) ≤ q.val)
    (hf : (hourOf u q).site.firmed = false) : hourOf (completeSet day seconds u) q = hourOf u q := by
  have told : hourOf (runClock day seconds u) q = hourOf u q :=
    (runClock_refirmed day seconds u).stands q (refirmReaches_unfirmed hf)
  have run := firmRun_hoursFirmed (todayPosition (seconds / 3600)).val
    (overdueCount (runClock day seconds u) (runClock day seconds u).nfu.lead + 1) (runClock day seconds u)
  have fired : hourOf (overdueFired day seconds u) q = hourOf u q := by
    refine (run.outside q (.inr ?_)).trans told
    rw [overdueCount_of_set hlevel hr]
    split at hq <;> rename_i hp <;> simp only [hp, if_true, if_false] <;> omega
  have pending : (mergeUnclocked (overdueFired day seconds u)).nfu.pendingLead = none := by
    rw [← mergeUnclocked_changes _ .nfu (by decide), run.nfu, (runClock_refirmed day seconds u).nfu]
    exact hlevel.pendingLead.trans hpending
  rw [completeSet_eq, hourOf_startHour_unfirmed pending (by rw [hourOf_mergeUnclocked, fired, hf]), hourOf_mergeUnclocked, fired]

theorem completeSet_startsFrom :
    StartsFrom (todayPosition (seconds / 3600)) s (mergeUnclocked (overdueFired day seconds u)) := by
  have changes : ChangesOnly [.clock, .mtu, .cdt, .dir, .act, .nfu, .cau] s (mergeUnclocked (overdueFired day seconds u)) :=
    ((hlevel.changes.mono (by decide)).trans ((overdueFired_changes day seconds u).mono (by decide))).trans
      ((mergeUnclocked_changes _).mono (by decide))
  have dsq : (mergeUnclocked (overdueFired day seconds u)).dsq = s.dsq := (changes .dsq (by decide)).symm
  have dir : (mergeUnclocked (overdueFired day seconds u)).dir = u.dir := by
    rw [← mergeUnclocked_changes _ .dir (by decide), ← overdueFired_changes day seconds u .dir (by decide)]
  have leads : (mergeUnclocked (overdueFired day seconds u)).nfu
      = { u.nfu with hours := (mergeUnclocked (overdueFired day seconds u)).nfu.hours } := by
    rw [← mergeUnclocked_changes _ .nfu (by decide), (firmRun_hoursFirmed _ _ _).nfu, (runClock_refirmed day seconds u).nfu]
    rfl
  have mtu : (mergeUnclocked (overdueFired day seconds u)).mtu
      = { s.mtu with points := (mergeUnclocked (overdueFired day seconds u)).mtu.points
                     flags := (mergeUnclocked (overdueFired day seconds u)).mtu.flags, unclockedFlags := MeterFlags.clear } := by
    have before : (overdueFired day seconds u).mtu = s.mtu := by
      rw [← overdueFired_changes day seconds u .mtu (by decide), ← hlevel.changes .mtu (by decide)]
    rw [mergeUnclocked_mtu, before]
  obtain ⟨c, hc⟩ := hlevel.dir
  refine ⟨openPosition_mergeUnclocked hlevel hr, (changes .fine (by decide)).symm, (changes .fsu (by decide)).symm,
    (changes .cpd (by decide)).symm, by rw [dir, hc], by rw [dir, hc], by rw [leads]; exact hlevel.lead,
    by rw [leads]; exact hlevel.pendingLead, by rw [mtu], by rw [mtu], by rw [mtu], by rw [dsq], fun d => ?_⟩
  rw [trainOf, dsq, ← trainOf]

omit hr in
theorem mergeUnclocked_of_set : (mergeUnclocked (overdueFired day seconds u)).mtu = (mergeUnclocked s).mtu := by
  refine mergeUnclocked_mtu_congr ⟨?_, ?_⟩
  · rw [← overdueFired_changes day seconds u .mtu (by decide), ← hlevel.changes .mtu (by decide)]
  · rw [← overdueFired_changes day seconds u .fine (by decide), ← hlevel.changes .fine (by decide)]

/-- The metering of the set hour: the unclocked measurement merged, the CV latched. -/
theorem completeSet_mtu :
    (completeSet day seconds u).mtu = { s.mtu with
      points := (mergeUnclocked s).mtu.points, unclockedFlags := MeterFlags.clear
      latchedCv := (completeSet day seconds u).mtu.latchedCv, startTime := some (timeBase s)
      flags := { (mergeUnclocked s).mtu.flags with
        cvHeld := (mergeUnclocked s).mtu.flags.cvHeld || conditionActive (completeSet day seconds u) condCv } } := by
  have fine : timeBase (mergeUnclocked (overdueFired day seconds u)) = timeBase s := by
    rw [timeBase, (completeSet_startsFrom hlevel hr).fine, timeBase]
  have mtu := startHour_mtu (todayPosition (seconds / 3600)) (mergeUnclocked (overdueFired day seconds u))
  rw [← completeSet_eq, mergeUnclocked_of_set hlevel, fine, mergeUnclocked_mtu s] at mtu
  rw [mtu]

theorem completeSet_points : (completeSet day seconds u).mtu.points = (mergeUnclocked s).mtu.points := by
  rw [completeSet_mtu hlevel hr]

omit hr in
theorem completeSet_offSpecTenths (d : Fin 2) : (trainOf (completeSet day seconds u) d).offSpecTenths = (trainOf s d).offSpecTenths := by
  rw [completeSet_eq, startHour_offSpecTenths, trainOf, ← mergeUnclocked_changes _ .dsq (by decide),
    ← overdueFired_changes day seconds u .dsq (by decide), ← hlevel.changes .dsq (by decide), trainOf]

/-- A cleared hour among the overdue ones is firmed without a request, and a re-firm leaves its confirmations of 0. -/
theorem entryOf_completeSet_of_clear {q : Fin 72} (hclear : hourOf u q = HourCell.clear) (h1 : todayPosition (seconds / 3600) ≤ q)
    (h2 : q.val < (todayPosition (seconds / 3600)).val + s.nfu.lead + if 1800 ≤ seconds % 3600 then 1 else 0) (a : Fin 16) :
    entryOf (completeSet day seconds u) q a
      = if (accountOf u a).held then { HourEntry.clear with confirmed := some 0 } else HourEntry.clear := by
  have unfirmed : (hourOf u q).site.firmed = false := by rw [hclear]; rfl
  have told : hourOf (runClock day seconds u) q = HourCell.clear :=
    ((runClock_refirmed day seconds u).stands q (refirmReaches_unfirmed unfirmed)).trans hclear
  have act : (runClock day seconds u).act = u.act := (runClock_changes day seconds u .act (by decide)).symm
  have last : q.val < (todayPosition (seconds / 3600)).val
      + (overdueCount (runClock day seconds u) (runClock day seconds u).nfu.lead + 1) := by
    rw [overdueCount_of_set hlevel hr]
    split at h2 <;> rename_i hp <;> simp only [hp, if_true, if_false] <;> omega
  obtain ⟨s', act', hour', fired⟩ := hourOf_firmRun h1 last
  have clear : hourOf s' q = HourCell.clear := hour'.trans told
  have entry (b : Fin 16) : entryOf s' q b = HourEntry.clear := by
    rw [entryOf, clear]
    exact nth_fill _ b
  have fires (b : Fin 16) : entryOf (mergeUnclocked (overdueFired day seconds u)) q b
      = if (accountOf u b).held then { HourEntry.clear with confirmed := some 0 } else HourEntry.clear := by
    rw [entryOf, hourOf_mergeUnclocked, fired, ← entryOf,
      entryOf_firm_unrequested (by rw [clear]; rfl) (fun c => by rw [entry c]; rfl), entry b, accountOf, act', act]
    rfl
  rw [completeSet_eq, entryOf_startHour_of_zero, fires a]
  · rw [hourOf_mergeUnclocked, fired, firmed_firm]
  · intro b
    rw [confirmedOf, fires b]
    split <;> rfl

end

end Sys2Proof.Machine

/-! SUPPORT. The request SET-CLOCK and its statement (R7 to R10). -/

namespace Sys2Proof.Machine

open Sys2Proof.Safety

/-! ### The checks (R7) -/

/-- The hour that a SET-CLOCK sets. -/
abbrev setHour (fields : List Byte) : HourId := ⟨num fields 0 2, num fields 2 4 / 3600⟩

theorem setHour_inRange {fields : List Byte} (h : num fields 2 4 ≤ 86399) : hourInRange (setHour fields) :=
  ⟨num_lt fields 0 2, show num fields 2 4 / 3600 < 24 by omega⟩

section
variable {fields : List Byte} {abandon : Bool} {s : State}

theorem exec_setClock_refused {status : Status} (h : heldInReset s = false) (hf : fits 0x10 fields = true)
    (hr : setClock fields s = .refuse status) : exec (.setClock .ops fields) s = .next (answered .ops 9 status [0x10] s) := by
  have served := serve_refused (owner := some .ops) (p := .ops) h hf rfl hr
  rw [length_of_fits hf rfl] at served
  exact served

theorem exec_setClock_taken {after : State} {missed : Nat} {abandoned : Bool} (h : heldInReset s = false) (hf : fits 0x10 fields = true)
    (hr : setClock fields s = .taken after (ubytes 1 missed ++ markByte abandoned)) :
    exec (.setClock .ops fields) s
      = .next (answered .ops (fields.length + 2) .ok [0x10, BitVec.ofNat 8 missed, if abandoned then 1 else 0] after) :=
  serve_taken (owner := some .ops) (p := .ops) h hf rfl hr

variable (hm : mark fields 6 = some abandon)
include hm

theorem setClock_running (hr : clockRunning s = true) : setClock fields s = .refuse .state := by
  simp only [setClock, hm, hr, if_true]

theorem setClock_range (hr : clockRunning s = false) (h : 86399 < num fields 2 4) : setClock fields s = .refuse .range := by
  simp only [setClock, hm, hr, h, Bool.false_eq_true, if_false, if_true]

section
variable (hr : clockRunning s = false) (hx : num fields 2 4 ≤ 86399)
include hr hx

theorem setClock_admitted :
    setClock fields s
      = if setTimeRefused s (setHour fields) abandon then .refuse .range
        else .taken (completeSet (num fields 0 2) (num fields 2 4) (levelBooks (setHour fields) abandon s))
          (ubytes 1 (if setAbandons s (setHour fields) abandon then 0 else missedHours s (setHour fields))
            ++ markByte (setAbandons s (setHour fields) abandon)) := by
  simp only [setClock, hm, hr, Nat.not_lt.mpr hx, Bool.false_eq_true, if_false]

theorem setClock_first (hl : s.clock.lastClosed = none) :
    setClock fields s
      = .taken (completeSet (num fields 0 2) (num fields 2 4) (firstSet (setHour fields) s)) (ubytes 1 0 ++ markByte false) := by
  rw [setClock_admitted hm hr hx]
  simp only [setTimeRefused, setAbandons, missedHours, setDistance, levelBooks, hl, Option.map_none, Bool.false_eq_true, if_false]

variable {h : HourId} (hl : s.clock.lastClosed = some h)
include hl

theorem setClock_refused (hd : forwardDistance h (setHour fields) = 0 ∨ 786432 < forwardDistance h (setHour fields)
    ∨ (49 ≤ forwardDistance h (setHour fields) ∧ abandon = false)) : setClock fields s = .refuse .range := by
  have refused : setTimeRefused s (setHour fields) abandon = true := by
    simp only [setTimeRefused, setDistance, hl, Option.map_some, Config.halfSpan]
    rcases hd with hd | hd | ⟨hd, ha⟩
    · simp [hd]
    · simp [hd]
    · simp [hd, ha]
  rw [setClock_admitted hm hr hx, if_pos refused]

theorem setClock_missed {n : Nat} (hd : forwardDistance h (setHour fields) = n + 1) (hn : n < 48) :
    setClock fields s
      = .taken (completeSet (num fields 0 2) (num fields 2 4) (closeMissedHours n h.next s)) (ubytes 1 n ++ markByte false) := by
  have far : ¬49 ≤ n + 1 := by omega
  have span : ¬786432 < n + 1 := by omega
  rw [setClock_admitted hm hr hx]
  simp only [setTimeRefused, setAbandons, missedHours, setDistance, levelBooks, hl, Option.map_some, hd, Config.halfSpan, far, span,
    Nat.succ_ne_zero, decide_false, Bool.false_and, Bool.or_self, Bool.false_eq_true, if_false, Nat.add_sub_cancel]

theorem setClock_abandon (hlow : 49 ≤ forwardDistance h (setHour fields)) (hhigh : forwardDistance h (setHour fields) ≤ 786432)
    (ha : abandon = true) :
    setClock fields s
      = .taken (completeSet (num fields 0 2) (num fields 2 4) (abandonHours (setHour fields) s)) (ubytes 1 0 ++ markByte true) := by
  have zero : ¬forwardDistance h (setHour fields) = 0 := by omega
  have span : ¬786432 < forwardDistance h (setHour fields) := by omega
  rw [setClock_admitted hm hr hx]
  simp only [setTimeRefused, setAbandons, levelBooks, setDistance, hl, Option.map_some, ha, Config.halfSpan, hlow, zero, span, decide_true,
    decide_false, Bool.and_true, Bool.not_true, Bool.and_false, Bool.or_self, Bool.false_eq_true, if_false, if_true]

end

end

/-! ### What every kind of set leaves (R10) -/

section
variable {fields : List Byte} {s u : State} (hlevel : BooksLevel (setHour fields) s u) (hx : num fields 2 4 ≤ 86399)

/-- The response of a set fills the buffer of Operations, which no part of the set has touched. -/
theorem clockSet_answered {t : State} (missed : Nat) (abandoned : Bool)
    (changes : ChangesOnly [.clock, .mtu, .cdt, .dir, .cpd, .dsq, .act, .nfu, .cau] s t)
    (clock : t.clock = ⟨.running, num fields 0 2, num fields 2 4, 0, some (setHour fields).previous, false⟩)
    (unset : conditionActive t condClockUnset = false)
    (firmed : ∀ q : Fin 72, setPosition fields ≤ q → q.val < overdueEnd fields s → (hourOf t q).site.firmed = true)
    (points : t.mtu.points = (mergeUnclocked s).mtu.points)
    (mtu : t.mtu = { s.mtu with
      points := t.mtu.points, unclockedFlags := MeterFlags.clear
      latchedCv := t.mtu.latchedCv, startTime := some (timeBase s)
      flags := { (mergeUnclocked s).mtu.flags with cvHeld := (mergeUnclocked s).mtu.flags.cvHeld || conditionActive t condCv } })
    (started : hourStarted (setPosition fields) s t) (tenths : ∀ d, (trainOf t d).offSpecTenths = (trainOf s d).offSpecTenths) :
    clockSet fields missed abandoned s
      (answered .ops (fields.length + 2) .ok [0x10, BitVec.ofNat 8 missed, if abandoned then 1 else 0] t) := by
  have pif : t.pif = s.pif := (changes .pif (by decide)).symm
  refine ⟨clock, unset, firmed, fun k => ?_, mtu, started, tenths, ?_, (changes .fine (by decide)).symm, (changes .fsu (by decide)).symm,
    (changes .freeReads (by decide)).symm, (changes .pending (by decide)).symm⟩
  · show nth t.mtu.points k = nth (mergeUnclocked s).mtu.points k
    rw [points]
  · unfold answered alterPort
    rw [State.withPif_pif, State.withPif_pif, pif]

include hlevel

theorem completeSetOf_changes :
    ChangesOnly [.clock, .mtu, .cdt, .dir, .cpd, .dsq, .act, .nfu, .cau] s (completeSet (num fields 0 2) (num fields 2 4) u) := by
  rw [completeSet_eq]
  exact (((hlevel.changes.mono (by decide)).trans ((overdueFired_changes _ _ u).mono (by decide))).trans
    ((mergeUnclocked_changes _).mono (by decide))).trans (startHour_changes _ _)

include hx

theorem completeSetOf_firmed {q : Fin 72} (h1 : setPosition fields ≤ q) (h2 : q.val < overdueEnd fields s) :
    (hourOf (completeSet (num fields 0 2) (num fields 2 4) u) q).site.firmed = true := by
  rw [setPosition] at h1
  rw [overdueEnd, setPosition] at h2
  exact completeSet_firmed (seconds := num fields 2 4) hlevel (setHour_inRange hx) h1 h2

theorem hourOf_completeSetOf_before {q : Fin 72} (hq : q < setPosition fields) :
    hourOf (completeSet (num fields 0 2) (num fields 2 4) u) q = hourOf u q := by
  rw [setPosition] at hq
  exact hourOf_completeSet_before (seconds := num fields 2 4) hlevel (setHour_inRange hx) hq

theorem hourOf_completeSetOf_after {q : Fin 72} (hlead : 1 ≤ s.nfu.lead) (hpending : s.nfu.pendingLead = none)
    (hq : overdueEnd fields s ≤ q.val)
    (hf : (hourOf u q).site.firmed = false) : hourOf (completeSet (num fields 0 2) (num fields 2 4) u) q = hourOf u q := by
  rw [overdueEnd, setPosition] at hq
  exact hourOf_completeSet_after (seconds := num fields 2 4) hlevel (setHour_inRange hx) hlead hpending hq hf

theorem clockSet_of_level (missed : Nat) (abandoned : Bool) :
    clockSet fields missed abandoned s
      (answered .ops (fields.length + 2) .ok [0x10, BitVec.ofNat 8 missed, if abandoned then 1 else 0]
        (completeSet (num fields 0 2) (num fields 2 4) u)) := by
  have hr := setHour_inRange hx
  have starts := completeSet_startsFrom (seconds := num fields 2 4) hlevel hr
  have points := completeSet_points (seconds := num fields 2 4) hlevel hr
  have mtu := completeSet_mtu (seconds := num fields 2 4) hlevel hr
  refine clockSet_answered missed abandoned (completeSetOf_changes hlevel) ?_ (completeSet_condition _ _ u)
    (fun q h1 h2 => completeSetOf_firmed hlevel hx h1 h2) points ?_ ?_
    (completeSet_offSpecTenths hlevel)
  · rw [completeSet_clock, ← hlevel.lastClosed]
  · rw [points]
    exact mtu
  · rw [setPosition, completeSet_eq]
    exact startHour_hourStarted starts

/-! ### What a set leaves of the hours that it does not close (R8, R9) -/

theorem hoursStand_of_level (hours : ∀ q, hourOf u q = hourOf s q) :
    hoursStand fields s (completeSet (num fields 0 2) (num fields 2 4) u) := by
  have kept := completeSet_kept (num fields 0 2) (num fields 2 4) u
  intro q
  refine ⟨by rw [kept.closed, hours], fun a => by rw [kept.requested, entryOf, hours, entryOf],
    fun hq => (hourOf_completeSetOf_before hlevel hx hq).trans (hours q), fun hlead hpending hq => ?_⟩
  rw [← hours q]
  cases hf : (hourOf u q).site.firmed with
  | true => exact kept.firmed q hf
  | false =>
    rw [hourOf_completeSetOf_after hlevel hx hlead hpending hq hf, hf]

/-! ### The hours that an abandoning set leaves (R9) -/

omit hlevel in
theorem hoursAbandoned_of_set :
    hoursAbandoned fields s (completeSet (num fields 0 2) (num fields 2 4) (abandonHours (setHour fields) s)) := by
  have level := abandonHours_level (setHour fields) s
  have kept := completeSet_kept (num fields 0 2) (num fields 2 4) (abandonHours (setHour fields) s)
  have act := completeSet_act (num fields 0 2) (num fields 2 4) (abandonHours (setHour fields) s)
  have clear (q : Fin 72) : hourOf (abandonHours (setHour fields) s) q = HourCell.clear := nth_fill _ q
  have blank (q : Fin 72) (a : Fin 16) : entryOf (abandonHours (setHour fields) s) q a = HourEntry.clear := by
    rw [entryOf, clear]
    exact nth_fill _ a
  refine ⟨fun q => ⟨?_, fun hq => ?_, fun a => ⟨?_, ?_, ?_, fun h1 h2 ha => ?_⟩⟩, ?_, ?_, ?_⟩
  · rw [kept.closed, clear]
    rfl
  · rcases hq with hq | ⟨hlead, hpending, hq⟩
    · rw [hourOf_completeSetOf_before level hx hq, clear]
    · rw [hourOf_completeSetOf_after level hx hlead hpending hq (by rw [clear]; rfl), clear]
  · rw [kept.requested, blank]
    rfl
  · rw [kept.allocated, blank]
    rfl
  · rw [kept.fuel, blank]
    rfl
  · rw [setPosition] at h1
    rw [overdueEnd, setPosition] at h2
    rw [accountOf, act] at ha
    rw [entryOf_completeSet_of_clear (seconds := num fields 2 4) level (setHour_inRange hx) (clear q) h1 h2]
    exact if_pos ha
  · exact kept.com _ (by decide) (by decide)
  · exact kept.com _ (by decide) (by decide)
  · exact kept.ops _ (by decide)

/-! ### The hours that a set closes as missed (R8, R188) -/

omit hlevel in
theorem missedHoursClosed_of_set {h : HourId} {n : Nat} (hh : hourInRange h) (hl : s.clock.lastClosed = some h)
    (hd : forwardDistance h (setHour fields) = n + 1) :
    missedHoursClosed n h fields s (completeSet (num fields 0 2) (num fields 2 4) (closeMissedHours n h.next s)) := by
  have hr := setHour_inRange hx
  have level := closeMissedHours_level hh hr hl hd
  have missed := closeMissedHours_missed n (hourInRange_next hh).2 s
  obtain ⟨u, hu⟩ : ∃ u, u = closeMissedHours n h.next s := ⟨_, rfl⟩
  have history := closeMissedHours_history n h s
  have position : (todayPosition (num fields 2 4 / 3600)).val + 24 * ((h.next.hour + n) / 24) = (todayPosition h.next.hour).val + n :=
    todayPosition_of_missed hh hr hd
  have none (h0 : n = 0) : u = s := by rw [hu, h0, closeMissedHours]
  rw [← hu] at level missed history ⊢
  have kept := completeSet_kept (num fields 0 2) (num fields 2 4) u
  have cau := completeSet_cau (num fields 0 2) (num fields 2 4) u
  have account (a : Fin 16) : accountOf (completeSet (num fields 0 2) (num fields 2 4) u) a = accountOf u a := by
    rw [accountOf, completeSet_act, accountOf]
  have row (q : Fin 72) : rowBefore u q.val = hourOf u q := rowBefore_of_lt q.isLt
  refine ⟨_, 24 * ((h.next.hour + n) / 24), rfl, position, fun hlen => ?_, by rw [cau, missed.mode], fun h0 => ⟨?_, ?_⟩, fun hn => ?_,
    fun h0 => ?_, by rw [kept.today, missed.today], fun q a ha => ?_, fun q hq hf => ?_, fun i q was hi hq hwas => ?_⟩
  · rw [cau]
    exact history hlen
  · rw [completeSet_act, none h0]
  · exact hoursStand_of_level level hx fun q => by rw [none h0]
  · obtain ⟨com, ops⟩ := missed.flags hn
    rw [kept.com _ (by decide) (by decide), kept.ops _ (by decide)]
    exact ⟨com, ops⟩
  · rw [kept.com _ (by decide) (by decide), missed.dayRolled h0]
  · rw [account] at ha
    rw [kept.requested, entryOf, ← row, missed.requested _ a ha]
  · have before : hourOf (completeSet (num fields 0 2) (num fields 2 4) u) q = hourOf u q :=
      hourOf_completeSetOf_before level hx (Fin.lt_def.mpr (by omega))
    have stands := missed.stands q.val (by rw [setPosition] at hq; omega) (.inl hf)
    rw [row] at stands
    refine ⟨by rw [before, stands.1], fun a ha => ?_⟩
    rw [account] at ha
    rw [entryOf, before, stands.2 a ha]
  · have before : hourOf (completeSet (num fields 0 2) (num fields 2 4) u) q = hourOf u q :=
      hourOf_completeSetOf_before level hx (Fin.lt_def.mpr (by omega))
    have closed := missed.missed i q.val hi (by rw [setPosition] at hq; omega)
    rw [row, ← hwas] at closed
    rw [before]
    refine ⟨closed.closed, closed.firmed, fun hw => ?_, fun hw hf a ha => ?_⟩
    · obtain ⟨injection, withdrawal, net, direction, flag⟩ := closed.zeroSite hw
      refine ⟨injection, withdrawal, net, direction, kept.marked flag, fun a ha => ?_⟩
      rw [account] at ha
      rw [entryOf, before]
      exact closed.zeroEntries hw a ha
    · rw [account] at ha
      rw [entryOf, before]
      exact closed.kept hw hf a ha

end

/-! ### The statement -/

/-- The response changes the port alone: what a set leaves of the hours is said of it too. -/
theorem hoursStand_answered {fields : List Byte} {s t : State} {b : Nat} {x : Status} {l : List Byte} (h : hoursStand fields s t) :
    hoursStand fields s (answered .ops b x l t) := h

theorem hoursAbandoned_answered {fields : List Byte} {s t : State} {b : Nat} {x : Status} {l : List Byte} (h : hoursAbandoned fields s t) :
    hoursAbandoned fields s (answered .ops b x l t) := h

theorem missedHoursClosed_answered {n : Nat} {h : HourId} {fields : List Byte} {s t : State} {b : Nat} {x : Status} {l : List Byte}
    (hs : missedHoursClosed n h fields s t) : missedHoursClosed n h fields s (answered .ops b x l t) := hs

theorem answered_act (b : Nat) (x : Status) (l : List Byte) (t : State) : (answered .ops b x l t).act = t.act := rfl
theorem answered_cau (b : Nat) (x : Status) (l : List Byte) (t : State) : (answered .ops b x l t).cau = t.cau := rfl
theorem answered_nfu (b : Nat) (x : Status) (l : List Byte) (t : State) : (answered .ops b x l t).nfu = t.nfu := rfl

/-- Settles O13: the checks in order, then for each kind of set the books it brings level and their completion. -/
theorem setClockSetsGasDayTime : Obligations.SetClockSetsGasDayTime := by
  intro fields abandon s hheld hf hm
  refine ⟨fun hr => exec_setClock_refused hheld hf (setClock_running hm hr),
    fun hr hx => exec_setClock_refused hheld hf (setClock_range hm hr hx), fun hr hx hl => ?_,
    fun h hr hx hl hh => ⟨fun hd => exec_setClock_refused hheld hf (setClock_refused hm hr hx hl hd), fun hlow hhigh => ?_,
      fun hlow hhigh ha => ?_⟩⟩
  · have level := firstSet_level (setHour fields) s
    refine ⟨_, exec_setClock_taken hheld hf (setClock_first hm hr hx hl), clockSet_of_level level hx 0 false, ?_, ?_,
      hoursStand_answered (hoursStand_of_level level hx fun q => rfl), ?_⟩
    · rw [answered_act, completeSet_act]
      rfl
    · rw [answered_cau, completeSet_cau]
      rfl
    · rw [answered_nfu, (completeSet_kept _ _ _).today]
      rfl
  · obtain ⟨n, hd⟩ : ∃ n, forwardDistance h (setHour fields) = n + 1 := ⟨_, (Nat.sub_add_cancel hlow).symm⟩
    have near : forwardDistance h (setHour fields) ≤ 48 := hhigh
    have level := closeMissedHours_level hh (setHour_inRange hx) hl hd
    rw [hd, Nat.add_sub_cancel]
    exact ⟨_, exec_setClock_taken hheld hf (setClock_missed hm hr hx hl hd (by omega)), clockSet_of_level level hx n false,
      missedHoursClosed_answered (missedHoursClosed_of_set hx hh hl hd)⟩
  · have level := abandonHours_level (setHour fields) s
    refine ⟨_, exec_setClock_taken hheld hf (setClock_abandon hm hr hx hl hlow hhigh ha), clockSet_of_level level hx 0 true, ?_, ?_,
      hoursAbandoned_answered (hoursAbandoned_of_set hx), ?_⟩
    · rw [answered_act, completeSet_act]
      rfl
    · rw [answered_cau, completeSet_cau]
      rfl
    · rw [answered_nfu, (completeSet_kept _ _ _).today]
      rfl

end Sys2Proof.Machine

/-! SUPPORT. Which blocks each command can change, in one table. -/

namespace Sys2Proof.Machine

open Sys2Proof.Safety

/-! ### What a command keeps -/

section
variable {P : State → Prop} {s t : State}

/-- What an event keeps is kept in reset too, where it is not taken (R202). -/
theorem unlessHeld_keeps {f : State → State} (hs : P s) (hf : P (f s)) (h : unlessHeld f s = .next t) : P t := by
  unfold unlessHeld at h
  split at h <;> cases h
  · exact hs
  · exact hf

theorem onlyIf_keeps {occasion : Bool} {f : State → State} (hs : P s) (hf : P (f s)) : P (onlyIf occasion f s) := by
  cases occasion
  · exact hs
  · exact hf

/-- A request keeps what its own rule keeps, if the answer at the port keeps it. -/
theorem serve_keeps {owner : Option Port} {code : Nat} {p : Port} {fields : List Byte} {own : State → Answer} (hs : P s)
    (hport : ∀ status fs u, P u → P (answered p (fields.length + 2) status fs u))
    (ho : ∀ after payload, own s = .taken after payload → P after) (h : serve owner code p fields own s = .next t) : P t := by
  rcases serve_cases owner code p fields own s with ⟨-, e⟩ | ⟨-, ⟨status, e⟩ | ⟨after, payload, ha, e⟩⟩ <;> rw [e] at h <;> cases h
  · exact hs
  · exact hport _ _ s hs
  · exact hport _ _ after (ho after payload ha)

end

/-! ### The requests and events of the clock -/

theorem closeMissedHours_changes (count : Nat) (h : HourId) (s : State) :
    ChangesOnly [.clock, .cdt, .dir, .act, .nfu, .cau] s (closeMissedHours count h s) := by
  induction count generalizing h s with
  | zero => exact .refl _ s
  | succ count ih => exact (missedHour_changes h s).trans (ih h.next _)

theorem levelBooks_changes (set : HourId) (abandon : Bool) (s : State) :
    ChangesOnly [.clock, .cdt, .dir, .act, .nfu, .cau] s (levelBooks set abandon s) := by
  unfold levelBooks
  split
  · exact (firstSet_level set s).changes
  · split
    · exact (abandonHours_level set s).changes
    · exact closeMissedHours_changes _ _ s

theorem completeSet_changes (day seconds : Nat) (s : State) : ChangesOnly hourBlocks s (completeSet day seconds s) := by
  rw [completeSet_eq]
  exact (((overdueFired_changes day seconds s).mono (by decide)).trans ((mergeUnclocked_changes _).mono (by decide))).trans
    (startHour_changes _ _)

theorem setClock_within (fields : List Byte) (s : State) : (setClock fields s).Within hourBlocks s := by
  unfold setClock
  split
  · trivial
  · exact Answer.within_guard fun _ => Answer.within_guard fun _ => Answer.within_guard fun _ =>
      ((levelBooks_changes _ _ s).mono (by decide)).trans (completeSet_changes _ _ _)

theorem moveTime_changes (t : Int) (s : State) : ChangesOnly [.clock] s (moveTime t s) := by
  unfold moveTime
  split
  · exact withClock_changes s _
  · split <;> exact withClock_changes s _

theorem trimForward_changes (t : Nat) (s : State) : ChangesOnly hourBlocks s (trimForward t s) := by
  have moved : ChangesOnly hourBlocks s (moveTime t (markTrimmed s)) :=
    ((withClock_changes s _).trans (moveTime_changes _ _)).mono (by decide)
  unfold trimForward
  dsimp only
  split
  · exact (moved.trans (hourBoundaryEvent_changes _)).trans ((withClock_changes _ _).mono (by decide))
  · split
    · exact moved.trans ((firmPointEvent_changes _).mono (by decide))
    · exact moved

theorem trimClock_within (fields : List Byte) (s : State) : (trimClock fields s).Within hourBlocks s := by
  refine Answer.within_guard fun _ => Answer.within_guard fun _ => Answer.within_ite (.refl _ s) (Answer.within_ite ?_ ?_)
  · exact Answer.within_guard fun _ => ((withClock_changes s _).trans (moveTime_changes _ _)).mono (by decide)
  · exact trimForward_changes _ s

theorem setAllocation_within (fields : List Byte) (s : State) : (setAllocation fields s).Within [.cau] s := by
  unfold setAllocation
  split
  · trivial
  · exact withCau_changes s _

/-! ### The table -/

/-- A reset: the commands that take every block to its reset values. -/
def isReset : Instr → Bool
  | .resetPart _ _ _ | .powerOn _ | .pin _ _ => true
  | _ => false

/-- The blocks that a command can change, when it is no reset. -/
def commandBlocks : Instr → List Block
  | .setClock _ _ | .trimClock _ _ => .pif :: hourBlocks
  | .setFieldLine _ _ | .writeScript _ _ => [.pif, .fsu]
  | .setSlot _ _ | .enableSlot _ _ | .disableSlot _ _ => .pif :: slotBlocks
  | .setPoint _ _ => .pif :: pointBlocks
  | .setBeta _ _ | .setCv _ _ => [.pif, .mtu]
  | .ackConditions _ _ => [.pif, .cdt, .nfu]
  | .setDerateTable _ _ | .setAlert _ _ | .readEvents _ _ => [.pif, .cdt]
  | .setCavern _ _ => [.pif, .cdt, .dir, .nfu, .freeReads]
  | .setCavernInventory _ _ => [.pif, .dir]
  | .setSite _ _ | .setDuty _ _ | .setUnit _ _ | .resetUnit _ _ => .pif :: directionBlocks
  | .writeStep _ _ | .selectBank _ _ => [.pif, .dsq]
  | .setTrain _ _ | .resetTrain _ _ => .pif :: trainBlocks
  | .openAccount _ _ | .setRights _ _ | .closeAccount _ _ | .transfer _ _ | .settleSuspense _ _ => [.pif, .act]
  | .nominate _ _ | .nominateDay _ _ | .nominateRest _ _ | .cancelNomination _ _ | .setLead _ _ | .setRatchet _ _ => [.pif, .nfu]
  | .setAllocation _ _ => [.pif, .cau]
  | .read _ _ => [.pif, .freeReads]
  | .unknownRequest _ _ _ _ | .ignoredTransaction _ _ _ | .collect _ _ | .heldInReset _ => [.pif]
  | .timeBaseStep => [.fine, .clock, .cpd, .dsq]
  | .hourBoundary => hourBlocks
  | .firmPoint => [.cdt, .nfu]
  | .lineEngineTake | .requestTransmitted => [.fsu]
  | .dataReply _ | .doneReply _ | .errorReply _ | .badReplyFrame _ | .replyWindowExpiry => slotBlocks
  | .changeoverMinimumExpiry | .changeoverLimitExpiry | .feedbackChange _ _ | .startTimeout _ | .stopTimeout _ | .cooldownExpiry _
  | .startListExpiry _ => directionBlocks
  | .positionInputChange _ _ _ | .stepTimeExpiry _ => [.dsq]
  | .dwellExpiry _ | .inputTimeout _ | .strokeTimeout _ => [.cdt, .dsq, .nfu]
  | .resetPart _ _ _ | .powerOn _ | .pin _ _ => []

theorem exec_changes {c : Instr} {s t : State} (hc : isReset c = false) (h : exec c s = .next t) : ChangesOnly (commandBlocks c) s t := by
  cases c with
  | resetPart | powerOn | pin => cases hc
  | setClock => exact serve_changes (setClock_within _ s) h
  | trimClock => exact serve_changes (trimClock_within _ s) h
  | setFieldLine => exact serve_changes (setFieldLine_within _ s) h
  | setSlot => exact serve_changes (setSlot_within _ s) h
  | enableSlot => exact serve_changes (enableSlot_within _ s) h
  | disableSlot => exact serve_changes (disableSlot_within _ s) h
  | writeScript => exact serve_changes (writeScript_within _ s) h
  | setPoint => exact serve_changes (setPoint_within _ s) h
  | setBeta => exact serve_changes (setBeta_within _ s) h
  | setCv => exact serve_changes (setCv_within _ s) h
  | ackConditions => exact serve_changes (ackConditions_within _ _ s) h
  | setDerateTable => exact serve_changes (setDerateTable_within _ s) h
  | setAlert => exact serve_changes (setAlert_within _ _ s) h
  | readEvents => exact serve_changes (readEvents_within _ s) h
  | setCavern => exact serve_changes (setCavern_within _ s) h
  | setCavernInventory => exact serve_changes (setCavernInventory_within _ s) h
  | setSite => exact serve_changes (setSite_within _ s) h
  | setDuty => exact serve_changes (setDuty_within _ s) h
  | setUnit => exact serve_changes (setUnit_within _ s) h
  | resetUnit => exact serve_changes (resetUnit_within _ s) h
  | writeStep => exact serve_changes (writeStep_within _ s) h
  | selectBank => exact serve_changes (selectBank_within _ s) h
  | setTrain => exact serve_changes (setTrain_within _ s) h
  | resetTrain => exact serve_changes (resetTrain_within _ s) h
  | openAccount => exact serve_changes (openAccount_within _ s) h
  | setRights => exact serve_changes (setRights_within _ s) h
  | closeAccount => exact serve_changes (closeAccount_within _ s) h
  | transfer => exact serve_changes (transfer_within _ s) h
  | settleSuspense => exact serve_changes (settleSuspense_within _ s) h
  | nominate => exact serve_changes (nominate_within _ s) h
  | nominateDay => exact serve_changes (nominateDay_within _ s) h
  | nominateRest => exact serve_changes (nominateRest_within _ s) h
  | cancelNomination => exact serve_changes (cancelNomination_within _ s) h
  | setLead => exact serve_changes (setLead_within _ s) h
  | setRatchet => exact serve_changes (setRatchet_within _ s) h
  | setAllocation => exact serve_changes (setAllocation_within _ s) h
  | read => exact execRead_changes h
  | unknownRequest => exact execUnknownRequest_changes h
  | ignoredTransaction => exact execIgnoredTransaction_changes h
  | collect => exact execCollect_changes h
  | heldInReset => cases h; exact hold_changes _ s
  | timeBaseStep => exact unlessHeld_changes (stepTimeBase_changes s) h
  | hourBoundary => exact unlessHeld_changes (onlyIf_changes (hourBoundaryEvent_changes s)) h
  | firmPoint => exact unlessHeld_changes (onlyIf_changes (firmPointEvent_changes s)) h
  | lineEngineTake => exact unlessHeld_changes (engineTake_changes s) h
  | requestTransmitted => exact unlessHeld_changes (requestSent_changes s) h
  | dataReply => exact execDataReply_changes h
  | doneReply => exact execDoneReply_changes h
  | errorReply => exact execErrorReply_changes h
  | badReplyFrame => exact execBadReplyFrame_changes h
  | replyWindowExpiry => exact execReplyWindowExpiry_changes h
  | changeoverMinimumExpiry => exact unlessHeld_changes (minimumExpires_changes s) h
  | changeoverLimitExpiry => exact unlessHeld_changes (limitExpires_changes s) h
  | feedbackChange => exact unlessHeld_changes (onlyIf_changes (takeFeedback_changes _ _ s)) h
  | startTimeout => exact unlessHeld_changes (onlyIf_changes (startFails_changes _ s)) h
  | stopTimeout => exact unlessHeld_changes (onlyIf_changes (faultUnit_changes _ _ s)) h
  | cooldownExpiry => exact unlessHeld_changes (onlyIf_changes (cooldownEnds_changes _ s)) h
  | startListExpiry => exact unlessHeld_changes (onlyIf_changes (dropStartEntry_changes _ s)) h
  | positionInputChange => exact unlessHeld_changes (onlyIf_changes (takeInput_changes _ _ _ s)) h
  | stepTimeExpiry => exact unlessHeld_changes (onlyIf_changes (stepTimeEnds_changes _ s)) h
  | dwellExpiry => exact unlessHeld_changes (onlyIf_changes (dwellEnds_changes _ s)) h
  | inputTimeout => exact unlessHeld_changes (onlyIf_changes (inputTimeoutEnds_changes _ s)) h
  | strokeTimeout => exact unlessHeld_changes (onlyIf_changes (faultTrain_changes _ _ s)) h

/-- With no command waiting only time passes. -/
theorem idle_changes (s : State) : ChangesOnly [.fine, .clock, .cpd, .dsq] s (idle s) := by
  unfold idle
  split
  · exact .refl _ s
  · exact stepFine_changes s

end Sys2Proof.Machine

/-! SUPPORT. The device slots, the poll queue and the line engine under the operations of the field line: one rule for each operation and
each of the three (R24 to R31). -/

namespace Sys2Proof.Machine

open Sys2Proof.Safety

section
variable {s t : State} {l : List Block}

theorem fsu_of_changes (h : ChangesOnly l s t) (hb : Block.fsu ∉ l) : t.fsu = s.fsu := (h .fsu hb).symm
theorem fine_of_changes (h : ChangesOnly l s t) (hb : Block.fine ∉ l) : t.fine = s.fine := (h .fine hb).symm

/-- A slot is read from the FSU alone. -/
theorem slotOf_congr (h : t.fsu = s.fsu) (n : Fin 16) : slotOf t n = slotOf s n := by rw [slotOf, h, slotOf]

end

section
variable (n : Fin 16) (f : Slot → Slot) (e : Entry) (s : State)

@[simp] theorem alterSlot_queue : (alterSlot n f s).fsu.queue = s.fsu.queue := rfl
@[simp] theorem alterSlot_engine : (alterSlot n f s).fsu.engine = s.fsu.engine := rfl
@[simp] theorem alterSlot_window : (alterSlot n f s).fsu.window = s.fsu.window := rfl
@[simp] theorem alterSlot_script : (alterSlot n f s).fsu.script = s.fsu.script := rfl
@[simp] theorem alterSlot_quietAt : (alterSlot n f s).fsu.quietAt = s.fsu.quietAt := rfl
@[simp] theorem alterSlot_fine : (alterSlot n f s).fine = s.fine := rfl

theorem alterSlot_fsu_congr {s t : State} (h : t.fsu = s.fsu) : (alterSlot n f t).fsu = (alterSlot n f s).fsu := by
  simp only [alterSlot, State.withFsu_fsu, h]

@[simp] theorem queueEntry_queue : (queueEntry e s).fsu.queue = enqueue e s.fsu.queue := rfl
@[simp] theorem queueEntry_engine : (queueEntry e s).fsu.engine = s.fsu.engine := rfl
@[simp] theorem slotOf_queueEntry (m : Fin 16) : slotOf (queueEntry e s) m = slotOf s m := rfl

@[simp] theorem withdrawSlot_queue : (withdrawSlot n s).fsu.queue = dequeue n s.fsu.queue := rfl
@[simp] theorem slotOf_withdrawSlot (m : Fin 16) : slotOf (withdrawSlot n s) m = slotOf s m := rfl

/-- A transaction in flight for a withdrawn slot is discarded, and another goes on (R18). -/
theorem withdrawSlot_engine {g : InFlight} (h : s.fsu.engine = .awaitReply g) :
    (withdrawSlot n s).fsu.engine = .awaitReply { g with discarded := g.discarded || decide (g.entry.slot = n) } := by
  simp only [withdrawSlot, State.withFsu_fsu, h]
  by_cases hn : g.entry.slot = n <;> simp [hn]

theorem withdrawSlot_idle (h : s.fsu.engine = .idle) : (withdrawSlot n s).fsu.engine = .idle := by
  simp only [withdrawSlot, State.withFsu_fsu, h]

/-- A slot after one slot is changed. -/
theorem slotOf_alterSlot (m : Fin 16) : slotOf (alterSlot n f s) m = if m = n then f (slotOf s m) else slotOf s m := by
  by_cases h : m = n
  · subst h; simp
  · simp [h]

end

/-! ### The schedule of visits (R24, R31) -/

section
variable (n : Fin 16) (time : Nat) (s : State)

/-- The first phase rests on the settings and the state. -/
theorem firstPhase_congr {a b : Slot} (hs : a.settings = b.settings) (hst : a.state = b.state) : firstPhase a = firstPhase b := by
  unfold firstPhase scriptVisit phaseAfterScript
  rw [hs, hst]

theorem slotOf_scheduleVisit_same :
    slotOf (scheduleVisit n time s) n
      = { slotOf s n with scheduled := some time, recovered := decide ((slotOf s n).state = .absent) } :=
  slotOf_alterSlot_same s n _

theorem slotOf_scheduleVisit_other {m : Fin 16} (h : m ≠ n) : slotOf (scheduleVisit n time s) m = slotOf s m :=
  slotOf_alterSlot_other s _ h

@[simp] theorem scheduleVisit_queue :
    (scheduleVisit n time s).fsu.queue = enqueue ⟨n, time, firstPhase (slotOf s n), 0, 0⟩ s.fsu.queue := rfl

@[simp] theorem scheduleVisit_engine : (scheduleVisit n time s).fsu.engine = s.fsu.engine := rfl

@[simp] theorem state_scheduleVisit (m : Fin 16) : (slotOf (scheduleVisit n time s) m).state = (slotOf s m).state := by
  by_cases h : m = n
  · subst h; rw [slotOf_scheduleVisit_same]
  · rw [slotOf_scheduleVisit_other n time s h]

@[simp] theorem enabled_scheduleVisit (m : Fin 16) : (slotOf (scheduleVisit n time s) m).enabled = (slotOf s m).enabled := by
  by_cases h : m = n
  · subst h; rw [slotOf_scheduleVisit_same]
  · rw [slotOf_scheduleVisit_other n time s h]

/-- How many periods on the next visit of a slot lies, and when that is (R31). -/
def periodsToNext : Nat := periodsOn ((slotOf s n).scheduled.getD s.fine) (slotOf s n).settings.period s.fine

@[inherit_doc periodsToNext]
def nextVisitTime : Nat := (slotOf s n).scheduled.getD s.fine + periodsToNext n s * ((slotOf s n).settings.period * 1000)

/-- The slot whose visit has ended, with the instants passed over counted. -/
theorem scheduleNext_eq :
    scheduleNext n s = scheduleVisit n (nextVisitTime n s)
      (alterSlot n (fun sl => { sl with overruns := holdAdd 65535 sl.overruns (periodsToNext n s - 1) }) s) := rfl

theorem slotOf_scheduleNext_same :
    slotOf (scheduleNext n s) n =
      { slotOf s n with
        overruns := holdAdd 65535 (slotOf s n).overruns (periodsToNext n s - 1)
        scheduled := some (nextVisitTime n s), recovered := decide ((slotOf s n).state = .absent) } := by
  rw [scheduleNext_eq, slotOf_scheduleVisit_same, slotOf_alterSlot_same]

theorem slotOf_scheduleNext_other {m : Fin 16} (h : m ≠ n) : slotOf (scheduleNext n s) m = slotOf s m := by
  rw [scheduleNext_eq, slotOf_scheduleVisit_other n _ _ h, slotOf_alterSlot_other _ _ h]

theorem scheduleNext_queue :
    (scheduleNext n s).fsu.queue = enqueue ⟨n, nextVisitTime n s, firstPhase (slotOf s n), 0, 0⟩ s.fsu.queue := by
  rw [scheduleNext_eq, scheduleVisit_queue, slotOf_alterSlot_same]
  rfl

@[simp] theorem scheduleNext_engine : (scheduleNext n s).fsu.engine = s.fsu.engine := rfl

@[simp] theorem state_scheduleNext (m : Fin 16) : (slotOf (scheduleNext n s) m).state = (slotOf s m).state := by
  by_cases h : m = n
  · subst h; rw [slotOf_scheduleNext_same]
  · rw [slotOf_scheduleNext_other n s h]

/-- The next visit rests on the FSU and the time alone. -/
theorem scheduleNext_fsu_congr {s t : State} (hf : t.fsu = s.fsu) (ht : t.fine = s.fine) :
    (scheduleNext n t).fsu = (scheduleNext n s).fsu := by
  simp only [scheduleNext, scheduleVisit, queueEntry, alterSlot, slotOf, State.withFsu_fsu, hf, ht]

/-- The next visit lies after now, by the least whole number of periods of at least 1 (R31). -/
theorem periodsOn_least {scheduled period now : Nat} (hp : 1 ≤ period) :
    1 ≤ periodsOn scheduled period now ∧ now < scheduled + periodsOn scheduled period now * (period * 1000)
      ∧ (periodsOn scheduled period now = 1 ∨ scheduled + (periodsOn scheduled period now - 1) * (period * 1000) ≤ now) := by
  unfold periodsOn
  split
  · next h => exact ⟨Nat.le_refl 1, by omega, .inl rfl⟩
  · next h =>
    have hpos : 0 < period * 1000 := by omega
    have low : (now - scheduled) / (period * 1000) * (period * 1000) ≤ now - scheduled := Nat.div_mul_le_self _ _
    have high : now - scheduled < ((now - scheduled) / (period * 1000) + 1) * (period * 1000) := by
      rw [Nat.mul_comm]; exact Nat.lt_mul_div_succ _ hpos
    refine ⟨Nat.le_add_left _ _, ?_, .inr ?_⟩
    · generalize ((now - scheduled) / (period * 1000) + 1) * (period * 1000) = x at high; omega
    · rw [Nat.add_sub_cancel]
      generalize (now - scheduled) / (period * 1000) * (period * 1000) = x at low; omega

end

/-! ### What the ends of visits make of the FSU -/

section
variable (n : Fin 16) (s : State)

theorem bandsFollow_fsu (before s : State) : (bandsFollow before s).fsu = s.fsu := fsu_of_changes (bandsFollow_changes before s) (by decide)

theorem channelsLost_fsu (before s : State) : (channelsLost n before s).fsu = s.fsu :=
  fsu_of_changes (channelsLost_changes n before s) (by decide)

theorem slotEventEnds_fsu (before s : State) : (slotEventEnds before n s).fsu = s.fsu :=
  fsu_of_changes (slotEventEnds_changes before n s) (by decide)

/-- The slot's record after a failed visit, before the next one is scheduled (R29). -/
def failedSlot (sl : Slot) : Slot :=
  { sl.holdChannels with failed := holdAdd 255 sl.failed 1, state := stateAfterFailure sl (holdAdd 255 sl.failed 1) }

/-- The state of a failed visit once the gap of its point has opened on entry to ABSENT (R29, R51). -/
def gapAfterFailure : State :=
  if (slotOf (alterSlot n failedSlot s) n).state = .absent ∧ (slotOf s n).state ≠ .absent then openGapOf n (alterSlot n failedSlot s)
  else alterSlot n failedSlot s

theorem alterSlot_congr {f g : Slot → Slot} (h : f (slotOf s n) = g (slotOf s n)) : alterSlot n f s = alterSlot n g s := by
  have h : f (nth s.fsu.slots n) = g (nth s.fsu.slots n) := h
  simp only [alterSlot, alter, h]

theorem failVisit_eq : failVisit n s = slotEventEnds s n (scheduleNext n (bandsFollow s (gapAfterFailure n s))) := by
  have counted : alterSlot n failedSlot s
      = alterSlot n (fun sl => { sl.holdChannels with
          failed := holdAdd 255 (slotOf s n).failed 1, state := stateAfterFailure sl (holdAdd 255 (slotOf s n).failed 1) }) s :=
    alterSlot_congr n s rfl
  unfold gapAfterFailure
  rw [counted]
  rfl

theorem gapAfterFailure_fsu : (gapAfterFailure n s).fsu = (alterSlot n failedSlot s).fsu := by
  unfold gapAfterFailure
  split
  · exact fsu_of_changes (openGapOf_changes n _) (by decide)
  · rfl

theorem gapAfterFailure_fine : (gapAfterFailure n s).fine = s.fine := by
  unfold gapAfterFailure
  split
  · exact fine_of_changes (s := alterSlot n failedSlot s) (openGapOf_changes n _) (by decide)
  · rfl

theorem failVisit_fsu : (failVisit n s).fsu = (scheduleNext n (alterSlot n failedSlot s)).fsu := by
  rw [failVisit_eq, slotEventEnds_fsu]
  refine scheduleNext_fsu_congr n ?_ ?_
  · rw [bandsFollow_fsu, gapAfterFailure_fsu]
  · rw [fine_of_changes (bandsFollow_changes s _) (by decide), gapAfterFailure_fine]
    rfl

/-- The state of a slot whose script write the device refused, once the gap of its point has opened (R26, R51). -/
def gapAfterFault (code : Nat) : State :=
  let marked := alterSlot n (fun sl => { sl.holdChannels with state := .faulted, lastError := code }) s
  if (slotOf s n).state = .absent then marked else openGapOf n marked

theorem faultSlot_eq (code : Nat) : faultSlot n code s = slotEventEnds s n (bandsFollow s (gapAfterFault n s code)) := rfl

theorem faultSlot_fsu (code : Nat) :
    (faultSlot n code s).fsu = (alterSlot n (fun sl => { sl.holdChannels with state := .faulted, lastError := code }) s).fsu := by
  rw [faultSlot_eq, slotEventEnds_fsu, bandsFollow_fsu]
  unfold gapAfterFault
  dsimp only
  split
  · rfl
  · exact fsu_of_changes (openGapOf_changes n _) (by decide)

end

/-! ### Requests of a slot (R20, R21, R22) -/

section
variable (n : Fin 16) (s : State)

theorem scheduleVisit_fsu_congr {time : Nat} {s t : State} (hf : t.fsu = s.fsu) :
    (scheduleVisit n time t).fsu = (scheduleVisit n time s).fsu := by
  simp only [scheduleVisit, queueEntry, alterSlot, slotOf, State.withFsu_fsu, hf]

/-- A slot's record with its counters and channels cleared, as SET-SLOT on an enabled slot, ENABLE-SLOT and DISABLE-SLOT leave it. -/
abbrev restartedSlot (sl : Slot) : Slot := { sl.fresh with state := .init, firstReading := true }
@[inherit_doc restartedSlot]
abbrev enabledSlot (sl : Slot) : Slot := { sl.fresh with enabled := true, state := .init, firstReading := true }
@[inherit_doc restartedSlot]
abbrev disabledSlot (sl : Slot) : Slot :=
  { sl.fresh with enabled := false, state := .disabled, firstReading := false, scheduled := none }

theorem restartSlot_eq :
    restartSlot n s = slotEventEnds s n (scheduleVisit n s.fine (channelsLost n s (alterSlot n restartedSlot (withdrawSlot n s)))) := rfl

theorem enable_eq : enable n s = slotEventEnds s n (scheduleVisit n s.fine (channelsLost n s (alterSlot n enabledSlot s))) := rfl

theorem disable_eq :
    disable n s = slotEventEnds s n (channelsLost n s (alterSlot n disabledSlot (withdrawSlot n (disablePoint n s)))) := rfl

theorem restartSlot_fsu :
    (restartSlot n s).fsu = (scheduleVisit n s.fine (alterSlot n restartedSlot (withdrawSlot n s))).fsu := by
  rw [restartSlot_eq, slotEventEnds_fsu]
  exact scheduleVisit_fsu_congr n (channelsLost_fsu n s _)

theorem enable_fsu : (enable n s).fsu = (scheduleVisit n s.fine (alterSlot n enabledSlot s)).fsu := by
  rw [enable_eq, slotEventEnds_fsu]
  exact scheduleVisit_fsu_congr n (channelsLost_fsu n s _)

theorem withdrawSlot_fsu_congr {s t : State} (h : t.fsu = s.fsu) : (withdrawSlot n t).fsu = (withdrawSlot n s).fsu := by
  simp only [withdrawSlot, State.withFsu_fsu, h]

theorem disable_fsu : (disable n s).fsu = (alterSlot n disabledSlot (withdrawSlot n s)).fsu := by
  rw [disable_eq, slotEventEnds_fsu, channelsLost_fsu]
  exact alterSlot_fsu_congr n _ (withdrawSlot_fsu_congr n (fsu_of_changes (disablePoint_changes n s) (by decide)))

end

/-! ### A good READ (R28) -/

section
variable (n : Fin 16) (words : List WordBytes) (s : State)

theorem meterTakes_changes (recovered : Bool) : ChangesOnly [.mtu] s (meterTakes n recovered s) := by
  unfold meterTakes
  split
  · exact goodReading_changes _ _ _ s
  · exact .refl _ s

theorem cavernsTake_changes : ChangesOnly [.dir] s (cavernsTake n s) :=
  ChangesOnly.overFin (fun k s => by
    split
    · exact evaluateBand_changes k s
    · exact .refl _ s) s

theorem breakthrough_changes (value : Int) (d : Fin 2) : ChangesOnly [.dsq] s (breakthrough value d s) := by
  unfold breakthrough
  split
  · split
    · exact (alterTrain_changes d _ s).trans (alterTrain_changes d _ _)
    · exact .refl _ s
  · exact .refl _ s

theorem dryersTake_changes : ChangesOnly [.dsq] s (dryersTake n s) :=
  ChangesOnly.overFin (fun d s => by
    split
    · exact (alterTrain_changes d _ s).trans (breakthrough_changes _ _ d)
    · exact .refl _ s) s

/-- The state with the channels of a slot decoded from a good READ. -/
def readTaken : State := alterSlot n (fun sl => sl.takeWords s.fine words) s

/-- The state once the point, the caverns and the trains bound to the slot have taken the reading. -/
def readHanded : State := dryersTake n (cavernsTake n (meterTakes n (carriesRecovered (slotOf s n)) (readTaken n words s)))

/-- The state once the threshold has been evaluated and the next visit scheduled. -/
def readScheduled : State := scheduleNext n (alterSlot n evaluateThreshold (readHanded n words s))

theorem succeedVisit_eq : succeedVisit n words s = slotEventEnds s n (readScheduled n words s) := rfl

theorem readHanded_changes : ChangesOnly [.mtu, .dir, .dsq] (readTaken n words s) (readHanded n words s) :=
  (((meterTakes_changes n _ _).mono (by decide)).trans ((cavernsTake_changes n _).mono (by decide))).trans
    ((dryersTake_changes n _).mono (by decide))

theorem readScheduled_fsu :
    (readScheduled n words s).fsu = (scheduleNext n (alterSlot n evaluateThreshold (readTaken n words s))).fsu := by
  have handed := fsu_of_changes (readHanded_changes n words s) (by decide)
  refine scheduleNext_fsu_congr n (alterSlot_fsu_congr n _ handed) ?_
  rw [alterSlot_fine, alterSlot_fine]
  exact fine_of_changes (readHanded_changes n words s) (by decide)

theorem succeedVisit_fsu :
    (succeedVisit n words s).fsu = (scheduleNext n (alterSlot n evaluateThreshold (readTaken n words s))).fsu := by
  rw [succeedVisit_eq, slotEventEnds_fsu, readScheduled_fsu]

end

end Sys2Proof.Machine

/-! SUPPORT. The poll queue: what taking a place, leaving and being taken make of its order and of the slots that have an entry (R30), and
that every step keeps one entry for every polled slot. -/

namespace Sys2Proof.Machine

open Sys2Proof.Safety

/-! ### The queue itself (R30) -/

theorem mem_enqueue {e x : Entry} {q : List Entry} : x ∈ enqueue e q ↔ x = e ∨ x ∈ q := by
  induction q with
  | nil => simp [enqueue]
  | cons f rest ih =>
    unfold enqueue
    split
    · simp
    · simp only [List.mem_cons, ih]
      tauto

theorem perm_enqueue (e : Entry) (q : List Entry) : (enqueue e q).Perm (e :: q) := by
  induction q with
  | nil => exact .refl _
  | cons f rest ih =>
    unfold enqueue
    split
    · exact .refl _
    · exact (ih.cons f).trans (.swap e f rest)

/-- The order of the queue is transitive, and total on different slots. -/
theorem before_trans {a b c : Entry} (h : a.before b = true) (k : b.before c = true) : a.before c = true := by
  simp only [Entry.before, Bool.or_eq_true, Bool.and_eq_true, decide_eq_true_eq] at *
  omega

theorem before_total {a b : Entry} (h : a.slot ≠ b.slot) (k : a.before b = false) : b.before a = true := by
  simp only [Entry.before, Bool.or_eq_true, Bool.or_eq_false_iff, Bool.and_eq_true, Bool.and_eq_false_iff, decide_eq_true_eq,
    decide_eq_false_iff_not] at *
  omega

/-- An entry of a slot that has none takes its place in the order. -/
theorem pairwise_enqueue {e : Entry} {q : List Entry} (h : q.Pairwise fun a b => a.before b = true)
    (hn : e.slot ∉ q.map Entry.slot) : (enqueue e q).Pairwise fun a b => a.before b = true := by
  induction q with
  | nil => simp [enqueue]
  | cons f rest ih =>
    rw [List.pairwise_cons] at h
    obtain ⟨hf, hrest⟩ := h
    simp only [List.map_cons, List.mem_cons, not_or] at hn
    obtain ⟨hef, hn⟩ := hn
    unfold enqueue
    split
    · next hb =>
      refine List.pairwise_cons.mpr ⟨fun x hx => ?_, List.pairwise_cons.mpr ⟨hf, hrest⟩⟩
      rcases List.mem_cons.mp hx with rfl | hx
      · exact hb
      · exact before_trans hb (hf x hx)
    · next hb =>
      refine List.pairwise_cons.mpr ⟨fun x hx => ?_, ih hrest hn⟩
      rcases mem_enqueue.mp hx with rfl | hx
      · exact before_total hef (Bool.eq_false_iff.mpr hb)
      · exact hf x hx

/-! ### The slots with an entry -/

/-- The poll queue is in its order without a slot twice, and the slots that `P` names, and no others, have an entry, queued or in flight;
the request in flight is of its entry's phase. -/
structure EntriesOf (P : Fin 16 → Prop) (s : State) : Prop where
  ordered : s.fsu.queue.Pairwise fun a b => a.before b = true
  distinct : (s.fsu.queue.map Entry.slot).Nodup
  served : ∀ n, P n ↔ n ∈ s.fsu.queue.map Entry.slot ∨ inFlightFor s n
  apart : ∀ n, inFlightFor s n → n ∉ s.fsu.queue.map Entry.slot
  suits : ∀ f, s.fsu.engine = .awaitReply f → requestSuits f.entry.phase f.request

theorem queueKept_iff (s : State) : QueueKept s ↔ EntriesOf (isPolled s) s :=
  ⟨fun ⟨h1, h2, h3, h4, h5⟩ => ⟨h1, h2, h3, h4, h5⟩, fun ⟨h1, h2, h3, h4, h5⟩ => ⟨h1, h2, h3, h4, h5⟩⟩

section
variable {P Q : Fin 16 → Prop} {s t : State}

/-- The queue is kept when the slots with an entry are the polled ones. -/
theorem EntriesOf.kept (h : EntriesOf P s) (hp : ∀ n, isPolled s n ↔ P n) : QueueKept s := by
  rw [queueKept_iff, show isPolled s = P from funext fun n => propext (hp n)]
  exact h

/-- It rests on the queue and the engine. -/
theorem EntriesOf.congr (hq : t.fsu.queue = s.fsu.queue) (he : t.fsu.engine = s.fsu.engine) (h : EntriesOf P s) : EntriesOf P t := by
  have flight : inFlightFor t = inFlightFor s := by funext n; simp only [inFlightFor, he]
  obtain ⟨ordered, distinct, served, apart, suits⟩ := h
  exact ⟨hq ▸ ordered, hq ▸ distinct, by rw [hq, flight]; exact served, by rw [hq, flight]; exact apart, he ▸ suits⟩

theorem not_inFlightFor_of_idle (h : s.fsu.engine = .idle) (n : Fin 16) : ¬ inFlightFor s n := by
  rintro ⟨f, hf, -⟩
  rw [h] at hf
  cases hf

/-- A slot without an entry takes one. -/
theorem EntriesOf.queueEntry (h : EntriesOf P s) (e : Entry) (he : ¬ P e.slot) :
    EntriesOf (fun n => n = e.slot ∨ P n) (queueEntry e s) := by
  obtain ⟨ordered, distinct, served, apart, suits⟩ := h
  have slots : ∀ n, n ∈ (enqueue e s.fsu.queue).map Entry.slot ↔ n = e.slot ∨ n ∈ s.fsu.queue.map Entry.slot := fun n => by
    rw [((perm_enqueue e s.fsu.queue).map Entry.slot).mem_iff, List.map_cons, List.mem_cons]
  have free : e.slot ∉ s.fsu.queue.map Entry.slot := fun hm => he ((served _).mpr (.inl hm))
  refine ⟨pairwise_enqueue ordered free, ?_, fun n => ?_, fun n hn => ?_, suits⟩
  · exact ((perm_enqueue e s.fsu.queue).map Entry.slot).nodup_iff.mpr (List.nodup_cons.mpr ⟨free, distinct⟩)
  · rw [queueEntry_queue, slots, served n, or_assoc]
    exact Iff.rfl
  · rw [queueEntry_queue, slots]
    rintro (rfl | hm)
    · exact he ((served _).mpr (.inr hn))
    · exact apart n hn hm

/-- A transaction that is no slot's any more ends. -/
theorem EntriesOf.discarded {f : InFlight} (h : EntriesOf P s) (hf : s.fsu.engine = .awaitReply f) (hd : f.discarded = true) :
    EntriesOf P (s.withFsu { s.fsu with engine := .idle }) := by
  obtain ⟨ordered, distinct, served, -, -⟩ := h
  have none (n : Fin 16) : ¬ inFlightFor s n := by
    rintro ⟨g, hg, hgd, -⟩
    rw [hf] at hg
    cases hg
    rw [hd] at hgd
    cases hgd
  have idle := not_inFlightFor_of_idle (s := s.withFsu { s.fsu with engine := .idle }) rfl
  refine ⟨ordered, distinct, fun n => ?_, fun n hn => absurd hn (idle n), fun g hg => by cases hg⟩
  rw [served n, or_iff_left (none n), or_iff_left (idle n)]
  exact Iff.rfl

/-- The transaction in flight ends, and its slot has no entry. -/
theorem EntriesOf.ended {f : InFlight} (h : EntriesOf P s) (hf : s.fsu.engine = .awaitReply f) (hd : f.discarded = false) :
    EntriesOf (fun n => n ≠ f.entry.slot ∧ P n) (s.withFsu { s.fsu with engine := .idle }) := by
  obtain ⟨ordered, distinct, served, apart, -⟩ := h
  have flight (n : Fin 16) : inFlightFor s n ↔ n = f.entry.slot := by
    constructor
    · rintro ⟨g, hg, -, rfl⟩
      rw [hf] at hg
      cases hg
      rfl
    · rintro rfl
      exact ⟨f, hf, hd, rfl⟩
  have idle := not_inFlightFor_of_idle (s := s.withFsu { s.fsu with engine := .idle }) rfl
  refine ⟨ordered, distinct, fun n => ?_, fun n hn => absurd hn (idle n), fun g hg => by cases hg⟩
  have free := apart f.entry.slot ((flight _).mpr rfl)
  rw [or_iff_left (idle n), served n, flight n]
  show _ ↔ n ∈ s.fsu.queue.map Entry.slot
  constructor
  · rintro ⟨hne, hm | he⟩
    · exact hm
    · exact absurd he hne
  · exact fun hm => ⟨fun he => free (he ▸ hm), .inl hm⟩

/-- The slot of the transaction in flight has an entry. -/
theorem EntriesOf.flying {f : InFlight} (h : EntriesOf P s) (hf : s.fsu.engine = .awaitReply f) (hd : f.discarded = false) :
    P f.entry.slot := (h.served _).mpr (.inr ⟨f, hf, hd, rfl⟩)

/-- A withdrawn slot has no entry (R18, R20, R22). -/
theorem EntriesOf.withdrawSlot (h : EntriesOf P s) (n : Fin 16) : EntriesOf (fun m => m ≠ n ∧ P m) (withdrawSlot n s) := by
  obtain ⟨ordered, distinct, served, apart, suits⟩ := h
  have slots (m : Fin 16) : m ∈ (dequeue n s.fsu.queue).map Entry.slot ↔ m ≠ n ∧ m ∈ s.fsu.queue.map Entry.slot := by
    simp only [dequeue, List.mem_map, List.mem_filter, decide_eq_true_eq]
    constructor
    · rintro ⟨e, ⟨he, hn⟩, rfl⟩
      exact ⟨hn, e, he, rfl⟩
    · rintro ⟨hn, e, he, rfl⟩
      exact ⟨e, ⟨he, hn⟩, rfl⟩
  have flight (m : Fin 16) : inFlightFor (Machine.withdrawSlot n s) m ↔ m ≠ n ∧ inFlightFor s m := by
    cases hg : s.fsu.engine with
    | idle =>
      exact iff_of_false (not_inFlightFor_of_idle (withdrawSlot_idle n s hg) m) fun h => not_inFlightFor_of_idle hg m h.2
    | awaitReply g =>
      unfold inFlightFor
      rw [withdrawSlot_engine n s hg, hg]
      constructor
      · rintro ⟨f, hf, hfd, rfl⟩
        cases hf
        simp only [Bool.or_eq_false_iff, decide_eq_false_iff_not] at hfd
        exact ⟨hfd.2, g, rfl, hfd.1, rfl⟩
      · rintro ⟨hm, f, hf, hfd, rfl⟩
        cases hf
        exact ⟨_, rfl, by simp [hfd, hm], rfl⟩
  refine ⟨ordered.filter _, ?_, fun m => ?_, fun m hm hq => ?_, fun f hf => ?_⟩
  · exact distinct.sublist ((List.filter_sublist).map _)
  · rw [withdrawSlot_queue, slots, flight, served]
    tauto
  · exact apart m ((flight m).mp hm).2 ((slots m).mp hq).2
  · cases hg : s.fsu.engine with
    | idle => rw [withdrawSlot_idle n s hg] at hf; cases hf
    | awaitReply g =>
      rw [withdrawSlot_engine n s hg] at hf
      cases hf
      exact suits g hg

/-- The engine takes the head entry, with the request of its phase (R16). -/
theorem EntriesOf.taken {e : Entry} {rest : List Entry} {f : InFlight} (h : EntriesOf P s) (hi : s.fsu.engine = .idle)
    (hq : s.fsu.queue = e :: rest) (hf : f.entry = e) (hd : f.discarded = false) (hs : requestSuits e.phase f.request)
    (hqt : t.fsu.queue = rest) (het : t.fsu.engine = .awaitReply f) : EntriesOf P t := by
  obtain ⟨ordered, distinct, served, -, -⟩ := h
  rw [hq] at ordered distinct served
  have flight (n : Fin 16) : inFlightFor t n ↔ n = e.slot := by
    unfold inFlightFor
    rw [het]
    constructor
    · rintro ⟨g, hg, -, rfl⟩
      cases hg
      rw [hf]
    · rintro rfl
      exact ⟨f, rfl, hd, by rw [hf]⟩
  obtain ⟨free, distinct⟩ := List.nodup_cons.mp distinct
  refine ⟨hqt ▸ (List.pairwise_cons.mp ordered).2, hqt ▸ distinct, fun n => ?_, fun n hn => ?_, fun g hg => ?_⟩
  · rw [served n, or_iff_left (not_inFlightFor_of_idle hi n), flight, hqt, List.map_cons, List.mem_cons, or_comm]
  · rw [hqt, (flight n).mp hn]
    exact free
  · rw [het] at hg
    cases hg
    rw [hf]
    exact hs

/-- A change of a slot's record is no change of the queue. -/
theorem EntriesOf.alterSlot (h : EntriesOf P s) (n : Fin 16) (f : Slot → Slot) : EntriesOf P (alterSlot n f s) :=
  EntriesOf.congr (s := s) rfl rfl h

/-- A visit is scheduled for a slot without an entry. -/
theorem EntriesOf.scheduleVisit (h : EntriesOf P s) {n : Fin 16} (time : Nat) (hn : ¬ P n) :
    EntriesOf (fun m => m = n ∨ P m) (scheduleVisit n time s) :=
  (h.alterSlot n _).queueEntry ⟨n, time, firstPhase (slotOf s n), 0, 0⟩ hn

theorem EntriesOf.scheduleNext (h : EntriesOf P s) {n : Fin 16} (hn : ¬ P n) :
    EntriesOf (fun m => m = n ∨ P m) (scheduleNext n s) :=
  (h.alterSlot n _).scheduleVisit _ hn

end

end Sys2Proof.Machine

/-! SUPPORT. Every step keeps one entry for every polled slot (R18, R30). -/

namespace Sys2Proof.Machine

open Sys2Proof.Safety

/-! ### The end of a transaction (R17, R18) -/

/-- Slot `n` is polled and has no entry, every other polled slot has one. -/
structure AwaitsEntry (n : Fin 16) (s : State) : Prop where
  polled : isPolled s n
  others : EntriesOf (fun m => m ≠ n ∧ isPolled s m) s

section
variable {n : Fin 16} {s t : State}

/-- A slot is polled by its state. -/
theorem isPolled_congr {m : Fin 16} (h : (slotOf t m).state = (slotOf s m).state) : isPolled t m ↔ isPolled s m := by
  rw [isPolled, h, isPolled]

theorem queueKept_congr (h : t.fsu = s.fsu) (hs : QueueKept s) : QueueKept t :=
  (EntriesOf.congr (s := s) (by rw [h]) (by rw [h]) ((queueKept_iff s).mp hs)).kept fun m =>
    isPolled_congr (by rw [slotOf_congr h])

/-- With the entry given that one polled slot awaited, every polled slot has one. -/
theorem EntriesOf.kept_of_given (ht : EntriesOf (fun m => m = n ∨ m ≠ n ∧ isPolled s m) t) (hn : isPolled t n)
    (ho : ∀ m, m ≠ n → (slotOf t m).state = (slotOf s m).state) : QueueKept t := by
  refine ht.kept fun m => ?_
  by_cases hm : m = n
  · exact iff_of_true (hm ▸ hn) (.inl hm)
  · rw [isPolled_congr (ho m hm)]
    exact ⟨fun hp => .inr ⟨hm, hp⟩, fun hp => (hp.resolve_left hm).2⟩

theorem AwaitsEntry.queueEntry (h : AwaitsEntry n s) (e : Entry) (he : e.slot = n) : QueueKept (queueEntry e s) := by
  subst he
  exact (h.others.queueEntry e fun hp => hp.1 rfl).kept_of_given h.polled fun _ _ => rfl

/-- A change of the slot that leaves it polled. -/
theorem AwaitsEntry.alterSlot (h : AwaitsEntry n s) (f : Slot → Slot)
    (hp : (f (slotOf s n)).state ≠ .disabled ∧ (f (slotOf s n)).state ≠ .faulted) : AwaitsEntry n (alterSlot n f s) := by
  refine ⟨by rwa [isPolled, slotOf_alterSlot_same], ?_⟩
  have same : (fun m => m ≠ n ∧ isPolled (Machine.alterSlot n f s) m) = fun m => m ≠ n ∧ isPolled s m := by
    funext m
    refine propext (and_congr_right fun hm => isPolled_congr ?_)
    rw [slotOf_alterSlot_other _ _ hm]
  rw [same]
  exact h.others.alterSlot n f

theorem AwaitsEntry.scheduleNext (h : AwaitsEntry n s) : QueueKept (scheduleNext n s) :=
  (h.others.scheduleNext fun hp => hp.1 rfl).kept_of_given ((isPolled_congr (state_scheduleNext n s n)).mpr h.polled) fun m _ =>
    state_scheduleNext n s m

/-- A slot whose visit has failed is polled still (R29). -/
theorem stateAfterFailure_polled (sl : Slot) (failed : Nat) :
    stateAfterFailure sl failed ≠ .disabled ∧ stateAfterFailure sl failed ≠ .faulted := by
  unfold stateAfterFailure
  split
  · decide
  · split <;> decide
  · split <;> decide

theorem AwaitsEntry.failVisit (h : AwaitsEntry n s) : QueueKept (failVisit n s) :=
  queueKept_congr (failVisit_fsu n s) (h.alterSlot failedSlot (stateAfterFailure_polled _ _)).scheduleNext

theorem AwaitsEntry.succeedVisit (h : AwaitsEntry n s) (words : List WordBytes) : QueueKept (succeedVisit n words s) := by
  refine queueKept_congr (succeedVisit_fsu n words s) (AwaitsEntry.scheduleNext ?_)
  have read : AwaitsEntry n (readTaken n words s) := h.alterSlot _ ⟨nofun, nofun⟩
  exact read.alterSlot evaluateThreshold read.polled

/-- A FAULTED slot is not polled, and takes no entry (R26). -/
theorem AwaitsEntry.faultSlot (h : AwaitsEntry n s) (code : Nat) : QueueKept (faultSlot n code s) := by
  refine queueKept_congr (faultSlot_fsu n s code) ((h.others.alterSlot n _).kept fun m => ?_)
  by_cases hm : m = n
  · subst hm
    refine iff_of_false (fun hp => hp.2 ?_) fun hp => hp.1 rfl
    rw [slotOf_alterSlot_same]
  · rw [isPolled_congr (s := s) (by rw [slotOf_alterSlot_other _ _ hm])]
    exact ⟨fun hp => ⟨hm, hp⟩, fun hp => hp.2⟩

end

/-! ### What a reply leaves (R17, R18, R25 to R28) -/

section
variable {e : Entry} {s : State}

theorem AwaitsEntry.miss (h : AwaitsEntry e.slot s) : QueueKept (miss e s) := by
  unfold Machine.miss
  split
  · exact h.queueEntry _ rfl
  · exact h.failVisit

theorem AwaitsEntry.writeDone {k : Nat} (h : AwaitsEntry e.slot s) (hp : e.phase = .initWrite k) : QueueKept (writeDone e s) := by
  unfold Machine.writeDone
  dsimp only
  rw [hp]
  dsimp only
  split
  · exact h.queueEntry _ rfl
  · refine (h.alterSlot _ ?_).queueEntry _ rfl
    split
    · exact ⟨nofun, nofun⟩
    · exact h.polled

theorem AwaitsEntry.readyAnswered (h : AwaitsEntry e.slot s) (word : Nat) : QueueKept (readyAnswered e word s) := by
  unfold Machine.readyAnswered
  dsimp only
  split
  · exact h.queueEntry _ rfl
  · split
    · exact h.queueEntry _ rfl
    · exact h.failVisit

theorem AwaitsEntry.dataAnswered (h : AwaitsEntry e.slot s) (hp : ∀ k, e.phase ≠ .initWrite k) (words : List WordBytes) :
    QueueKept (dataAnswered e words s) := by
  unfold Machine.dataAnswered
  split
  · exact h.readyAnswered _
  · exact h.succeedVisit words
  · next k hk => exact absurd hk (hp k)

end

/-- A DONE answers a WRITE, and a DATA a READ (R17). -/
theorem judgeBody_done {request : LineRequest} {body : List Byte} (h : judgeBody request body = .done) :
    ∃ a r v, request = .write a r v := by
  unfold judgeBody at h
  split at h
  · cases h
  · split at h
    · split at h <;> cases h
    · exact ⟨_, _, _, rfl⟩
    · exact ⟨_, _, _, rfl⟩
    · cases h

theorem judgeBody_data {request : LineRequest} {body : List Byte} {words : List WordBytes} (h : judgeBody request body = .data words) :
    ∃ a r c, request = .read a r c := by
  unfold judgeBody at h
  split at h
  · cases h
  · split at h
    · exact ⟨_, _, _, rfl⟩
    · split at h <;> cases h
    · split at h <;> cases h
    · cases h

theorem judge_done {request : LineRequest} {received : List Byte} (h : judge request received = .done) :
    ∃ a r v, request = .write a r v := by
  unfold judge at h
  split at h
  · cases h
  · cases h
  · exact judgeBody_done h

theorem judge_data {request : LineRequest} {received : List Byte} {words : List WordBytes} (h : judge request received = .data words) :
    ∃ a r c, request = .read a r c := by
  unfold judge at h
  split at h
  · cases h
  · cases h
  · exact judgeBody_data h

section
variable {s : State} {f : InFlight}

theorem engine_of_awaiting (h : awaiting s = some f) : s.fsu.engine = .awaitReply f := by
  unfold awaiting at h
  split at h
  · next he =>
    split at h
    · split at h <;> cases h
      exact he
    · cases h
  · cases h

theorem engine_of_expired (h : expired s = some f) : s.fsu.engine = .awaitReply f := by
  unfold expired at h
  split at h
  · next he =>
    split at h
    · split at h <;> cases h
      exact he
    · cases h
  · cases h

/-- The end of the transaction in flight keeps the queue if its outcome gives the slot what it awaits. -/
theorem endTransaction_queueKept {outcome : State → State} (hs : QueueKept s) (hf : s.fsu.engine = .awaitReply f)
    (ho : ∀ u, AwaitsEntry f.entry.slot u → QueueKept (outcome u)) : QueueKept (endTransaction f outcome s) := by
  have entries := (queueKept_iff s).mp hs
  unfold endTransaction
  dsimp only
  split
  · next hd => exact (queueKept_iff _).mpr (entries.discarded hf hd)
  · next hd =>
    have hd := Bool.eq_false_iff.mpr hd
    exact ho _ ⟨entries.flying hf hd, entries.ended hf hd⟩

theorem receiverHeard_queueKept (hs : QueueKept s) : QueueKept (receiverHeard s) :=
  ((EntriesOf.congr (s := s) rfl rfl ((queueKept_iff s).mp hs))).kept fun _ => Iff.rfl

theorem bytesHeard_queueKept (received : List Byte) (hs : QueueKept s) : QueueKept (bytesHeard received s) := by
  rcases bytesHeard_cases received s with h | h <;> rw [h]
  · exact hs
  · exact receiverHeard_queueKept hs

theorem replyEvent_queueKept {received : List Byte} {outcome : Reply → Option (Entry → State → State)} (hs : QueueKept s)
    (ho : ∀ f g, s.fsu.engine = .awaitReply f → outcome (judge f.request received) = some g →
      ∀ u, AwaitsEntry f.entry.slot u → QueueKept (g f.entry u)) : QueueKept (replyEvent received outcome s) := by
  unfold replyEvent
  split
  · next f hf =>
    split
    · exact bytesHeard_queueKept received hs
    · split
      · next g hg =>
        have engine := engine_of_awaiting hf
        exact endTransaction_queueKept (receiverHeard_queueKept hs) engine (ho f g engine hg)
      · exact hs
  · exact bytesHeard_queueKept received hs

/-! ### The events of the line -/

/-- The request sent, the transaction is in flight as before (R17). -/
theorem requestSent_queueKept (hs : QueueKept s) : QueueKept (requestSent s) := by
  unfold requestSent
  split
  · next f hf =>
    split
    · obtain ⟨ordered, distinct, served, apart, suits⟩ := (queueKept_iff s).mp hs
      have flight (n : Fin 16) : inFlightFor (s.withFsu { s.fsu with
          engine := .awaitReply { f with windowEnd := some (s.fine + f.window) } }) n ↔ inFlightFor s n := by
        unfold inFlightFor
        rw [hf]
        constructor
        · rintro ⟨g, hg, hd, hn⟩
          cases hg
          exact ⟨f, rfl, hd, hn⟩
        · rintro ⟨g, hg, hd, hn⟩
          cases hg
          exact ⟨_, rfl, hd, hn⟩
      refine EntriesOf.kept (P := isPolled s) ⟨ordered, distinct, fun n => ?_, fun n hn => apart n ((flight n).mp hn), fun g hg => ?_⟩
        fun _ => Iff.rfl
      · rw [flight]
        exact served n
      · cases hg
        exact suits f hf
    · exact hs
  · exact hs

/-- The request of an entry is of its phase (R16). -/
theorem entryRequest_suits (s : State) (e : Entry) : requestSuits e.phase (entryRequest s e) := by
  unfold entryRequest
  cases e.phase with
  | read => trivial
  | readyCheck => trivial
  | initWrite k => dsimp only; split <;> trivial

/-- A slot whose visit begins is polled as before (R24). -/
theorem beginVisit_polled (e : Entry) (sl : Slot) :
    ((beginVisit e sl).state ≠ .disabled ∧ (beginVisit e sl).state ≠ .faulted) ↔ (sl.state ≠ .disabled ∧ sl.state ≠ .faulted) := by
  unfold beginVisit
  split
  · exact Iff.rfl
  · split
    · next h => exact iff_of_true ⟨nofun, nofun⟩ (h ▸ ⟨nofun, nofun⟩)
    · exact Iff.rfl

theorem engineTake_queueKept (hs : QueueKept s) : QueueKept (engineTake s) := by
  unfold engineTake
  split
  · next e rest hi hq =>
    split
    · have taken : EntriesOf (isPolled s) (s.withFsu { s.fsu with
          queue := rest
          engine := .awaitReply
            { entry := e, request := entryRequest s e, window := s.fsu.window, windowEnd := none, discarded := false } }) :=
        ((queueKept_iff s).mp hs).taken hi hq rfl rfl (entryRequest_suits s e) rfl rfl
      refine (taken.alterSlot e.slot (beginVisit e)).kept fun n => ?_
      by_cases hn : n = e.slot
      · subst hn
        rw [isPolled, slotOf_alterSlot_same]
        exact beginVisit_polled e _
      · exact isPolled_congr (by rw [slotOf_alterSlot_other _ _ hn]; rfl)
    · exact hs
  · exact hs

theorem dataReply_queueKept {received : List Byte} {t : State} (hs : QueueKept s) (h : execDataReply received s = .next t) :
    QueueKept t := by
  refine unlessHeld_keeps (P := QueueKept) hs (replyEvent_queueKept hs fun f g hf hg u hu => ?_) h
  split at hg <;> cases hg
  · next words hj =>
    obtain ⟨a, r, c, hr⟩ := judge_data hj
    refine hu.dataAnswered (fun k hk => ?_) words
    have suits := hs.2.2.2.2 f hf
    rw [hr, hk] at suits
    exact suits
  · exact hu.miss

theorem doneReply_queueKept {received : List Byte} {t : State} (hs : QueueKept s) (h : execDoneReply received s = .next t) :
    QueueKept t := by
  refine unlessHeld_keeps (P := QueueKept) hs (replyEvent_queueKept hs fun f g hf hg u hu => ?_) h
  split at hg <;> cases hg
  · next hj =>
    obtain ⟨a, r, v, hr⟩ := judge_done hj
    have suits := hs.2.2.2.2 f hf
    rw [hr] at suits
    cases hp : f.entry.phase with
    | initWrite k => exact hu.writeDone hp
    | readyCheck => rw [hp] at suits; exact suits.elim
    | read => rw [hp] at suits; exact suits.elim
  · exact hu.miss

theorem errorReply_queueKept {received : List Byte} {t : State} (hs : QueueKept s) (h : execErrorReply received s = .next t) :
    QueueKept t := by
  refine unlessHeld_keeps (P := QueueKept) hs (replyEvent_queueKept hs fun f g hf hg u hu => ?_) h
  split at hg <;> cases hg
  · exact hu.faultSlot _
  · exact hu.miss

theorem badReplyFrame_queueKept {received : List Byte} {t : State} (hs : QueueKept s) (h : execBadReplyFrame received s = .next t) :
    QueueKept t := by
  refine unlessHeld_keeps (P := QueueKept) hs (replyEvent_queueKept hs fun f g hf hg u hu => ?_) h
  split at hg <;> cases hg
  exact hu.miss

theorem replyWindowExpiry_queueKept {t : State} (hs : QueueKept s) (h : execReplyWindowExpiry s = .next t) : QueueKept t := by
  refine unlessHeld_keeps (P := QueueKept) hs ?_ h
  split
  · next f hf => exact endTransaction_queueKept hs (engine_of_expired hf) fun u hu => hu.miss
  · exact hs

end

/-! ### The requests of the line (R15, R20 to R23) -/

section
variable {n : Fin 16} {s : State}

/-- A slot that is withdrawn and then polled awaits its entry. -/
theorem awaitsEntry_withdrawn (hs : QueueKept s) (f : Slot → Slot)
    (hp : (f (slotOf s n)).state ≠ .disabled ∧ (f (slotOf s n)).state ≠ .faulted) :
    AwaitsEntry n (alterSlot n f (withdrawSlot n s)) := by
  refine ⟨by rwa [isPolled, slotOf_alterSlot_same, slotOf_withdrawSlot], ?_⟩
  have same : (fun m => m ≠ n ∧ isPolled (alterSlot n f (withdrawSlot n s)) m) = fun m => m ≠ n ∧ isPolled s m := by
    funext m
    refine propext (and_congr_right fun hm => isPolled_congr ?_)
    rw [slotOf_alterSlot_other _ _ hm, slotOf_withdrawSlot]
  rw [same]
  exact (((queueKept_iff s).mp hs).withdrawSlot n).alterSlot n f

theorem AwaitsEntry.scheduleVisit (h : AwaitsEntry n s) (time : Nat) : QueueKept (scheduleVisit n time s) :=
  (h.others.scheduleVisit time fun hp => hp.1 rfl).kept_of_given ((isPolled_congr (state_scheduleVisit n time s n)).mpr h.polled)
    fun m _ => state_scheduleVisit n time s m

theorem restartSlot_queueKept (hs : QueueKept s) : QueueKept (restartSlot n s) :=
  queueKept_congr (restartSlot_fsu n s) ((awaitsEntry_withdrawn hs restartedSlot ⟨nofun, nofun⟩).scheduleVisit _)

/-- A DISABLED slot has no entry to lose (R21). -/
theorem enable_queueKept (hs : QueueKept s) (hd : (slotOf s n).state = .disabled) : QueueKept (enable n s) := by
  refine queueKept_congr (enable_fsu n s) (AwaitsEntry.scheduleVisit ⟨?_, ?_⟩ _)
  · rw [isPolled, slotOf_alterSlot_same]
    exact ⟨nofun, nofun⟩
  · have same : (fun m => m ≠ n ∧ isPolled (alterSlot n enabledSlot s) m) = isPolled s := by
      funext m
      by_cases hm : m = n
      · subst hm
        exact propext (iff_of_false (fun h => h.1 rfl) fun h => h.1 hd)
      · rw [eq_iff_iff, isPolled_congr (s := s) (by rw [slotOf_alterSlot_other _ _ hm])]
        exact and_iff_right hm
    rw [same]
    exact ((queueKept_iff s).mp hs).alterSlot n _

theorem disable_queueKept (hs : QueueKept s) : QueueKept (disable n s) := by
  refine queueKept_congr (disable_fsu n s) (((((queueKept_iff s).mp hs).withdrawSlot n).alterSlot n disabledSlot).kept fun m => ?_)
  by_cases hm : m = n
  · subst hm
    refine iff_of_false (fun hp => hp.1 ?_) fun hp => hp.1 rfl
    rw [slotOf_alterSlot_same]
  · rw [isPolled_congr (s := s) (by rw [slotOf_alterSlot_other _ _ hm, slotOf_withdrawSlot])]
    exact (and_iff_right hm).symm

theorem storeSettings_queueKept (hs : QueueKept s) (c : SlotSettings) :
    QueueKept (alterSlot n (fun sl => { sl with settings := c }) s) := by
  refine (((queueKept_iff s).mp hs).alterSlot n _).kept fun m => isPolled_congr ?_
  by_cases hm : m = n
  · subst hm; rw [slotOf_alterSlot_same]
  · rw [slotOf_alterSlot_other _ _ hm]

end

section
variable {fields : List Byte} {s after : State} {payload : List Byte}

theorem setFieldLine_queueKept (hs : QueueKept s) (h : setFieldLine fields s = .taken after payload) : QueueKept after := by
  unfold setFieldLine at h
  dsimp only at h
  split at h <;> cases h
  exact ((EntriesOf.congr (s := s) rfl rfl ((queueKept_iff s).mp hs))).kept fun _ => Iff.rfl

theorem writeScript_queueKept (hs : QueueKept s) (h : writeScript fields s = .taken after payload) : QueueKept after := by
  unfold writeScript at h
  dsimp only at h
  split at h
  · cases h
  · split at h <;> cases h
    exact ((EntriesOf.congr (s := s) rfl rfl ((queueKept_iff s).mp hs))).kept fun _ => Iff.rfl

theorem setSlot_queueKept (hs : QueueKept s) (h : setSlot fields s = .taken after payload) : QueueKept after := by
  unfold setSlot at h
  split at h
  · split at h
    · cases h
    · split at h <;> cases h
      split
      · exact storeSettings_queueKept hs _
      · exact restartSlot_queueKept (storeSettings_queueKept hs _)
  · cases h

theorem enableSlot_queueKept (hs : QueueKept s) (h : enableSlot fields s = .taken after payload) : QueueKept after := by
  unfold enableSlot at h
  split at h
  · cases h
  · split at h
    · cases h
    · next hd =>
      split at h <;> cases h
      exact enable_queueKept hs (not_ne_iff.mp hd)

theorem disableSlot_queueKept (hs : QueueKept s) (h : disableSlot fields s = .taken after payload) : QueueKept after := by
  unfold disableSlot at h
  split at h
  · cases h
  · split at h <;> cases h
    exact disable_queueKept hs

end

/-! ### Resets (R38) -/

/-- The first visits scheduled, the enabled slots gone through are those with an entry. -/
theorem scheduleFirst_entries (l : List (Fin 16)) (hl : l.Nodup) {P : Fin 16 → Prop} {s : State} (h : EntriesOf P s)
    (hp : ∀ n ∈ l, ¬ P n) :
    EntriesOf (fun n => P n ∨ n ∈ l ∧ (slotOf s n).enabled = true)
      (l.foldl (fun s n => if (slotOf s n).enabled then scheduleVisit n 0 s else s) s) := by
  induction l generalizing P s with
  | nil => simpa using h
  | cons m l ih =>
    obtain ⟨hm, hl⟩ := List.nodup_cons.mp hl
    rw [List.foldl_cons]
    have free (n : Fin 16) (hn : n ∈ l) : n ≠ m := fun he => hm (he ▸ hn)
    split
    · next he =>
      have next := ih hl (h.scheduleVisit 0 (hp m List.mem_cons_self)) fun n hn hq =>
        hq.elim (free n hn) (hp n (List.mem_cons_of_mem m hn))
      convert next using 2 with n
      rw [enabled_scheduleVisit, List.mem_cons]
      by_cases hn : n = m
      · subst hn; simp [he]
      · simp [hn]
    · next he =>
      have next := ih hl h fun n hn => hp n (List.mem_cons_of_mem m hn)
      convert next using 2 with n
      rw [List.mem_cons]
      by_cases hn : n = m
      · subst hn; simp [he, hm]
      · simp [hn]

/-- Scheduling the first visits changes no slot's state. -/
theorem state_scheduleFirst (s : State) (n : Fin 16) : (slotOf (scheduleFirst s) n).state = (slotOf s n).state :=
  overFin_keeps (fun t => (slotOf t n).state = (slotOf s n).state) _ (fun m t ht => by
    split
    · rwa [state_scheduleVisit]
    · exact ht) rfl

theorem slotOf_restartBlocks (kind : ResetKind) (lines : Lines) (lost : Bool) (s : State) (n : Fin 16) :
    slotOf (restartBlocks kind lines lost s) n = (slotOf s n).restart := nth_each _ _ n

theorem takeReset_fsu (kind : ResetKind) (lines : Lines) (s : State) :
    (takeReset kind lines s).fsu = (scheduleFirst (restartBlocks kind lines (!s.pif.retainedIntact) (retained s))).fsu := by
  have resumed (u : State) : (overFin 2 resumeTrain u).fsu = u.fsu :=
    fsu_of_changes (ChangesOnly.overFin (fun d s => alterTrain_changes d _ s) u) (by decide)
  rw [takeReset, resumed, fsu_of_changes (refirmAtReset_changes _) (by decide)]

theorem takeReset_queueKept (kind : ResetKind) (lines : Lines) (s : State) : QueueKept (takeReset kind lines s) := by
  refine queueKept_congr (takeReset_fsu kind lines s) ?_
  generalize hr : restartBlocks kind lines (!s.pif.retainedIntact) (retained s) = r
  have record (n : Fin 16) : slotOf r n = (slotOf (retained s) n).restart := by rw [← hr, slotOf_restartBlocks]
  have empty : EntriesOf (fun _ => False) r := by
    have idle : r.fsu.engine = .idle := by rw [← hr]; rfl
    have none : r.fsu.queue = [] := by rw [← hr]; rfl
    refine ⟨none ▸ .nil, none ▸ List.nodup_nil, fun n => ?_, fun n hn => absurd hn (not_inFlightFor_of_idle idle n), fun f hf => ?_⟩
    · rw [none]
      exact iff_of_false id fun h => h.elim (fun hm => absurd hm List.not_mem_nil) (not_inFlightFor_of_idle idle n)
    · rw [idle] at hf
      cases hf
  refine (scheduleFirst_entries (List.finRange 16) (List.nodup_finRange 16) empty fun _ _ => id).kept fun n => ?_
  show isPolled (scheduleFirst r) n ↔ _
  rw [isPolled_congr (state_scheduleFirst r n), isPolled, record]
  simp only [Slot.restart, List.mem_finRange, true_and, false_or]
  cases (slotOf (retained s) n).enabled
  · exact iff_of_false (fun h => h.1 rfl) nofun
  · exact iff_of_true ⟨nofun, nofun⟩ rfl

/-! ### Every command -/

theorem exec_queueKept {c : Instr} {s t : State} (hs : QueueKept s) (h : exec c s = .next t) : QueueKept t := by
  by_cases hb : isReset c = false ∧ (commandBlocks c).contains .fsu = false
  · exact queueKept_congr (fsu_of_changes (exec_changes hb.1 h) (by simpa using hb.2)) hs
  · have port {p : Port} {n : Nat} (status : Status) (fs : List Byte) (u : State) (hu : QueueKept u) :
        QueueKept (answered p n status fs u) := queueKept_congr (s := u) rfl hu
    cases c with
    | setFieldLine => exact serve_keeps hs port (fun _ _ => setFieldLine_queueKept hs) h
    | setSlot => exact serve_keeps hs port (fun _ _ => setSlot_queueKept hs) h
    | enableSlot => exact serve_keeps hs port (fun _ _ => enableSlot_queueKept hs) h
    | disableSlot => exact serve_keeps hs port (fun _ _ => disableSlot_queueKept hs) h
    | writeScript => exact serve_keeps hs port (fun _ _ => writeScript_queueKept hs) h
    | lineEngineTake => exact unlessHeld_keeps hs (engineTake_queueKept hs) h
    | requestTransmitted => exact unlessHeld_keeps hs (requestSent_queueKept hs) h
    | dataReply => exact dataReply_queueKept hs h
    | doneReply => exact doneReply_queueKept hs h
    | errorReply => exact errorReply_queueKept hs h
    | badReplyFrame => exact badReplyFrame_queueKept hs h
    | replyWindowExpiry => exact replyWindowExpiry_queueKept hs h
    | resetPart =>
      exact serve_keeps hs port (fun _ _ e => by obtain ⟨rfl, -⟩ := Answer.taken.inj e; exact takeReset_queueKept _ _ s) h
    | powerOn => obtain rfl := Host.Outcome.next.inj h; exact takeReset_queueKept _ _ s
    | pin =>
      obtain rfl := Host.Outcome.next.inj h
      unfold releasePin
      split
      · exact queueKept_congr (s := s) rfl hs
      · exact takeReset_queueKept _ _ s
    | _ => exact absurd ⟨rfl, rfl⟩ hb

/-- Settles O57: a command that touches the line keeps an entry for each polled slot, any other command and 1 ms leave the FSU as it is. -/
theorem stepKeepsPollQueue : Obligations.StepKeepsPollQueue := by
  intro s t hs h
  unfold step at h
  split at h
  · next c rest _ => exact exec_queueKept (queueKept_congr (s := s) (t := s.withPending rest) rfl hs) h
  · obtain rfl := Host.Outcome.next.inj h
    exact queueKept_congr (fsu_of_changes (idle_changes s) (by decide)) hs

end Sys2Proof.Machine

/-! SUPPORT. The settings of the part as one record, and what every operation shared by the events leaves of them: all of it. -/

namespace Sys2Proof.Machine

open Sys2Proof.Safety

/-! ### What stepping leaves of a train (R122 to R129) -/

/-- A train without the items that its stepping moves: two trains that agree here differ by steps alone. -/
def standing (t : Train) : Train :=
  { t.noDeadlines with
    bank := 0, pendingBank := none, tower := .a, state := .off, stepIndex := 0, parkRequest := false, cycles := 0 }

section
variable (banks : Vector (Vector BankEntry 24) 2) (now : Nat) (d : SiteDirection) (t : Train)

theorem standing_enterWritten (r : StepRecord) : standing (enterWritten now r t) = standing t := by
  unfold enterWritten
  dsimp only
  split <;> rfl

theorem standing_enterStep : standing (enterStep banks now t) = standing t := by
  unfold enterStep
  split
  · exact standing_enterWritten now t _
  · dsimp only
    split
    · rw [standing_enterWritten]
      rfl
    · rfl
  · rfl

theorem standing_endStep : standing (endStep banks now t) = standing t := by
  unfold endStep
  dsimp only
  split
  · rfl
  · rw [standing_enterStep]
    rfl

theorem standing_resume : standing (resume d banks now t) = standing t := by
  unfold resume
  split
  · exact standing_enterStep banks now t
  · rfl

theorem standing_followAllowed (was is : Bool) : standing (followAllowed was is d banks now t) = standing t := by
  unfold followAllowed
  split
  · split <;> rfl
  · split
    · rw [standing_resume]
      rfl
    · rfl

end

/-! ### The record of settings -/

/-- What R71, R115, R118 and the others call settings, block by block. -/
structure Settings where
  window : Nat
  slots : Fin 16 → SlotSettings
  script : Vector ScriptEntry 64
  points : Fin 7 → Nat × Nat × Nat
  beta : Vector Nat 4
  cvDefault : Nat
  cvSource : Option Binding
  levels : Fin 56 → Nat
  derate : Vector Percent 7
  thresholds : Nat × Nat
  caverns : Fin 4 → Nat × Nat × Nat × Nat × Nat
  site : SiteSettings
  duty : DutySettings
  trains : Fin 2 → Option Binding × Int × Int × Nat
  banks : Vector (Vector BankEntry 24) 2
  lead : Nat
  pendingLead : Option Nat
  ratchets : List RatchetPoint × List RatchetPoint

def pointSettings (p : Point) : Nat × Nat × Nat := (p.weight, p.ceiling, p.capacity)
def cavernSettings (c : Cavern) : Nat × Nat × Nat × Nat × Nat := (c.pmin, c.pmax, c.hysteresis, c.injectionRate, c.withdrawalRate)
def trainSettings (t : Train) : Option Binding × Int × Int × Nat := (t.binding, t.breakthrough, t.specLimit, t.hysteresis)

/-- The settings of a part. -/
def settingsOf (s : State) : Settings :=
  { window := s.fsu.window, slots := fun n => (slotOf s n).settings, script := s.fsu.script
    points := fun k => pointSettings (pointOf s k), beta := s.mtu.beta, cvDefault := s.mtu.cvDefault, cvSource := s.mtu.cvSource
    levels := fun n => (nth s.cdt.conditions n).level, derate := s.cdt.derate
    thresholds := (s.cdt.ops.threshold, s.cdt.com.threshold)
    caverns := fun k => cavernSettings (cavernOf s k), site := s.dir.site, duty := s.cpd.settings
    trains := fun d => trainSettings (trainOf s d), banks := s.dsq.banks
    lead := s.nfu.lead, pendingLead := s.nfu.pendingLead, ratchets := (s.nfu.injectionRatchet, s.nfu.withdrawalRatchet) }

/-- The ranges of the settings rest on the settings alone. -/
theorem settingsInRange_congr {s t : State} (h : settingsOf t = settingsOf s) (hs : SettingsInRange s) : SettingsInRange t := by
  have slots (n : Fin 16) : (slotOf t n).settings = (slotOf s n).settings := congrFun (congrArg Settings.slots h) n
  have points (k : Fin 7) := congrFun (congrArg Settings.points h) k
  have caverns (k : Fin 4) := congrFun (congrArg Settings.caverns h) k
  have trains (d : Fin 2) := congrFun (congrArg Settings.trains h) d
  have levels (n : Fin 56) : (nth t.cdt.conditions n).level = (nth s.cdt.conditions n).level := congrFun (congrArg Settings.levels h) n
  have thresholds := congrArg Settings.thresholds h
  have ratchets := congrArg Settings.ratchets h
  have window : t.fsu.window = s.fsu.window := congrArg Settings.window h
  have script : t.fsu.script = s.fsu.script := congrArg Settings.script h
  have beta : t.mtu.beta = s.mtu.beta := congrArg Settings.beta h
  have cvDefault : t.mtu.cvDefault = s.mtu.cvDefault := congrArg Settings.cvDefault h
  have cvSource : t.mtu.cvSource = s.mtu.cvSource := congrArg Settings.cvSource h
  have derate : t.cdt.derate = s.cdt.derate := congrArg Settings.derate h
  have site : t.dir.site = s.dir.site := congrArg Settings.site h
  have duty : t.cpd.settings = s.cpd.settings := congrArg Settings.duty h
  have banks : t.dsq.banks = s.dsq.banks := congrArg Settings.banks h
  have lead : t.nfu.lead = s.nfu.lead := congrArg Settings.lead h
  have pendingLead : t.nfu.pendingLead = s.nfu.pendingLead := congrArg Settings.pendingLead h
  simp only [settingsOf, pointSettings, cavernSettings, trainSettings, Prod.mk.injEq] at points caverns trains thresholds ratchets
  obtain ⟨ops, com⟩ := thresholds
  obtain ⟨injection, withdrawal⟩ := ratchets
  refine ⟨by rw [window]; exact hs.window, fun n => by rw [slots]; exact hs.slots n, by rw [script]; exact hs.script, fun k => ?_,
    by rw [beta]; exact hs.beta, by rw [cvDefault, cvSource]; exact hs.cv, fun n => by rw [levels]; exact hs.levels n,
    by rw [derate]; exact hs.derate, fun p => ?_, fun k => ?_, by rw [site]; exact hs.site, by rw [duty]; exact hs.duty, fun d => ?_,
    by rw [banks]; exact hs.banks, by rw [lead, pendingLead]; exact hs.lead, by rw [injection, withdrawal]; exact hs.ratchets⟩
  · obtain ⟨weight, ceiling, capacity⟩ := points k
    rw [weight, ceiling, capacity]
    exact hs.points k
  · cases p
    · exact ops ▸ hs.thresholds .ops
    · exact com ▸ hs.thresholds .com
  · obtain ⟨pmin, pmax, hysteresis, inRate, outRate⟩ := caverns k
    rw [pmin, pmax, hysteresis, inRate, outRate]
    exact hs.caverns k
  · obtain ⟨binding, breakthrough, specLimit, hysteresis⟩ := trains d
    rw [binding, breakthrough, specLimit, hysteresis]
    exact hs.trains d

/-! ### Settings and blocks -/

section
variable {s t : State}

/-- The blocks that hold no setting. -/
theorem settingsOf_of_changes {l : List Block} (h : ChangesOnly l s t)
    (hl : ∀ b ∈ [Block.fsu, .mtu, .cdt, .dir, .cpd, .dsq, .nfu], b ∉ l) : settingsOf t = settingsOf s := by
  have fsu : s.fsu = t.fsu := h .fsu (hl _ (by decide))
  have mtu : s.mtu = t.mtu := h .mtu (hl _ (by decide))
  have cdt : s.cdt = t.cdt := h .cdt (hl _ (by decide))
  have dir : s.dir = t.dir := h .dir (hl _ (by decide))
  have cpd : s.cpd = t.cpd := h .cpd (hl _ (by decide))
  have dsq : s.dsq = t.dsq := h .dsq (hl _ (by decide))
  have nfu : s.nfu = t.nfu := h .nfu (hl _ (by decide))
  simp only [settingsOf, slotOf, pointOf, cavernOf, trainOf, fsu, mtu, cdt, dir, cpd, dsq, nfu]

@[simp] theorem settingsOf_withClock (x : Clock) : settingsOf (s.withClock x) = settingsOf s := rfl
@[simp] theorem settingsOf_withFine (x : Nat) : settingsOf (s.withFine x) = settingsOf s := rfl
@[simp] theorem settingsOf_withFreeReads (x : Nat) : settingsOf (s.withFreeReads x) = settingsOf s := rfl
@[simp] theorem settingsOf_withAct (x : Act) : settingsOf (s.withAct x) = settingsOf s := rfl
@[simp] theorem settingsOf_withCau (x : Cau) : settingsOf (s.withCau x) = settingsOf s := rfl
@[simp] theorem settingsOf_withPif (x : Pif) : settingsOf (s.withPif x) = settingsOf s := rfl

theorem settingsOf_alterSlot (n : Fin 16) {f : Slot → Slot} (hf : ∀ sl, (f sl).settings = sl.settings := by intro _; rfl) :
    settingsOf (alterSlot n f s) = settingsOf s := by
  have slots (m : Fin 16) : (slotOf (alterSlot n f s) m).settings = (slotOf s m).settings := by
    rw [slotOf_alterSlot]
    split
    · exact hf _
    · rfl
  unfold settingsOf
  simp only [slots]
  rfl

theorem settingsOf_alterPoint (k : Fin 7) {f : Point → Point} (hf : ∀ p, pointSettings (f p) = pointSettings p := by intro _; rfl) :
    settingsOf (alterPoint k f s) = settingsOf s := by
  have points (j : Fin 7) : pointSettings (pointOf (alterPoint k f s) j) = pointSettings (pointOf s j) := by
    by_cases hj : j = k
    · subst hj; rw [pointOf_alterPoint_same, hf]
    · rw [pointOf_alterPoint_other _ _ hj]
  unfold settingsOf
  simp only [points]
  rfl

theorem settingsOf_alterCavern (k : Fin 4) {f : Cavern → Cavern}
    (hf : ∀ c, cavernSettings (f c) = cavernSettings c := by intro _; rfl) :
    settingsOf (alterCavern k f s) = settingsOf s := by
  have caverns (j : Fin 4) : cavernSettings (cavernOf (alterCavern k f s) j) = cavernSettings (cavernOf s j) := by
    by_cases hj : j = k
    · subst hj; rw [cavernOf_alterCavern_same, hf]
    · rw [cavernOf_alterCavern_other _ _ hj]
  unfold settingsOf
  simp only [caverns]
  rfl

theorem settingsOf_alterTrain (d : Fin 2) {f : Train → Train} (hf : ∀ t, trainSettings (f t) = trainSettings t := by intro _; rfl) :
    settingsOf (alterTrain d f s) = settingsOf s := by
  have trains (e : Fin 2) : trainSettings (trainOf (alterTrain d f s) e) = trainSettings (trainOf s e) := by
    by_cases he : e = d
    · subst he; rw [trainOf_alterTrain_same, hf]
    · rw [trainOf_alterTrain_other _ _ he]
  unfold settingsOf
  simp only [trains]
  rfl

@[simp] theorem settingsOf_alterUnit (u : Fin 4) (f : UnitRecord → UnitRecord) : settingsOf (alterUnit u f s) = settingsOf s := rfl

@[simp] theorem settingsOf_alterHour (p : Fin 72) (f : HourCell → HourCell) : settingsOf (alterHour p f s) = settingsOf s := rfl

/-- Trains that have only stepped keep their settings. -/
theorem trainSettings_of_standing {t t' : Train} (h : standing t' = standing t) : trainSettings t' = trainSettings t :=
  show trainSettings (standing t') = trainSettings (standing t) by rw [h]

/-- A walk that keeps the settings in every pass. -/
theorem settingsOf_overFin {n : Nat} {f : Fin n → State → State} (h : ∀ i s, settingsOf (f i s) = settingsOf s) (s : State) :
    settingsOf (overFin n f s) = settingsOf s :=
  overFin_keeps (fun t => settingsOf t = settingsOf s) f (fun i t ht => (h i t).trans ht) rfl

end

/-! ### Conditions and hours -/

section
variable (s : State)

theorem level_follow (c : Cdt) (n m : Fin 56) (a : Bool) : (nth (c.follow n a).conditions m).level = (nth c.conditions m).level := by
  unfold Cdt.follow
  split
  · rfl
  · simp only [Cdt.formAgain, nth_alter]
    split
    · cases a <;> rfl
    · rfl

theorem derate_follow (c : Cdt) (n : Fin 56) (a : Bool) : (c.follow n a).derate = c.derate := by
  unfold Cdt.follow
  split <;> rfl

@[simp] theorem settingsOf_follow (n : Fin 56) (a : Bool) : settingsOf (s.withCdt (s.cdt.follow n a)) = settingsOf s := by
  unfold settingsOf
  simp only [State.withCdt_cdt, level_follow, derate_follow, follow_ops, follow_com]
  rfl

@[simp] theorem settingsOf_setEventCom (e : Fin 4) : settingsOf (setEventCom e s) = settingsOf s := rfl
@[simp] theorem settingsOf_setEventOps (e : Fin 4) : settingsOf (setEventOps e s) = settingsOf s := rfl

@[simp] theorem settingsOf_refirm : settingsOf (refirm s) = settingsOf s := by
  unfold refirm
  dsimp only
  split <;> rfl

@[simp] theorem settingsOf_report (n : Fin 56) (a : Bool) : settingsOf (report n a s) = settingsOf s := by
  unfold report
  dsimp only
  split
  · rw [settingsOf_refirm, settingsOf_follow]
  · exact settingsOf_follow s n a

theorem settingsOf_takeReports (fuel : Nat) (l : List (Fin 56 × Bool)) : settingsOf (takeReports fuel l s) = settingsOf s := by
  induction fuel generalizing l s with
  | zero => rfl
  | succ fuel ih =>
    match l with
    | [] => rfl
    | [r] => exact settingsOf_report s r.1 r.2
    | a :: b :: rest =>
      simp only [takeReports]
      split
      · rw [ih, settingsOf_report, settingsOf_withFreeReads]
      · rfl

@[simp] theorem settingsOf_reportAll (l : List (Fin 56 × Bool)) : settingsOf (reportAll l s) = settingsOf s :=
  settingsOf_takeReports s _ _

@[simp] theorem settingsOf_firm (p : Fin 72) : settingsOf (firm p s) = settingsOf s := by
  unfold firm
  split <;> rfl

@[simp] theorem settingsOf_firmAtZero (p : Fin 72) : settingsOf (firmAtZero p s) = settingsOf s := by
  unfold firmAtZero
  split <;> rfl

@[simp] theorem settingsOf_firmRun (start count : Nat) : settingsOf (firmRun start count s) = settingsOf s := by
  induction count generalizing start s with
  | zero => rfl
  | succ count ih =>
    unfold firmRun
    split
    · rw [ih, settingsOf_firm]
    · rfl

/-! ### Metering -/

@[simp] theorem settingsOf_setMeterFlags (toHour : Bool) (f : MeterFlags) : settingsOf (setMeterFlags toHour f s) = settingsOf s := by
  unfold setMeterFlags
  split <;> rfl

@[simp] theorem settingsOf_bookGap (toHour : Bool) (k : Fin 7) : settingsOf (bookGap toHour k s) = settingsOf s := by
  unfold bookGap
  split
  · rfl
  · dsimp only
    rw [settingsOf_setMeterFlags]
    exact settingsOf_alterPoint k

@[simp] theorem settingsOf_closeGap (k : Fin 7) : settingsOf (closeGap k s) = settingsOf s :=
  (settingsOf_alterPoint k).trans (settingsOf_bookGap s _ k)

@[simp] theorem settingsOf_openGapOf (n : Fin 16) : settingsOf (openGapOf n s) = settingsOf s := by
  unfold openGapOf
  split
  · exact settingsOf_alterPoint _
  · rfl

@[simp] theorem settingsOf_disablePoint (n : Fin 16) : settingsOf (disablePoint n s) = settingsOf s := by
  unfold disablePoint
  split
  · exact (settingsOf_alterPoint _).trans (settingsOf_closeGap s _)
  · rfl

@[simp] theorem settingsOf_unbindPoint (k : Fin 7) : settingsOf (unbindPoint k s) = settingsOf s :=
  (settingsOf_alterPoint k).trans (settingsOf_closeGap s k)

@[simp] theorem settingsOf_goodReading (k : Fin 7) (n : Fin 16) (recovered : Bool) :
    settingsOf (goodReading k n recovered s) = settingsOf s := by
  unfold goodReading processDirections
  dsimp only
  rw [settingsOf_setMeterFlags]
  refine (settingsOf_alterPoint k).trans ?_
  split
  · exact settingsOf_closeGap s k
  · rfl

/-- The points of the metering unit rebuilt from what they were. -/
theorem settingsOf_withMtu {x : Mtu} (hp : ∀ k, pointSettings (nth x.points k) = pointSettings (pointOf s k)) (hb : x.beta = s.mtu.beta)
    (hd : x.cvDefault = s.mtu.cvDefault) (hc : x.cvSource = s.mtu.cvSource) : settingsOf (s.withMtu x) = settingsOf s := by
  unfold settingsOf
  simp only [pointOf, State.withMtu_mtu, hb, hd, hc]
  simp only [hp]
  rfl

@[simp] theorem settingsOf_mergeUnclocked : settingsOf (mergeUnclocked s) = settingsOf s := by
  have booked : settingsOf (overFin 7 (fun k s => bookGap false k s) s) = settingsOf s :=
    settingsOf_overFin (fun k t => settingsOf_bookGap t _ k) s
  unfold mergeUnclocked
  dsimp only
  rw [settingsOf_setMeterFlags, ← booked]
  generalize overFin 7 (fun k s => bookGap false k s) s = u
  refine settingsOf_withMtu u (fun k => ?_) rfl rfl rfl
  rw [nth_tab]
  rfl

@[simp] theorem settingsOf_latchCv : settingsOf (latchCv s) = settingsOf s := by
  unfold latchCv
  dsimp only
  split
  · rw [settingsOf_report]; rfl
  · split
    · rw [settingsOf_report]; rfl
    · rw [settingsOf_report, settingsOf_setMeterFlags]; rfl

/-! ### Direction, units and trains -/

@[simp] theorem settingsOf_evaluateBand (k : Fin 4) : settingsOf (evaluateBand k s) = settingsOf s := settingsOf_alterCavern k

@[simp] theorem settingsOf_bandsFollow (before : State) : settingsOf (bandsFollow before s) = settingsOf s :=
  settingsOf_overFin (fun k t => by split; rfl; exact settingsOf_evaluateBand t k) s

theorem settings_stopSurplus (now demand fuel : Nat) (c : Cpd) : (stopSurplus now demand fuel c).settings = c.settings := by
  induction fuel generalizing c with
  | zero => rfl
  | succ fuel ih =>
    unfold stopSurplus
    split
    · split
      · exact ih _
      · rfl
    · rfl

theorem settings_startOne (now demand : Nat) (c : Cpd) : (startOne now demand c).settings = c.settings := by
  unfold startOne
  split
  · split <;> rfl
  · rfl

/-- The CPD holds no setting but its duty settings. -/
theorem settingsOf_withCpd {x : Cpd} (h : x.settings = s.cpd.settings) : settingsOf (s.withCpd x) = settingsOf s := by
  unfold settingsOf
  simp only [State.withCpd_cpd, h]
  rfl

@[simp] theorem settingsOf_evaluate : settingsOf (evaluate s) = settingsOf s :=
  settingsOf_withCpd s ((settings_startOne _ _ _).trans (settings_stopSurplus _ _ _ _))

@[simp] theorem settingsOf_leaveInjecting : settingsOf (leaveInjecting s) = settingsOf s := rfl

/-- Every train changed, its settings kept. -/
theorem settingsOf_trains {x : Vector Train 2} (h : ∀ d, trainSettings (nth x d) = trainSettings (trainOf s d)) :
    settingsOf (s.withDsq { s.dsq with trains := x }) = settingsOf s := by
  unfold settingsOf
  simp only [trainOf, State.withDsq_dsq]
  simp only [h]
  rfl

@[simp] theorem settingsOf_dryersFollow (old new : SiteDirection) : settingsOf (dryersFollow old new s) = settingsOf s :=
  settingsOf_trains s fun d => by
    rw [nth_each]
    exact trainSettings_of_standing (standing_followAllowed _ _ _ _ _ _)

@[simp] theorem settingsOf_changeDirection (new : SiteDirection) : settingsOf (changeDirection new s) = settingsOf s := by
  unfold changeDirection
  dsimp only
  rw [settingsOf_report, settingsOf_dryersFollow]
  split <;> split <;> simp only [settingsOf_evaluate, settingsOf_leaveInjecting, settingsOf_setEventOps] <;> rfl

@[simp] theorem settingsOf_testCompletion : settingsOf (testCompletion s) = settingsOf s := by
  unfold testCompletion
  split
  · split
    · exact settingsOf_changeDirection s _
    · rfl
  · rfl

@[simp] theorem settingsOf_unitsReported (before : State) : settingsOf (unitsReported before s) = settingsOf s := by
  unfold unitsReported
  split
  · rfl
  · exact settingsOf_testCompletion s

@[simp] theorem settingsOf_quietReported (before : State) : settingsOf (quietReported before s) = settingsOf s := by
  unfold quietReported
  split
  · rfl
  · exact settingsOf_testCompletion s

@[simp] theorem settingsOf_dutyEvaluation : settingsOf (dutyEvaluation s) = settingsOf s := by
  rw [dutyEvaluation, settingsOf_unitsReported, settingsOf_evaluate]

@[simp] theorem settingsOf_takeTarget (p : Fin 72) : settingsOf (takeTarget p s) = settingsOf s := by
  unfold takeTarget
  dsimp only
  split
  · rfl
  · rw [settingsOf_unitsReported, settingsOf_changeDirection]

@[simp] theorem settingsOf_overrun (c : Changeover) : settingsOf (overrun c s) = settingsOf s := settingsOf_report _ _ _

@[simp] theorem settingsOf_faultUnit (cause : UnitCause) (u : Fin 4) : settingsOf (faultUnit cause u s) = settingsOf s := by
  unfold faultUnit
  dsimp only
  split <;> simp

@[simp] theorem settingsOf_changeUnit (u : Fin 4) (f : UnitRecord → UnitRecord) (evaluates : Bool) :
    settingsOf (changeUnit u f evaluates s) = settingsOf s := by
  unfold changeUnit
  dsimp only
  split <;> simp

@[simp] theorem settingsOf_leaveFaulted (u : Fin 4) (leave : UnitRecord → UnitRecord) :
    settingsOf (leaveFaulted u leave s) = settingsOf s := by
  unfold leaveFaulted
  simp

@[simp] theorem settingsOf_resumeTrain (d : Fin 2) : settingsOf (resumeTrain d s) = settingsOf s :=
  settingsOf_alterTrain d fun _ => trainSettings_of_standing (standing_resume _ _ _ _)

@[simp] theorem settingsOf_endStepOf (d : Fin 2) : settingsOf (endStepOf d s) = settingsOf s :=
  settingsOf_alterTrain d fun _ => trainSettings_of_standing (standing_endStep _ _ _)

@[simp] theorem settingsOf_faultTrain (cause : TrainCause) (d : Fin 2) : settingsOf (faultTrain cause d s) = settingsOf s := by
  unfold faultTrain
  rw [settingsOf_setEventOps, settingsOf_report]
  exact settingsOf_alterTrain d

@[simp] theorem settingsOf_breakthrough (value : Int) (d : Fin 2) : settingsOf (breakthrough value d s) = settingsOf s := by
  unfold breakthrough
  split
  · split
    · rw [settingsOf_endStepOf]
      exact settingsOf_alterTrain d
    · rfl
  · rfl

@[simp] theorem settingsOf_judgeReading (value : Int) (d : Fin 2) : settingsOf (judgeReading d value s) = settingsOf s :=
  settingsOf_alterTrain d fun r => by split <;> rfl

@[simp] theorem settingsOf_judgeFresh (d : Fin 2) : settingsOf (judgeFresh d s) = settingsOf s := settingsOf_alterTrain d

@[simp] theorem settingsOf_dewPointsLost (n : Fin 16) : settingsOf (dewPointsLost n s) = settingsOf s :=
  settingsOf_overFin (fun d t => by
    split
    · exact settingsOf_alterTrain d
    · rfl) s

@[simp] theorem settingsOf_channelsLost (n : Fin 16) (before : State) : settingsOf (channelsLost n before s) = settingsOf s := by
  rw [channelsLost, settingsOf_dewPointsLost, settingsOf_bandsFollow]

/-! ### The field line -/

@[simp] theorem settingsOf_queueEntry (e : Entry) : settingsOf (queueEntry e s) = settingsOf s := rfl
@[simp] theorem settingsOf_withdrawSlot (n : Fin 16) : settingsOf (withdrawSlot n s) = settingsOf s := rfl
@[simp] theorem settingsOf_receiverHeard : settingsOf (receiverHeard s) = settingsOf s := rfl

@[simp] theorem settingsOf_bytesHeard (received : List Byte) : settingsOf (bytesHeard received s) = settingsOf s := by
  rcases bytesHeard_cases received s with h | h <;> rw [h]
  rfl

@[simp] theorem settingsOf_scheduleVisit (n : Fin 16) (time : Nat) : settingsOf (scheduleVisit n time s) = settingsOf s := by
  rw [scheduleVisit, settingsOf_queueEntry]
  exact settingsOf_alterSlot n

@[simp] theorem settingsOf_scheduleNext (n : Fin 16) : settingsOf (scheduleNext n s) = settingsOf s :=
  (settingsOf_scheduleVisit _ n _).trans (settingsOf_alterSlot n)

@[simp] theorem settingsOf_slotEventEnds (before : State) (n : Fin 16) : settingsOf (slotEventEnds before n s) = settingsOf s := by
  rw [slotEventEnds, settingsOf_quietReported, settingsOf_reportAll]

@[simp] theorem settingsOf_failVisit (n : Fin 16) : settingsOf (failVisit n s) = settingsOf s := by
  have failed : settingsOf (alterSlot n failedSlot s) = settingsOf s := settingsOf_alterSlot n
  rw [failVisit_eq, settingsOf_slotEventEnds, settingsOf_scheduleNext, settingsOf_bandsFollow]
  unfold gapAfterFailure
  split
  · rw [settingsOf_openGapOf, failed]
  · exact failed

@[simp] theorem settingsOf_faultSlot (n : Fin 16) (code : Nat) : settingsOf (faultSlot n code s) = settingsOf s := by
  rw [faultSlot_eq, settingsOf_slotEventEnds, settingsOf_bandsFollow]
  unfold gapAfterFault
  dsimp only
  split
  · exact settingsOf_alterSlot n
  · rw [settingsOf_openGapOf]
    exact settingsOf_alterSlot n

@[simp] theorem settingsOf_meterTakes (n : Fin 16) (recovered : Bool) : settingsOf (meterTakes n recovered s) = settingsOf s := by
  unfold meterTakes
  split
  · exact settingsOf_goodReading s _ n recovered
  · rfl

@[simp] theorem settingsOf_cavernsTake (n : Fin 16) : settingsOf (cavernsTake n s) = settingsOf s :=
  settingsOf_overFin (fun k t => by
    split
    · exact settingsOf_evaluateBand t k
    · rfl) s

@[simp] theorem settingsOf_dryersTake (n : Fin 16) : settingsOf (dryersTake n s) = settingsOf s :=
  settingsOf_overFin (fun d t => by
    split
    · exact (settingsOf_breakthrough _ _ d).trans (settingsOf_judgeReading t _ d)
    · rfl) s

@[simp] theorem settingsOf_succeedVisit (n : Fin 16) (words : List WordBytes) : settingsOf (succeedVisit n words s) = settingsOf s := by
  rw [succeedVisit_eq, settingsOf_slotEventEnds, readScheduled, settingsOf_scheduleNext]
  refine (settingsOf_alterSlot n).trans ?_
  rw [readHanded, settingsOf_dryersTake, settingsOf_cavernsTake, settingsOf_meterTakes]
  exact settingsOf_alterSlot n

@[simp] theorem settingsOf_restartSlot (n : Fin 16) : settingsOf (restartSlot n s) = settingsOf s := by
  rw [restartSlot_eq, settingsOf_slotEventEnds, settingsOf_scheduleVisit, settingsOf_channelsLost]
  exact settingsOf_alterSlot n

@[simp] theorem settingsOf_enable (n : Fin 16) : settingsOf (enable n s) = settingsOf s := by
  rw [enable_eq, settingsOf_slotEventEnds, settingsOf_scheduleVisit, settingsOf_channelsLost]
  exact settingsOf_alterSlot n

@[simp] theorem settingsOf_disable (n : Fin 16) : settingsOf (disable n s) = settingsOf s := by
  rw [disable_eq, settingsOf_slotEventEnds, settingsOf_channelsLost]
  refine (settingsOf_alterSlot n).trans ?_
  rw [settingsOf_withdrawSlot, settingsOf_disablePoint]

end

end Sys2Proof.Machine

/-! SUPPORT. Every step keeps every setting in the range its rule gives: a request stores what passes its checks, every other command leaves
the settings as they are. -/

namespace Sys2Proof.Machine

open Sys2Proof.Safety

/-! ### Numbers in the fields -/

/-- A number of two bytes is a word. -/
theorem num_isWord (fields : List Byte) (start : Nat) : isWord (num fields start 2) := num_lt fields start 2

/-- A signed number of two bytes. -/
theorem snum_word (fields : List Byte) (start : Nat) : -32768 ≤ snum fields start 2 ∧ snum fields start 2 ≤ 32767 := by
  have h : num fields start 2 < 65536 := num_lt fields start 2
  unfold snum
  dsimp only
  split
  · next hn => simp only [show (256 : Nat) ^ 2 = 65536 from rfl] at hn; omega
  · next hn => simp only [show (256 : Nat) ^ 2 = 65536 from rfl] at hn ⊢; omega

/-- The settings of a slot that pass check 2 of R20 lie in the ranges of R19. -/
theorem thresholdInRange_iff (channels : List ChannelSetting) (th : Threshold) :
    thresholdInRange channels th = true ↔
      ∃ x ∈ channels[th.channel]?, formatLow x.format ≤ th.lower ∧ th.lower < th.upper ∧ th.upper ≤ formatHigh x.format := by
  unfold thresholdInRange
  split
  · next c hc =>
    have holds : (c.format.holds th.upper && c.format.holds th.lower && decide (th.lower < th.upper)) = true
        ↔ formatLow c.format ≤ th.lower ∧ th.lower < th.upper ∧ th.upper ≤ formatHigh c.format := by
      cases c.format <;> simp only [Format.holds, formatLow, formatHigh, Bool.and_eq_true, decide_eq_true_eq] <;> omega
    simp only [hc, Option.mem_some_iff, exists_eq_left', holds]
  · next hc => simp [hc]

theorem channelsFit_iff (channels : List ChannelSetting) (wordCount : Nat) :
    (channels.all fun x => decide (x.offset + x.format.words ≤ wordCount)) = true
      ↔ ∀ x ∈ channels, x.offset + (if x.format = .u32 then 2 else 1) ≤ wordCount := by
  have words (f : Format) : f.words = if f = .u32 then 2 else 1 := by cases f <;> rfl
  simp only [List.all_eq_true, decide_eq_true_eq, words]

theorem slotSettings_inRange_iff (c : SlotSettings) : c.inRange = true ↔ slotSettingsInRange c := by
  obtain ⟨_, _, _, _, _, _, _, _, _, _, _, _, _, _, threshold⟩ := c
  cases threshold with
  | none =>
    simp only [SlotSettings.inRange, Bool.and_eq_true, channelsFit_iff, decide_eq_true_eq, slotSettingsInRange, and_assoc,
      Option.mem_def, reduceCtorEq, false_imp_iff, implies_true]
  | some th =>
    simp only [SlotSettings.inRange, Bool.and_eq_true, channelsFit_iff, decide_eq_true_eq, slotSettingsInRange, and_assoc,
      thresholdInRange_iff, Option.mem_some_iff, forall_eq']

/-- The numbers that the form of a SET-SLOT frame keeps in their ranges. -/
theorem readSlotSettings_words {fields : List Byte} {c : SlotSettings} (h : readSlotSettings fields = some c) :
    isWord c.startRegister ∧ isWord c.statusRegister ∧ c.settle ≤ 255 := by
  simp only [readSlotSettings, Option.bind_eq_bind, Option.bind_eq_some_iff, Option.pure_def, Option.some.injEq] at h
  obtain ⟨-, -, -, -, -, -, rfl⟩ := h
  exact ⟨num_isWord _ _, num_isWord _ _, Nat.lt_succ_iff.mp (num_lt fields _ 1)⟩

/-! ### A block of settings stored -/

section
variable {s : State}

theorem settingsInRange_withFsu {x : Fsu} (hs : SettingsInRange s) (hw : 5 ≤ x.window ∧ x.window ≤ 200)
    (hn : ∀ n, slotInRange (nth x.slots n).settings)
    (hi : ∀ i, isWord (nth x.script i).register ∧ isWord (nth x.script i).value) : SettingsInRange (s.withFsu x) :=
  { hs with window := hw, slots := hn, script := hi }

theorem settingsInRange_withCdt {x : Cdt} (hs : SettingsInRange s) (hl : ∀ n, (nth x.conditions n).level ≤ 7)
    (hd : derateInRange x.derate) (ht : ∀ p, 1 ≤ (x.alertOf p).threshold ∧ (x.alertOf p).threshold ≤ 7) :
    SettingsInRange (s.withCdt x) :=
  { hs with levels := hl, derate := hd, thresholds := ht }

theorem settingsInRange_withMtu {x : Mtu} (hs : SettingsInRange s) (hp : x.points = s.mtu.points) (hb : ∀ i, nth x.beta i ≤ 1023)
    (hc : 8000 ≤ x.cvDefault ∧ x.cvDefault ≤ 13500 ∧ bindingInRange x.cvSource) : SettingsInRange (s.withMtu x) :=
  { hs with points := fun k => by rw [pointOf, State.withMtu_mtu, hp]; exact hs.points k, beta := hb, cv := hc }

/-- A slot's settings stored. -/
theorem settingsInRange_storeSlot {c : SlotSettings} (hs : SettingsInRange s) (n : Fin 16) (hc : slotInRange c) :
    SettingsInRange (alterSlot n (fun sl => { sl with settings := c }) s) := by
  refine { hs with slots := fun m => ?_ }
  rw [slotOf_alterSlot]
  split
  · exact hc
  · exact hs.slots m

/-- A point's settings stored, by their ranges of R41. -/
theorem settingsInRange_alterPoint {f : Point → Point} (hs : SettingsInRange s) (k : Fin 7)
    (hf : 1 ≤ (f (pointOf s k)).weight ∧ isWord (f (pointOf s k)).weight ∧ 1 ≤ (f (pointOf s k)).ceiling
      ∧ isWord (f (pointOf s k)).ceiling ∧ (f (pointOf s k)).capacity ≤ Config.maxRate
      ∧ (1 < k.val → (f (pointOf s k)).capacity = 0)) : SettingsInRange (alterPoint k f s) := by
  refine { hs with points := fun j => ?_ }
  by_cases hj : j = k
  · subst hj
    rw [pointOf_alterPoint_same]
    exact hf
  · rw [pointOf_alterPoint_other _ _ hj]
    exact hs.points j

theorem settingsInRange_alterCavern {f : Cavern → Cavern} (hs : SettingsInRange s) (k : Fin 4)
    (hf : cavernInRange (f (cavernOf s k)).pmin (f (cavernOf s k)).pmax (f (cavernOf s k)).hysteresis (f (cavernOf s k)).injectionRate
      (f (cavernOf s k)).withdrawalRate) : SettingsInRange (alterCavern k f s) := by
  refine { hs with caverns := fun j => ?_ }
  by_cases hj : j = k
  · subst hj
    rw [cavernOf_alterCavern_same]
    exact hf
  · rw [cavernOf_alterCavern_other _ _ hj]
    exact hs.caverns j

/-- The settings of a train lie in their ranges of R115. -/
abbrev trainInRange (t : Train) : Prop :=
  bindingInRange t.binding ∧ t.hysteresis ≤ 5000 ∧ -32768 ≤ t.breakthrough ∧ t.breakthrough ≤ 32767
    ∧ -32768 ≤ t.specLimit ∧ t.specLimit ≤ 32767

theorem settingsInRange_alterTrain {f : Train → Train} (hs : SettingsInRange s) (d : Fin 2) (hf : trainInRange (f (trainOf s d))) :
    SettingsInRange (alterTrain d f s) := by
  refine { hs with trains := fun e => ?_ }
  by_cases he : e = d
  · subst he
    rw [trainOf_alterTrain_same]
    exact hf
  · rw [trainOf_alterTrain_other _ _ he]
    exact hs.trains e

end

/-! ### The requests that store settings -/

section
variable {fields : List Byte} {s after : State} {payload : List Byte}

theorem setFieldLine_inRange (hs : SettingsInRange s) (h : setFieldLine fields s = .taken after payload) : SettingsInRange after := by
  unfold setFieldLine at h
  dsimp only at h
  split at h <;> cases h
  next hw => exact settingsInRange_withFsu hs (by simp only; omega) hs.slots hs.script

theorem writeEntries_words {count start i : Nat} {script : Vector ScriptEntry 64}
    (h : ∀ j, isWord (nth script j).register ∧ isWord (nth script j).value) (j : Fin 64) :
    isWord (nth (writeEntries fields count start i script) j).register
      ∧ isWord (nth (writeEntries fields count start i script) j).value := by
  induction count generalizing start i script with
  | zero => exact h j
  | succ count ih =>
    unfold writeEntries
    split
    · next x _ =>
      refine ih fun m => ?_
      rw [nth_put]
      split
      · exact ⟨num_isWord _ _, num_isWord _ _⟩
      · exact h m
    · exact h j

theorem writeScript_inRange (hs : SettingsInRange s) (h : writeScript fields s = .taken after payload) : SettingsInRange after := by
  unfold writeScript at h
  dsimp only at h
  split at h
  · cases h
  · split at h <;> cases h
    exact settingsInRange_withFsu hs hs.window hs.slots (writeEntries_words hs.script)

theorem setSlot_inRange (hs : SettingsInRange s) (h : setSlot fields s = .taken after payload) : SettingsInRange after := by
  unfold setSlot at h
  split at h
  · next n c _ hc =>
    split at h
    · cases h
    · next hr =>
      split at h <;> cases h
      have admitted : slotInRange c := ⟨(slotSettings_inRange_iff c).mp (by simpa using hr), readSlotSettings_words hc⟩
      have stored := settingsInRange_storeSlot hs n admitted
      split
      · exact stored
      · exact settingsInRange_congr (settingsOf_restartSlot _ n) stored
  · cases h

theorem setPoint_inRange (hs : SettingsInRange s) (h : setPoint fields s = .taken after payload) : SettingsInRange after := by
  unfold setPoint at h
  split at h
  · next k _ _ _ =>
    unfold configurePoint at h
    split at h
    · cases h
    · next slot _ =>
      dsimp only at h
      split at h
      · cases h
      · next hr =>
        simp only [Config.maxRate] at hr
        have ranges : 1 ≤ num fields 3 2 ∧ isWord (num fields 3 2) ∧ 1 ≤ num fields 5 2 ∧ isWord (num fields 5 2)
            ∧ num fields 7 4 ≤ Config.maxRate ∧ (1 < k.val → num fields 7 4 = 0) :=
          ⟨by omega, num_isWord _ _, by omega, num_isWord _ _, by simp only [Config.maxRate]; omega, by omega⟩
        split at h
        · cases h
        · split at h <;> cases h
          · exact settingsInRange_alterPoint hs k ranges
          · have bound (u : State) : settingsOf (bandOfPoint k u) = settingsOf u :=
              settingsOf_overFin (fun c v => by split; exact settingsOf_evaluateBand v c; rfl) u
            refine settingsInRange_congr (s := storePoint k slot (num fields 3 2) (num fields 5 2) (num fields 7 4) (unbindPoint k s)) ?_ ?_
            · unfold rebindPoint
              dsimp only
              rw [settingsOf_quietReported, settingsOf_reportAll, bound]
            · exact settingsInRange_alterPoint (settingsInRange_congr (settingsOf_unbindPoint s k) hs) k ranges
  · cases h

theorem setBeta_inRange (hs : SettingsInRange s) (h : setBeta fields s = .taken after payload) : SettingsInRange after := by
  unfold setBeta at h
  dsimp only at h
  split at h <;> cases h
  next hb =>
    refine settingsInRange_withMtu hs rfl (fun i => ?_) hs.cv
    rw [Bool.not_eq_true, someFin_eq_false] at hb
    simpa using hb i

theorem readBinding_inRange {b : Option Binding} (h : channelOutOfRange b = false) : bindingInRange b := by
  rintro x rfl
  simpa [channelOutOfRange] using h

theorem setCv_inRange (hs : SettingsInRange s) (h : setCv fields s = .taken after payload) : SettingsInRange after := by
  unfold setCv at h
  split at h
  · cases h
  · dsimp only at h
    split at h
    · cases h
    · next hcv =>
      split at h
      · cases h
      · next hb =>
        split at h <;> cases h
        exact settingsInRange_withMtu hs rfl hs.beta
          ⟨by simp only; omega, by simp only; omega, readBinding_inRange (Bool.eq_false_iff.mpr hb)⟩

/-- The ranges of the condition table, which an acknowledgement keeps entry by entry (R63, R71, R73). -/
structure TableInRange (c : Cdt) : Prop where
  levels : ∀ n, (nth c.conditions n).level ≤ 7
  derate : derateInRange c.derate
  thresholds : ∀ p, 1 ≤ (c.alertOf p).threshold ∧ (c.alertOf p).threshold ≤ 7

theorem applyAck_inRange {c : Cdt} (p : Port) {e : AckEntry} (hc : TableInRange c) (he : e.level.getD 0 ≤ 7) :
    TableInRange (applyAck p e c) := by
  refine ⟨fun n => ?_, hc.derate, fun q => by cases q <;> [exact hc.thresholds .ops; exact hc.thresholds .com]⟩
  have stands : (nth c.conditions n).level ≤ 7 := hc.levels n
  have acked (x : Condition) (hx : x.level ≤ 7) : e.level.getD x.level ≤ 7 := by
    cases hl : e.level with
    | none => exact hx
    | some l => rw [hl] at he; exact he
  simp only [applyAck, nth_alter]
  split
  · split
    · exact acked _ stands
    · exact acked _ stands
  · exact stands

theorem foldl_applyAck_inRange (p : Port) {entries : List AckEntry} {c : Cdt} (hc : TableInRange c)
    (he : ∀ e ∈ entries, e.level.getD 0 ≤ 7) : TableInRange (entries.foldl (fun c e => applyAck p e c) c) := by
  induction entries generalizing c with
  | nil => exact hc
  | cons e rest ih =>
    exact ih (applyAck_inRange p hc (he e List.mem_cons_self)) fun x hx => he x (List.mem_cons_of_mem e hx)

theorem acknowledge_inRange (p : Port) {entries : List AckEntry} (hs : SettingsInRange s) (he : ∀ e ∈ entries, e.level.getD 0 ≤ 7) :
    SettingsInRange (acknowledge p entries s) := by
  have table := foldl_applyAck_inRange p ⟨hs.levels, hs.derate, hs.thresholds⟩ he
  have stored : SettingsInRange (s.withCdt (entries.foldl (fun c e => applyAck p e c) s.cdt).formAgain) :=
    settingsInRange_withCdt hs table.levels table.derate fun q => by cases q <;> [exact table.thresholds .ops; exact table.thresholds .com]
  unfold acknowledge
  dsimp only
  split
  · exact settingsInRange_congr (settingsOf_refirm _) stored
  · exact stored

theorem ackConditions_inRange {p : Port} (hs : SettingsInRange s) (h : ackConditions p fields s = .taken after payload) :
    SettingsInRange after := by
  unfold ackConditions at h
  dsimp only at h
  split at h
  · cases h
  · split at h
    · cases h
    · split at h
      · cases h
      · split at h <;> cases h
        next hr =>
          refine acknowledge_inRange p hs fun e he => ?_
          rw [Bool.not_eq_true, List.any_eq_false] at hr
          simpa using hr e he

/-- Columns that do not rise from each class to the next, nor above 100 at class 1, meet R71. -/
theorem derateInRange_of_falls {table : Vector Percent 7} (h : fallsWithClass table = true) : derateInRange table := by
  simp only [fallsWithClass, allFin_eq_true, Bool.and_eq_true, decide_eq_true_eq] at h
  have first : (nth table 0).injection ≤ 100 ∧ (nth table 0).withdrawal ≤ 100 := by simpa [index?] using h 0
  have next (j : Fin 6) : (nth table j.succ).injection ≤ (nth table j.castSucc).injection
      ∧ (nth table j.succ).withdrawal ≤ (nth table j.castSucc).withdrawal := by
    have hj := h j.succ
    have above : index? 7 (j.succ.val - 1) = some j.castSucc := by
      rw [Fin.val_succ, Nat.add_sub_cancel, ← Fin.val_castSucc, index?_val]
    rw [above] at hj
    simpa only [if_neg (Fin.succ_ne_zero j)] using hj
  have injection : Antitone fun i : Fin 7 => (nth table i).injection := Fin.antitone_iff_succ_le.mpr fun j => (next j).1
  have withdrawal : Antitone fun i : Fin 7 => (nth table i).withdrawal := Fin.antitone_iff_succ_le.mpr fun j => (next j).2
  exact fun i => ⟨(injection (Fin.zero_le i)).trans first.1, (withdrawal (Fin.zero_le i)).trans first.2,
    fun j hij => ⟨injection hij.le, withdrawal hij.le⟩⟩

theorem setDerateTable_inRange (hs : SettingsInRange s) (h : setDerateTable fields s = .taken after payload) : SettingsInRange after := by
  unfold setDerateTable at h
  split at h <;> cases h
  next hr => exact settingsInRange_withCdt hs hs.levels (derateInRange_of_falls (by simpa using hr)) hs.thresholds

theorem setAlert_inRange {p : Port} (hs : SettingsInRange s) (h : setAlert p fields s = .taken after payload) : SettingsInRange after := by
  unfold setAlert at h
  split at h
  · cases h
  · dsimp only at h
    split at h <;> cases h
    next hr =>
      have stored : 1 ≤ byteAt fields 0 ∧ byteAt fields 0 ≤ 7 := by omega
      cases p
      · exact settingsInRange_withCdt hs hs.levels hs.derate fun q => by cases q <;> [exact stored; exact hs.thresholds .com]
      · exact settingsInRange_withCdt hs hs.levels hs.derate fun q => by cases q <;> [exact hs.thresholds .ops; exact stored]

theorem cavernSettingsValid_iff (pmin pmax hysteresis injection withdrawal : Nat) :
    cavernSettingsValid pmin pmax hysteresis injection withdrawal = true ↔ cavernInRange pmin pmax hysteresis injection withdrawal := by
  simp only [cavernSettingsValid, Bool.and_eq_true, decide_eq_true_eq, cavernInRange]
  simp only [Config.maxRate]
  omega

theorem setCavern_inRange (hs : SettingsInRange s) (h : setCavern fields s = .taken after payload) : SettingsInRange after := by
  unfold setCavern at h
  split at h
  · dsimp only at h
    split at h <;> cases h
    next hr =>
      have admitted := (cavernSettingsValid_iff _ _ _ _ _).mp (by simpa using hr)
      unfold storeCavern
      dsimp only
      refine settingsInRange_congr ((settingsOf_reportAll _ _).trans (settingsOf_evaluateBand _ _)) ?_
      exact settingsInRange_alterCavern hs _ admitted
  · cases h

theorem siteSettings_valid_iff (c : SiteSettings) : c.valid = true ↔ siteInRange c := by
  simp only [SiteSettings.valid, Bool.and_eq_true, decide_eq_true_eq, siteInRange]
  simp only [Config.maxRate]
  omega

theorem settingsOf_storeSite (c : SiteSettings) (s : State) :
    settingsOf (storeSite c s) = settingsOf (s.withDir { s.dir with site := c }) := by
  have completes (old : SiteSettings) (u : State) : settingsOf (siteCompletes old u) = settingsOf u := by
    unfold siteCompletes
    split
    · rfl
    · exact settingsOf_testCompletion u
  have overruns (old : SiteSettings) (u : State) : settingsOf (siteOverruns old u) = settingsOf u := by
    unfold siteOverruns
    split
    · split
      · exact settingsOf_overrun u _
      · rfl
    · rfl
  rw [storeSite, settingsOf_dutyEvaluation, overruns, completes]

theorem setSite_inRange (hs : SettingsInRange s) (h : setSite fields s = .taken after payload) : SettingsInRange after := by
  unfold setSite at h
  split at h <;> cases h
  next hr =>
    have admitted := (siteSettings_valid_iff _).mp (by simpa using hr)
    exact settingsInRange_congr (settingsOf_storeSite _ s) { hs with site := admitted }

theorem dutySettings_valid_iff (d : DutySettings) : d.valid = true ↔ dutyInRange d := by
  simp only [DutySettings.valid, Bool.and_eq_true, decide_eq_true_eq, dutyInRange, and_assoc]

theorem setDuty_inRange (hs : SettingsInRange s) (h : setDuty fields s = .taken after payload) : SettingsInRange after := by
  unfold setDuty at h
  split at h <;> cases h
  next hr =>
    have admitted := (dutySettings_valid_iff _).mp (by simpa using hr)
    exact settingsInRange_congr (settingsOf_dutyEvaluation _) { hs with duty := admitted }

theorem readEntry_inRange {e : BankEntry} (h : readEntry fields = some e) : entryInRange e := by
  unfold readEntry at h
  split at h
  · cases h; trivial
  · split at h <;> cases h
    next hr =>
      simp only [stepValid, Bool.and_eq_true, decide_eq_true_eq, Bool.not_eq_true'] at hr
      obtain ⟨⟨⟨low, high⟩, -⟩, apart⟩ := hr
      exact ⟨low, high, apart⟩
  · cases h; trivial
  · cases h

theorem writeStep_inRange (hs : SettingsInRange s) (h : writeStep fields s = .taken after payload) : SettingsInRange after := by
  unfold writeStep at h
  split at h
  · next b i entry _ _ he =>
    split at h <;> cases h
    refine { hs with banks := fun c j => ?_ }
    show entryInRange (nth (nth (alter s.dsq.banks b fun bank => put bank i entry) c) j)
    rw [nth_alter]
    split
    · rw [nth_put]
      split
      · exact readEntry_inRange he
      · exact hs.banks c j
    · exact hs.banks c j
  · cases h

theorem standing_followEnabled (r : Train) : trainSettings (followEnabled r) = trainSettings r := by
  unfold followEnabled
  split <;> rfl

theorem storeTrain_inRange (d : Fin 2) {c : TrainSettings} (hs : SettingsInRange s)
    (hc : bindingInRange c.binding ∧ c.hysteresis ≤ 5000 ∧ -32768 ≤ c.breakthrough ∧ c.breakthrough ≤ 32767
      ∧ -32768 ≤ c.specLimit ∧ c.specLimit ≤ 32767) : SettingsInRange (storeTrain d c s) := by
  have judged (old : Train) (u : State) : settingsOf (judgeSettings old d u) = settingsOf u := by
    unfold judgeSettings
    dsimp only
    split
    · exact settingsOf_judgeFresh u d
    · split
      · exact settingsOf_judgeReading u _ d
      · rfl
  have stored (new : Train) (hn : trainSettings new = (c.binding, c.breakthrough, c.specLimit, c.hysteresis)) : trainInRange new := by
    simp only [trainSettings, Prod.mk.injEq] at hn
    obtain ⟨hb, ht, hl, hh⟩ := hn
    simpa only [trainInRange, hb, ht, hl, hh] using hc
  unfold storeTrain
  dsimp only
  refine settingsInRange_congr ((settingsOf_reportAll _ _).trans (judged _ _)) ?_
  have kept : SettingsInRange (alterTrain d (fun r =>
      followAllowed (runningAllowed s.dir.direction (trainOf s d)) (runningAllowed s.dir.direction (followEnabled (r.store c)))
        s.dir.direction s.dsq.banks (timeBase s) (followEnabled (r.store c))) s) :=
    settingsInRange_alterTrain hs d
      (stored _ ((trainSettings_of_standing (standing_followAllowed _ _ _ _ _ _)).trans (standing_followEnabled _)))
  split
  · exact settingsInRange_congr (settingsOf_resumeTrain _ d) kept
  · exact kept

theorem readTrainSettings_words {c : TrainSettings} (h : readTrainSettings fields = some c) :
    -32768 ≤ c.breakthrough ∧ c.breakthrough ≤ 32767 ∧ -32768 ≤ c.specLimit ∧ c.specLimit ≤ 32767 := by
  simp only [readTrainSettings, Option.bind_eq_bind, Option.bind_eq_some_iff, Option.pure_def, Option.some.injEq] at h
  obtain ⟨-, -, -, -, -, -, rfl⟩ := h
  obtain ⟨blow, bhigh⟩ := snum_word fields 5
  obtain ⟨slow, shigh⟩ := snum_word fields 7
  exact ⟨blow, bhigh, slow, shigh⟩

theorem setTrain_inRange (hs : SettingsInRange s) (h : setTrain fields s = .taken after payload) : SettingsInRange after := by
  unfold setTrain at h
  split at h
  · unfold configureTrain at h
    split at h
    · cases h
    · next c hc =>
      split at h
      · cases h
      · next hr =>
        split at h <;> cases h
        rw [not_or, Bool.not_eq_true, not_lt] at hr
        exact storeTrain_inRange _ hs ⟨readBinding_inRange hr.1, hr.2, readTrainSettings_words hc⟩
  · cases h

theorem setLead_inRange (hs : SettingsInRange s) (h : setLead fields s = .taken after payload) : SettingsInRange after := by
  unfold setLead at h
  dsimp only at h
  split at h <;> cases h
  next hr =>
    obtain ⟨low, high, -⟩ := hs.lead
    refine { hs with lead := ⟨low, high, fun l hl => ?_⟩ }
    simp only [State.withNfu_nfu] at hl
    split at hl <;> cases hl
    omega

theorem setRatchet_inRange (hs : SettingsInRange s) (h : setRatchet fields s = .taken after payload) : SettingsInRange after := by
  unfold setRatchet at h
  dsimp only at h
  split at h
  · cases h
  · split at h
    · cases h
    · next hcount =>
      split at h
      · cases h
      · next hfills =>
        split at h <;> cases h
        next withdrawal _ hrates =>
          have admitted : ratchetInRange (readPoints fields (byteAt fields 1)) := by
            simp only [fillsValid, Bool.not_eq_true', Bool.and_eq_false_iff, decide_eq_false_iff_not, not_or, not_not] at hfills
            obtain ⟨⟨rising, head⟩, last⟩ := hfills
            have length : (readPoints fields (byteAt fields 1)).length = byteAt fields 1 := by simp [readPoints]
            refine ⟨by omega, by omega, rising, head, last, fun p hp => ?_⟩
            rw [Bool.not_eq_true, List.any_eq_false] at hrates
            simpa using hrates p hp
          cases withdrawal
          · exact { hs with ratchets := ⟨admitted, hs.ratchets.2⟩ }
          · exact { hs with ratchets := ⟨hs.ratchets.1, admitted⟩ }

end

end Sys2Proof.Machine

/-! SUPPORT. Every other command leaves the settings as they are, but the start of an hour and the resets (R4, R201). -/

namespace Sys2Proof.Machine

open Sys2Proof.Safety

section
variable (s : State)

/-! ### The hour (R4, R5, R8, R9, R175) -/

theorem settingsOf_setEvents : settingsOf (setEventOps evHourClosedOps (setEventCom evHourClosedCom s)) = settingsOf s := rfl

@[simp] theorem settingsOf_postCaverns (m : HourMetering) : settingsOf (postCaverns m s) = settingsOf s := by
  have caverns (k : Fin 4) : cavernSettings (cavernOf (postCaverns m s) k) = cavernSettings (cavernOf s k) := by
    simp only [cavernOf, postCaverns, State.withDir_dir, nth_tab]
    rfl
  unfold settingsOf
  simp only [caverns]
  rfl

@[simp] theorem settingsOf_vacancy : settingsOf (vacancy s) = settingsOf s := rfl

@[simp] theorem settingsOf_completeClose (h : HourId) (g : Gathered) : settingsOf (completeClose h g s) = settingsOf s := by
  unfold completeClose finishClose
  dsimp only
  rw [settingsOf_withClock, settingsOf_vacancy, settingsOf_setEvents]
  unfold keepRecord postClose
  dsimp only
  rw [settingsOf_withCau, settingsOf_report, settingsOf_postCaverns, settingsOf_alterHour, settingsOf_withAct]

@[simp] theorem settingsOf_bookOpenGaps : settingsOf (bookOpenGaps s) = settingsOf s :=
  settingsOf_overFin (fun k u => settingsOf_bookGap u true k) s

@[simp] theorem settingsOf_clearGathered : settingsOf (clearGathered s) = settingsOf s := by
  unfold clearGathered
  dsimp only
  refine (settingsOf_trains _ (fun d => ?_)).trans (settingsOf_withMtu s (fun k => ?_) rfl rfl rfl)
  · rw [nth_each]
    rfl
  · rw [clearHour, nth_tab]
    rfl

@[simp] theorem settingsOf_closeHour (h : HourId) : settingsOf (closeHour h s) = settingsOf s := by
  simp only [closeHour, settingsOf_completeClose, settingsOf_clearGathered, settingsOf_bookOpenGaps]

@[simp] theorem settingsOf_rolloverAfter (h : HourId) : settingsOf (rolloverAfter h s) = settingsOf s := by
  unfold rolloverAfter
  split <;> rfl

@[simp] theorem settingsOf_missedHour (h : HourId) : settingsOf (missedHour h s) = settingsOf s := by
  simp only [missedHour, closeMissed, settingsOf_rolloverAfter, settingsOf_completeClose, settingsOf_firmAtZero]

theorem settingsOf_closeMissedHours (count : Nat) (h : HourId) : settingsOf (closeMissedHours count h s) = settingsOf s := by
  induction count generalizing h s with
  | zero => rfl
  | succ count ih => exact (ih _ h.next).trans (settingsOf_missedHour _ h)

@[simp] theorem settingsOf_levelBooks (set : HourId) (abandon : Bool) : settingsOf (levelBooks set abandon s) = settingsOf s := by
  unfold levelBooks
  split
  · rfl
  · split
    · rfl
    · exact settingsOf_closeMissedHours _ _ _

@[simp] theorem settingsOf_firmPointEvent : settingsOf (firmPointEvent s) = settingsOf s := by
  unfold firmPointEvent
  split
  · exact settingsOf_firmRun _ _ _
  · rfl

@[simp] theorem settingsOf_moveTime (t : Int) : settingsOf (moveTime t s) = settingsOf s :=
  settingsOf_of_changes (moveTime_changes t s) (by decide)

@[simp] theorem settingsOf_markTrimmed : settingsOf (markTrimmed s) = settingsOf s := settingsOf_withClock _

@[simp] theorem settingsOf_runClock (day seconds : Nat) : settingsOf (runClock day seconds s) = settingsOf s := by
  rw [runClock, settingsOf_report, settingsOf_withClock]

end

section
variable {s : State}

/-- A pending lead was in range when it was set, and is in range as it comes into effect (R160, R161). -/
theorem changeLead_inRange (p : Fin 72) (hs : SettingsInRange s) : SettingsInRange (changeLead p s) := by
  unfold changeLead
  split
  · exact hs
  · next l hl =>
    obtain ⟨-, -, pending⟩ := hs.lead
    refine settingsInRange_congr (settingsOf_firmRun _ _ _) { hs with lead := ?_ }
    exact ⟨(pending l hl).1, (pending l hl).2, fun _ h => by cases h⟩

theorem startHour_inRange (p : Fin 72) (hs : SettingsInRange s) : SettingsInRange (startHour p s) := by
  have latched := changeLead_inRange p (settingsInRange_congr (settingsOf_latchCv s) hs)
  refine settingsInRange_congr ?_ latched
  simp only [startHour, settingsOf_withClock, settingsOf_dutyEvaluation, settingsOf_takeTarget]

theorem hourBoundaryEvent_inRange (hs : SettingsInRange s) : SettingsInRange (hourBoundaryEvent s) := by
  unfold hourBoundaryEvent
  split
  · exact startHour_inRange _ (settingsInRange_congr ((settingsOf_rolloverAfter _ _).trans (settingsOf_closeHour _ _)) hs)
  · exact hs

theorem completeSet_inRange (day seconds : Nat) (hs : SettingsInRange s) : SettingsInRange (completeSet day seconds s) := by
  unfold completeSet
  dsimp only
  refine startHour_inRange _ (settingsInRange_congr ?_ hs)
  rw [settingsOf_mergeUnclocked, settingsOf_firmRun, settingsOf_runClock]

theorem setClock_inRange {fields : List Byte} {after : State} {payload : List Byte} (hs : SettingsInRange s)
    (h : setClock fields s = .taken after payload) : SettingsInRange after := by
  unfold setClock at h
  split at h
  · cases h
  · dsimp only at h
    split at h
    · cases h
    · split at h
      · cases h
      · split at h
        · cases h
        · obtain ⟨rfl, -⟩ := Answer.taken.inj h
          exact completeSet_inRange _ _ (settingsInRange_congr (settingsOf_levelBooks _ _ _) hs)

theorem trimForward_inRange (t : Nat) (hs : SettingsInRange s) : SettingsInRange (trimForward t s) := by
  have moved : SettingsInRange (moveTime t (markTrimmed s)) :=
    settingsInRange_congr ((settingsOf_moveTime _ _).trans (settingsOf_markTrimmed s)) hs
  unfold trimForward
  dsimp only
  split
  · exact settingsInRange_congr (settingsOf_markTrimmed _) (hourBoundaryEvent_inRange moved)
  · split
    · exact settingsInRange_congr (settingsOf_firmPointEvent _) moved
    · exact moved

theorem trimClock_inRange {fields : List Byte} {after : State} {payload : List Byte} (hs : SettingsInRange s)
    (h : trimClock fields s = .taken after payload) : SettingsInRange after := by
  unfold trimClock at h
  dsimp only at h
  split at h
  · cases h
  · split at h
    · cases h
    · split at h
      · cases h; exact hs
      · split at h
        · split at h <;> cases h
          exact settingsInRange_congr ((settingsOf_moveTime _ _).trans (settingsOf_markTrimmed s)) hs
        · cases h
          exact trimForward_inRange _ hs

/-! ### The requests that store no setting -/

/-- A request that a rule gives leaves the settings as they are. -/
def Answer.keepsSettings (s : State) : Answer → Prop
  | .refuse _ => True
  | .taken after _ => settingsOf after = settingsOf s

theorem Answer.keepsSettings.inRange {a : Answer} {after : State} {payload : List Byte} (k : a.keepsSettings s) (hs : SettingsInRange s)
    (h : a = .taken after payload) : SettingsInRange after := by
  subst h
  exact settingsInRange_congr k hs

theorem enableSlot_keeps (fields : List Byte) : (enableSlot fields s).keepsSettings s := by
  unfold enableSlot
  split
  · trivial
  · split
    · trivial
    · split
      · trivial
      · exact settingsOf_enable _ _

theorem disableSlot_keeps (fields : List Byte) : (disableSlot fields s).keepsSettings s := by
  unfold disableSlot
  split
  · trivial
  · split
    · trivial
    · exact settingsOf_disable _ _

theorem readEvents_keeps (p : Port) : (readEvents p s).keepsSettings s := by cases p <;> rfl

theorem setCavernInventory_keeps (fields : List Byte) : (setCavernInventory fields s).keepsSettings s := by
  unfold setCavernInventory
  split
  · trivial
  · split
    · trivial
    · exact settingsOf_alterCavern _

theorem settingsOf_takeOutOfService (s : State) (u : Fin 4) : settingsOf (takeOutOfService u s) = settingsOf s := by
  unfold takeOutOfService storeService
  dsimp only
  split
  · rfl
  · exact settingsOf_changeUnit _ u _ _
  · exact settingsOf_changeUnit _ u _ _
  · exact settingsOf_leaveFaulted _ u _
  · exact settingsOf_changeUnit _ u _ _
  · exact settingsOf_changeUnit _ u _ _
  · rfl

theorem settingsOf_returnToService (s : State) (u : Fin 4) : settingsOf (returnToService u s) = settingsOf s := by
  unfold returnToService storeService
  dsimp only
  split
  · exact settingsOf_changeUnit _ u _ _
  · rfl
  · rfl

theorem setUnit_keeps (fields : List Byte) : (setUnit fields s).keepsSettings s := by
  unfold setUnit
  split
  · next u service _ _ =>
    cases service
    · exact settingsOf_takeOutOfService _ u
    · exact settingsOf_returnToService _ u
  · trivial

theorem resetUnit_keeps (fields : List Byte) : (resetUnit fields s).keepsSettings s := by
  unfold resetUnit
  split
  · trivial
  · split
    · trivial
    · exact settingsOf_leaveFaulted _ _ _

theorem settingsOf_giveBank (s : State) (d b : Fin 2) : settingsOf (giveBank d b s) = settingsOf s := by
  unfold giveBank
  split
  · exact (settingsOf_resumeTrain _ d).trans (settingsOf_alterTrain d)
  · exact settingsOf_alterTrain d

theorem selectBank_keeps (fields : List Byte) : (selectBank fields s).keepsSettings s := by
  unfold selectBank
  split
  · split
    · trivial
    · exact settingsOf_giveBank _ _ _
  · trivial

theorem settingsOf_resetTrainFault (s : State) (d : Fin 2) : settingsOf (resetTrainFault d s) = settingsOf s := by
  unfold resetTrainFault
  dsimp only
  rw [settingsOf_reportAll, settingsOf_resumeTrain]
  refine settingsOf_alterTrain d fun r => ?_
  split <;> rfl

theorem resetTrain_keeps (fields : List Byte) : (resetTrain fields s).keepsSettings s := by
  unfold resetTrain
  split
  · trivial
  · split
    · trivial
    · exact settingsOf_resetTrainFault _ _

theorem nominateRun_keeps (a : Fin 16) (r : Run) (quantity : Option Int) : (nominateRun a r quantity s).keepsSettings s := by
  unfold nominateRun
  split
  · trivial
  · split
    · trivial
    · split
      · trivial
      · split
        · trivial
        · rfl

theorem nominate_keeps (fields : List Byte) : (nominate fields s).keepsSettings s := by
  unfold nominate
  split
  · exact nominateRun_keeps _ _ _
  · trivial

theorem nominateDay_keeps (fields : List Byte) : (nominateDay fields s).keepsSettings s := by
  unfold nominateDay
  split
  · exact nominateRun_keeps _ _ _
  · trivial

theorem nominateRest_keeps (fields : List Byte) : (nominateRest fields s).keepsSettings s := by
  unfold nominateRest
  split
  · trivial
  · dsimp only
    split
    · trivial
    · split
      · trivial
      · split
        · trivial
        · split
          · trivial
          · rfl

theorem cancelNomination_keeps (fields : List Byte) : (cancelNomination fields s).keepsSettings s := by
  unfold cancelNomination
  split
  · exact nominateRun_keeps _ _ _
  · trivial

end

/-! ### The field line -/

section
variable (s : State)

@[simp] theorem settingsOf_engineTake : settingsOf (engineTake s) = settingsOf s := by
  unfold engineTake
  split
  · split
    · refine settingsOf_alterSlot _ fun sl => ?_
      unfold beginVisit
      split
      · rfl
      · split <;> rfl
    · rfl
  · rfl

@[simp] theorem settingsOf_requestSent : settingsOf (requestSent s) = settingsOf s := by
  unfold requestSent
  split
  · split <;> rfl
  · rfl

@[simp] theorem settingsOf_miss (e : Entry) : settingsOf (miss e s) = settingsOf s := by
  unfold miss
  split
  · rfl
  · exact settingsOf_failVisit _ _

@[simp] theorem settingsOf_writeDone (e : Entry) : settingsOf (writeDone e s) = settingsOf s := by
  unfold writeDone
  dsimp only
  split
  · split
    · rfl
    · refine (settingsOf_queueEntry _ _).trans (settingsOf_alterSlot _ fun sl => ?_)
      split <;> rfl
  · rfl

@[simp] theorem settingsOf_dataAnswered (e : Entry) (words : List WordBytes) : settingsOf (dataAnswered e words s) = settingsOf s := by
  unfold dataAnswered
  split
  · unfold readyAnswered
    dsimp only
    split
    · rfl
    · split
      · rfl
      · exact settingsOf_failVisit _ _
  · exact settingsOf_succeedVisit _ _ _
  · rfl

theorem settingsOf_endTransaction (f : InFlight) {g : State → State} (hg : ∀ u, settingsOf (g u) = settingsOf u) :
    settingsOf (endTransaction f g s) = settingsOf s := by
  unfold endTransaction
  dsimp only
  split
  · rfl
  · exact hg _

theorem settingsOf_replyEvent (received : List Byte) {outcome : Reply → Option (Entry → State → State)}
    (ho : ∀ r g, outcome r = some g → ∀ e u, settingsOf (g e u) = settingsOf u) :
    settingsOf (replyEvent received outcome s) = settingsOf s := by
  unfold replyEvent
  split
  · split
    · exact settingsOf_bytesHeard _ _
    · split
      · next g hg => exact settingsOf_endTransaction _ _ (ho _ g hg _)
      · rfl
  · exact settingsOf_bytesHeard _ _

end

end Sys2Proof.Machine

/-! SUPPORT. The resets, and the settling theorem: every step keeps every setting in its range. -/

namespace Sys2Proof.Machine

open Sys2Proof.Safety

/-! ### Resets (R201) -/

theorem slotInitial_inRange (n : Fin 16) : slotInRange (SlotSettings.initial n) := by
  refine ⟨?_, by unfold isWord; exact Nat.zero_lt_succ _, by unfold isWord; exact Nat.zero_lt_succ _, Nat.zero_le _⟩
  exact (by decide : ∀ m, slotSettingsInRange (SlotSettings.initial m)) n

theorem settings_reset_slot (n : Fin 16) : (slotOf State.reset n).settings = SlotSettings.initial n :=
  congrArg Slot.settings (nth_tab Slot.initial n)
theorem pointOf_reset (k : Fin 7) : pointOf State.reset k = Point.initial := nth_fill _ k
theorem cavernOf_reset (k : Fin 4) : cavernOf State.reset k = Cavern.initial := nth_fill _ k
theorem trainOf_reset (d : Fin 2) : trainOf State.reset d = Train.initial := nth_fill _ d
theorem condition_reset (n : Fin 56) : nth State.reset.cdt.conditions n = Condition.initial n := nth_tab _ n
theorem script_reset (i : Fin 64) : nth State.reset.fsu.script i = ⟨0, 0⟩ := nth_fill _ i

theorem bank_reset (b : Fin 2) (i : Fin 24) : nth (nth State.reset.dsq.banks b) i = .empty :=
  (congrArg (fun bank => nth bank i) (nth_fill _ b)).trans (nth_fill _ i)

/-- Retention loss leaves every setting in its range (R15, R19, R23, R41 and the others, the last column of each). -/
theorem resetState_inRange : SettingsInRange State.reset where
  window := by decide
  slots n := (settings_reset_slot n).symm ▸ slotInitial_inRange n
  script i := by rw [script_reset]; exact ⟨num_lt [] 0 2, num_lt [] 0 2⟩
  points k := by
    rw [pointOf_reset]
    unfold isWord
    exact ⟨by decide, by decide, by decide, by decide, by decide, fun _ => rfl⟩
  beta := by decide
  cv := ⟨by decide, by decide, nofun⟩
  levels n := by
    rw [condition_reset]
    unfold Condition.initial
    split
    · exact Nat.le_refl 7
    · exact Nat.zero_le 7
  derate := by decide
  thresholds p := by cases p <;> decide
  caverns k := by rw [cavernOf_reset]; decide
  site := by decide
  duty := by decide
  trains d := by rw [trainOf_reset]; exact ⟨nofun, by decide⟩
  banks b i := by rw [bank_reset]; trivial
  lead := ⟨by decide, by decide, nofun⟩
  ratchets := by decide

theorem level_restart (active : Bool) (c : Condition) : (c.restart active).level = c.level := by
  cases active <;> rfl

theorem settingsOf_restartBlocks (kind : ResetKind) (lines : Lines) (lost : Bool) (s : State) :
    settingsOf (restartBlocks kind lines lost s) = settingsOf s := by
  have slots (n : Fin 16) : (slotOf (restartBlocks kind lines lost s) n).settings = (slotOf s n).settings := by
    rw [slotOf_restartBlocks]
    rfl
  have points (k : Fin 7) : pointSettings (pointOf (restartBlocks kind lines lost s) k) = pointSettings (pointOf s k) :=
    (congrArg pointSettings (nth_each s.mtu.points Point.restart k)).trans rfl
  have caverns (k : Fin 4) : cavernSettings (cavernOf (restartBlocks kind lines lost s) k) = cavernSettings (cavernOf s k) := by
    rw [show cavernOf (restartBlocks kind lines lost s) k = { cavernOf s k with band := .normal } from nth_each _ _ k]
    rfl
  have levels (n : Fin 56) : (nth (restartBlocks kind lines lost s).cdt.conditions n).level = (nth s.cdt.conditions n).level :=
    (congrArg Condition.level (nth_tab _ n)).trans (level_restart _ _)
  have trains (d : Fin 2) : trainSettings (trainOf (restartBlocks kind lines lost s) d) = trainSettings (trainOf s d) :=
    (congrArg trainSettings (nth_tab (fun e => (nth s.dsq.trains e).restart (nth lines.inputs e)) d)).trans rfl
  unfold settingsOf
  simp only [slots, points, caverns, levels, trains]
  rfl

theorem retained_inRange {s : State} (hs : SettingsInRange s) : SettingsInRange (retained s) := by
  unfold retained
  split
  · exact hs
  · exact settingsInRange_congr (s := State.reset) rfl resetState_inRange

theorem settingsOf_scheduleFirst (s : State) : settingsOf (scheduleFirst s) = settingsOf s := by
  refine settingsOf_overFin (fun n u => ?_) s
  split
  · exact settingsOf_scheduleVisit u n 0
  · rfl

theorem settingsOf_refirmAtReset (s : State) : settingsOf (refirmAtReset s) = settingsOf s := by
  unfold refirmAtReset
  split
  · exact settingsOf_refirm s
  · rfl

theorem takeReset_inRange {s : State} (kind : ResetKind) (lines : Lines) (hs : SettingsInRange s) :
    SettingsInRange (takeReset kind lines s) := by
  refine settingsInRange_congr ?_ (retained_inRange hs)
  rw [takeReset, settingsOf_overFin (fun d u => settingsOf_resumeTrain u d), settingsOf_refirmAtReset, settingsOf_scheduleFirst,
    settingsOf_restartBlocks]

/-! ### The time base, the units and the trains -/

section
variable (s : State)

theorem settingsOf_stepTimeBase : settingsOf (stepTimeBase s) = settingsOf s := by
  refine (settingsOf_trains _ fun d => ?_).trans ((settingsOf_withCpd _ rfl).trans rfl)
  rw [nth_each]
  unfold Train.countOffSpec
  split <;> rfl

theorem settingsOf_idle : settingsOf (idle s) = settingsOf s := by
  unfold idle
  split
  · rfl
  · unfold stepFine
    split
    · exact settingsOf_stepTimeBase s
    · rfl

theorem settingsOf_minimumExpires : settingsOf (minimumExpires s) = settingsOf s := by
  unfold minimumExpires
  split
  · split
    · exact settingsOf_testCompletion s
    · rfl
  · rfl

theorem settingsOf_limitExpires : settingsOf (limitExpires s) = settingsOf s := by
  unfold limitExpires
  split
  · split
    · exact settingsOf_overrun s _
    · rfl
  · rfl

theorem settingsOf_takeFeedback (u : Fin 4) (level : Bool) : settingsOf (takeFeedback u level s) = settingsOf s := by
  have recorded : settingsOf (alterUnit u (fun r => { r with feedback := level }) s) = settingsOf s := settingsOf_alterUnit u _
  unfold takeFeedback
  dsimp only
  split
  · exact (settingsOf_faultUnit _ _ u).trans recorded
  · unfold cooldownFeedback
    split
    · exact (settingsOf_changeUnit _ u _ _).trans recorded
    · exact (settingsOf_faultUnit _ _ u).trans recorded
  · exact (settingsOf_faultUnit _ _ u).trans recorded
  · exact (settingsOf_changeUnit _ u _ _).trans recorded
  · exact (settingsOf_faultUnit _ _ u).trans recorded
  · exact (settingsOf_changeUnit _ u _ _).trans recorded
  · exact recorded

theorem settingsOf_startFails (u : Fin 4) : settingsOf (startFails u s) = settingsOf s := by
  unfold startFails
  split
  · exact settingsOf_changeUnit s u _ _
  · exact settingsOf_faultUnit s _ u

theorem settingsOf_cooldownEnds (u : Fin 4) : settingsOf (cooldownEnds u s) = settingsOf s := by
  unfold cooldownEnds
  split
  · exact settingsOf_faultUnit s _ u
  · exact settingsOf_changeUnit s u _ _

theorem settingsOf_dropStartEntry (u : Fin 4) : settingsOf (dropStartEntry u s) = settingsOf s :=
  (settingsOf_dutyEvaluation _).trans (settingsOf_alterUnit u _)

theorem settingsOf_takeInput (d : Fin 2) (i : Fin 4) (level : Bool) : settingsOf (takeInput d i level s) = settingsOf s := by
  have recorded : settingsOf (alterTrain d (fun r => { r with inputs := put r.inputs i level }) s) = settingsOf s := settingsOf_alterTrain d
  unfold takeInput
  dsimp only
  split
  · exact (settingsOf_endStepOf _ d).trans recorded
  · exact recorded

theorem settingsOf_stepTimeEnds (d : Fin 2) : settingsOf (stepTimeEnds d s) = settingsOf s := by
  unfold stepTimeEnds
  split
  · split
    · exact settingsOf_endStepOf s d
    · exact settingsOf_alterTrain d
  · rfl

theorem settingsOf_inputTimeoutEnds (d : Fin 2) : settingsOf (inputTimeoutEnds d s) = settingsOf s := by
  unfold inputTimeoutEnds
  split
  · split
    · exact settingsOf_endStepOf s d
    · exact settingsOf_faultTrain s _ d
  · rfl

theorem settingsOf_dwellEnds (d : Fin 2) : settingsOf (dwellEnds d s) = settingsOf s := by
  unfold dwellEnds
  split
  · split
    · exact settingsOf_endStepOf s d
    · split
      · exact settingsOf_inputTimeoutEnds s d
      · exact settingsOf_alterTrain d
  · rfl

end

/-- What the end of a reply window does (R17, R18). -/
def windowExpires (s : State) : State :=
  match expired s with
  | some f => endTransaction f (miss f.entry) s
  | none => s

theorem execReplyWindowExpiry_eq (s : State) : execReplyWindowExpiry s = unlessHeld windowExpires s := rfl

theorem settingsOf_windowExpires (s : State) : settingsOf (windowExpires s) = settingsOf s := by
  unfold windowExpires
  split
  · exact settingsOf_endTransaction s _ fun u => settingsOf_miss u _
  · rfl

/-! ### Every command -/

theorem exec_inRange {c : Instr} {s t : State} (hs : SettingsInRange s) (h : exec c s = .next t) : SettingsInRange t := by
  have kept (l : List Block) (k : ChangesOnly l s t)
      (hl : ∀ b ∈ [Block.fsu, .mtu, .cdt, .dir, .cpd, .dsq, .nfu], b ∉ l := by decide) : SettingsInRange t :=
    settingsInRange_congr (settingsOf_of_changes k hl) hs
  have port {p : Port} {fields : List Byte} (status : Status) (fs : List Byte) (u : State) (hu : SettingsInRange u) :
      SettingsInRange (answered p (fields.length + 2) status fs u) := settingsInRange_congr (settingsOf_withPif _) hu
  have request {own : State → Answer} {owner : Option Port} {code : Nat} {p : Port} {fields : List Byte}
      (k : ∀ after payload, own s = .taken after payload → SettingsInRange after)
      (h : serve owner code p fields own s = .next t) : SettingsInRange t := serve_keeps hs port k h
  have event {f : State → State} (k : settingsOf (f s) = settingsOf s) (h : unlessHeld f s = .next t) : SettingsInRange t :=
    unlessHeld_keeps hs (settingsInRange_congr k hs) h
  have timed {occasion : Bool} {f : State → State} (k : settingsOf (f s) = settingsOf s)
      (h : unlessHeld (onlyIf occasion f) s = .next t) : SettingsInRange t :=
    unlessHeld_keeps hs (onlyIf_keeps hs (settingsInRange_congr k hs)) h
  cases c with
  | setClock => exact request (fun _ _ => setClock_inRange hs) h
  | trimClock => exact request (fun _ _ => trimClock_inRange hs) h
  | setFieldLine => exact request (fun _ _ => setFieldLine_inRange hs) h
  | writeScript => exact request (fun _ _ => writeScript_inRange hs) h
  | setSlot => exact request (fun _ _ => setSlot_inRange hs) h
  | enableSlot => exact request (fun _ _ => (enableSlot_keeps _).inRange hs) h
  | disableSlot => exact request (fun _ _ => (disableSlot_keeps _).inRange hs) h
  | setPoint => exact request (fun _ _ => setPoint_inRange hs) h
  | setBeta => exact request (fun _ _ => setBeta_inRange hs) h
  | setCv => exact request (fun _ _ => setCv_inRange hs) h
  | ackConditions => exact request (fun _ _ => ackConditions_inRange hs) h
  | setDerateTable => exact request (fun _ _ => setDerateTable_inRange hs) h
  | setAlert => exact request (fun _ _ => setAlert_inRange hs) h
  | readEvents => exact request (fun _ _ => (readEvents_keeps _).inRange hs) h
  | setCavern => exact request (fun _ _ => setCavern_inRange hs) h
  | setCavernInventory => exact request (fun _ _ => (setCavernInventory_keeps _).inRange hs) h
  | setSite => exact request (fun _ _ => setSite_inRange hs) h
  | setDuty => exact request (fun _ _ => setDuty_inRange hs) h
  | setUnit => exact request (fun _ _ => (setUnit_keeps _).inRange hs) h
  | resetUnit => exact request (fun _ _ => (resetUnit_keeps _).inRange hs) h
  | writeStep => exact request (fun _ _ => writeStep_inRange hs) h
  | selectBank => exact request (fun _ _ => (selectBank_keeps _).inRange hs) h
  | setTrain => exact request (fun _ _ => setTrain_inRange hs) h
  | resetTrain => exact request (fun _ _ => (resetTrain_keeps _).inRange hs) h
  | nominate => exact request (fun _ _ => (nominate_keeps _).inRange hs) h
  | nominateDay => exact request (fun _ _ => (nominateDay_keeps _).inRange hs) h
  | nominateRest => exact request (fun _ _ => (nominateRest_keeps _).inRange hs) h
  | cancelNomination => exact request (fun _ _ => (cancelNomination_keeps _).inRange hs) h
  | setLead => exact request (fun _ _ => setLead_inRange hs) h
  | setRatchet => exact request (fun _ _ => setRatchet_inRange hs) h
  | openAccount | setRights | closeAccount | transfer | settleSuspense => exact kept [.pif, .act] (exec_changes rfl h)
  | setAllocation => exact kept [.pif, .cau] (exec_changes rfl h)
  | read => exact kept [.pif, .freeReads] (exec_changes rfl h)
  | unknownRequest | ignoredTransaction | collect | heldInReset => exact kept [.pif] (exec_changes rfl h)
  | timeBaseStep => exact event (settingsOf_stepTimeBase s) h
  | hourBoundary => exact unlessHeld_keeps hs (onlyIf_keeps hs (hourBoundaryEvent_inRange hs)) h
  | firmPoint => exact timed (settingsOf_firmPointEvent s) h
  | lineEngineTake => exact event (settingsOf_engineTake s) h
  | requestTransmitted => exact event (settingsOf_requestSent s) h
  | dataReply received =>
    refine event (settingsOf_replyEvent s received fun r g hg e u => ?_) h
    cases r <;> cases hg
    · exact settingsOf_miss u e
    · exact settingsOf_dataAnswered u e _
  | doneReply received =>
    refine event (settingsOf_replyEvent s received fun r g hg e u => ?_) h
    cases r <;> cases hg
    · exact settingsOf_miss u e
    · exact settingsOf_writeDone u e
  | errorReply received =>
    refine event (settingsOf_replyEvent s received fun r g hg e u => ?_) h
    cases r <;> cases hg
    · exact settingsOf_miss u e
    · exact settingsOf_faultSlot u _ _
  | badReplyFrame received =>
    refine event (settingsOf_replyEvent s received fun r g hg e u => ?_) h
    cases r <;> cases hg
    exact settingsOf_miss u e
  | replyWindowExpiry =>
    exact event (settingsOf_windowExpires s) h
  | changeoverMinimumExpiry => exact event (settingsOf_minimumExpires s) h
  | changeoverLimitExpiry => exact event (settingsOf_limitExpires s) h
  | feedbackChange => exact timed (settingsOf_takeFeedback s _ _) h
  | startTimeout => exact timed (settingsOf_startFails s _) h
  | stopTimeout => exact timed (settingsOf_faultUnit s _ _) h
  | cooldownExpiry => exact timed (settingsOf_cooldownEnds s _) h
  | startListExpiry => exact timed (settingsOf_dropStartEntry s _) h
  | positionInputChange => exact timed (settingsOf_takeInput s _ _ _) h
  | stepTimeExpiry => exact timed (settingsOf_stepTimeEnds s _) h
  | dwellExpiry => exact timed (settingsOf_dwellEnds s _) h
  | inputTimeout => exact timed (settingsOf_inputTimeoutEnds s _) h
  | strokeTimeout => exact timed (settingsOf_faultTrain s _ _) h
  | resetPart _ _ lines =>
    refine request (own := fun s => .taken (takeReset .command lines s) []) (fun _ _ e => ?_) h
    exact (Answer.taken.inj e).1 ▸ takeReset_inRange _ lines hs
  | powerOn lines =>
    obtain rfl := Host.Outcome.next.inj h
    exact takeReset_inRange _ lines hs
  | pin micros lines =>
    obtain rfl := Host.Outcome.next.inj h
    unfold releasePin
    split
    · exact settingsInRange_congr (s := s) rfl hs
    · exact takeReset_inRange _ lines hs

/-- Settles O60: each request stores what passes its checks, and every other command leaves the settings as they are, but the start of an
hour, which takes a pending lead, and a reset that finds retained memory lost. -/
theorem stepKeepsSettingsInRange : Obligations.StepKeepsSettingsInRange := by
  intro s t hs h
  unfold step at h
  split at h
  · next c rest _ => exact exec_inRange (settingsInRange_congr (s := s) (t := s.withPending rest) rfl hs) h
  · obtain rfl := Host.Outcome.next.inj h
    exact settingsInRange_congr (settingsOf_idle s) hs

end Sys2Proof.Machine

/-! SUPPORT. Numbers read back from the bytes of a request (R206), and the two settings of the field line (R15, R23). -/

namespace Sys2Proof.Machine

open Sys2Proof.Safety

/-! ### Numbers read from bytes that stand one after another (R206) -/

theorem byteAt_append_left {l : List Byte} {i : Nat} (h : i < l.length) (m : List Byte) : byteAt (l ++ m) i = byteAt l i := by
  simp only [byteAt, List.getD_eq_getElem?_getD, List.getElem?_append_left h]

theorem byteAt_append_right (l m : List Byte) (i : Nat) : byteAt (l ++ m) (l.length + i) = byteAt m i := by
  simp only [byteAt, List.getD_eq_getElem?_getD, List.getElem?_append_right (Nat.le_add_right _ _), Nat.add_sub_cancel_left]

theorem num_append_left {l : List Byte} {i n : Nat} (h : i + n ≤ l.length) (m : List Byte) : num (l ++ m) i n = num l i n := by
  induction n with
  | zero => rfl
  | succ n ih => rw [num_succ, num_succ, ih (by omega), byteAt_append_left (by omega)]

theorem num_append_right (l m : List Byte) (i n : Nat) : num (l ++ m) (l.length + i) n = num m i n := by
  induction n with
  | zero => rfl
  | succ n ih => rw [num_succ, num_succ, ih, Nat.add_assoc, byteAt_append_right]

/-- A number sent in enough bytes reads back. -/
theorem num_ubytes {n x : Nat} (h : x < 256 ^ n) : num (ubytes n x) 0 n = x := by
  induction n generalizing x with
  | zero => rw [num_zero]; omega
  | succ n ih =>
    rw [pow_succ] at h
    have last : byteAt (ubytes (n + 1) x) (0 + n) = x % 256 := by
      have place := byteAt_append_right (ubytes n (x / 256)) [BitVec.ofNat 8 x] 0
      rw [length_ubytes] at place
      rw [ubytes, Nat.add_comm 0 n, place]
      exact BitVec.toNat_ofNat ..
    rw [num_succ, last, ubytes, num_append_left (by rw [length_ubytes, Nat.zero_add]), ih (Nat.div_lt_of_lt_mul (by rwa [Nat.mul_comm])),
      Nat.mul_comm]
    exact Nat.div_add_mod x 256

theorem byteAt_ubytes {x : Nat} (h : x < 256) : byteAt (ubytes 1 x) 0 = x := by
  have whole := num_ubytes (n := 1) h
  rwa [num_succ, num_zero, Nat.zero_mul, Nat.zero_add] at whole

/-! ### SET-FIELD-LINE (R15) -/

theorem exec_setFieldLine_taken {w : Byte} {s : State} (hs : heldInReset s = false) (hw : 5 ≤ w.toNat ∧ w.toNat ≤ 200) :
    exec (.setFieldLine .ops [w]) s = .next (accepted .ops 0x20 1 (s.withFsu { s.fsu with window := w.toNat })) := by
  have window : num [w] 0 1 = w.toNat := Nat.zero_add _
  refine serve_taken (owner := some .ops) (p := .ops) hs rfl rfl ?_
  rw [setFieldLine, window, if_neg (by omega)]

theorem exec_setFieldLine_refused {w : Byte} {s : State} (hs : heldInReset s = false) (hw : w.toNat < 5 ∨ 200 < w.toNat) :
    exec (.setFieldLine .ops [w]) s = .next (answered .ops 3 .range [0x20] s) := by
  have window : num [w] 0 1 = w.toNat := Nat.zero_add _
  refine serve_refused (owner := some .ops) (p := .ops) hs rfl rfl ?_
  rw [setFieldLine, window, if_pos hw]

/-! ### WRITE-SCRIPT (R23) -/

theorem writeScript_malformed {fields : List Byte} {s : State} (h : byteAt fields 1 = 0 ∨ 8 < byteAt fields 1) :
    writeScript fields s = .refuse .malformed := if_pos h

theorem writeScript_range {fields : List Byte} {s : State} (low : 1 ≤ byteAt fields 1) (high : byteAt fields 1 ≤ 8)
    (h : 64 < byteAt fields 0 + byteAt fields 1) : writeScript fields s = .refuse .range := by
  rw [writeScript, if_neg (by omega), if_pos h]

theorem writeScript_taken {fields : List Byte} {s : State} (low : 1 ≤ byteAt fields 1) (high : byteAt fields 1 ≤ 8)
    (h : byteAt fields 0 + byteAt fields 1 ≤ 64) :
    writeScript fields s
      = .taken (s.withFsu { s.fsu with script := writeEntries fields (byteAt fields 1) (byteAt fields 0) 2 s.fsu.script }) [] := by
  rw [writeScript, if_neg (by omega), if_neg (by omega)]

/-- The store after a run of entries is written: the run from the frame, the other entries as they were. -/
theorem nth_writeEntries (fields : List Byte) {count start : Nat} (h : start + count ≤ 64) (from_ : Nat) (script : Vector ScriptEntry 64)
    (i : Fin 64) :
    nth (writeEntries fields count start from_ script) i =
      if start ≤ i.val ∧ i.val < start + count then
        ⟨num fields (from_ + 4 * (i.val - start)) 2, num fields (from_ + 4 * (i.val - start) + 2) 2⟩
      else nth script i := by
  induction count generalizing start from_ script with
  | zero => rw [writeEntries, if_neg (by omega)]
  | succ count ih =>
    have index : index? 64 start = some ⟨start, by omega⟩ := index?_of_lt (by omega)
    rw [writeEntries, index]
    dsimp only
    rw [ih (by omega), nth_put]
    rcases Nat.lt_trichotomy i.val start with below | here | above
    · rw [if_neg (by omega), if_neg (Fin.ne_of_val_ne below.ne), if_neg (by omega)]
    · subst here
      rw [if_neg (by omega), if_pos rfl, if_pos (by omega), Nat.sub_self]
      rfl
    · have step : from_ + 4 + 4 * (i.val - (start + 1)) = from_ + 4 * (i.val - start) := by omega
      rw [step, if_neg (Fin.ne_of_val_ne above.ne')]
      congr 1
      exact propext (by omega)

/-- The bytes of one script entry (R23). -/
def entryBytes (e : ScriptEntry) : List Byte := ubytes 2 e.register ++ ubytes 2 e.value

theorem length_entryBytes (e : ScriptEntry) : (entryBytes e).length = 4 := by
  rw [entryBytes, List.length_append, length_ubytes, length_ubytes]

theorem length_flatMap_entryBytes (entries : List ScriptEntry) : (entries.flatMap entryBytes).length = 4 * entries.length := by
  induction entries with
  | nil => rfl
  | cons e rest ih => rw [List.flatMap_cons, List.length_append, length_entryBytes, ih, List.length_cons]; omega

/-- A number within entry `j` of a run of entries. -/
theorem num_flatMap_entryBytes {entries : List ScriptEntry} {j : Nat} (h : j < entries.length) {k : Nat} (hk : k + 2 ≤ 4) :
    num (entries.flatMap entryBytes) (4 * j + k) 2 = num (entryBytes entries[j]) k 2 := by
  induction entries generalizing j with
  | nil => cases h
  | cons e rest ih =>
    rw [List.flatMap_cons]
    cases j with
    | zero =>
      rw [Nat.mul_zero, Nat.zero_add]
      exact num_append_left (by rwa [length_entryBytes]) _
    | succ j =>
      have place : 4 * (j + 1) + k = (entryBytes e).length + (4 * j + k) := by rw [length_entryBytes]; omega
      rw [place, num_append_right]
      exact ih (Nat.lt_of_succ_lt_succ h)

theorem num_entryBytes_register {e : ScriptEntry} (h : e.register < 65536) : num (entryBytes e) 0 2 = e.register := by
  rw [entryBytes, num_append_left (by rw [length_ubytes]), num_ubytes h]

theorem num_entryBytes_value {e : ScriptEntry} (h : e.value < 65536) : num (entryBytes e) 2 2 = e.value := by
  have place := num_append_right (ubytes 2 e.register) (ubytes 2 e.value) 0 2
  rw [length_ubytes] at place
  rw [entryBytes, place, num_ubytes h]

/-- A WRITE-SCRIPT frame with its start and its entries. -/
def scriptFrame (start : Nat) (entries : List ScriptEntry) : List Byte :=
  ubytes 1 start ++ ubytes 1 entries.length ++ entries.flatMap entryBytes

section
variable {start : Nat} {entries : List ScriptEntry}

theorem length_scriptFrame : (scriptFrame start entries).length = 2 + 4 * entries.length := by
  rw [scriptFrame, List.length_append, List.length_append, length_ubytes, length_ubytes, length_flatMap_entryBytes]

theorem byteAt_scriptFrame_start (h : start < 256) : byteAt (scriptFrame start entries) 0 = start := by
  rw [scriptFrame, List.append_assoc, byteAt_append_left (by rw [length_ubytes]; decide), byteAt_ubytes h]

theorem byteAt_scriptFrame_count (h : entries.length < 256) : byteAt (scriptFrame start entries) 1 = entries.length := by
  have place := byteAt_append_right (ubytes 1 start) (ubytes 1 entries.length ++ entries.flatMap entryBytes) 0
  rw [length_ubytes] at place
  rw [scriptFrame, List.append_assoc, place, byteAt_append_left (by rw [length_ubytes]; decide), byteAt_ubytes h]

theorem num_scriptFrame (i n : Nat) : num (scriptFrame start entries) (2 + i) n = num (entries.flatMap entryBytes) i n :=
  num_append_right (ubytes 1 start ++ ubytes 1 entries.length) _ i n

/-- The entry that a WRITE-SCRIPT frame carries at place `j`. -/
theorem scriptFrame_entry {j : Nat} (h : j < entries.length) (hw : ∀ e ∈ entries, e.register < 65536 ∧ e.value < 65536) :
    (⟨num (scriptFrame start entries) (2 + 4 * j) 2, num (scriptFrame start entries) (2 + 4 * j + 2) 2⟩ : ScriptEntry) = entries[j] := by
  obtain ⟨register, value⟩ := hw _ (List.getElem_mem h)
  rw [Nat.add_assoc, num_scriptFrame, num_scriptFrame, num_flatMap_entryBytes h (by decide), num_entryBytes_value value]
  have first := num_flatMap_entryBytes h (k := 0) (by decide)
  rw [Nat.add_zero] at first
  rw [first, num_entryBytes_register register]

end

theorem exec_writeScript_run {start : Nat} {entries : List ScriptEntry} {s : State} (hs : heldInReset s = false) (low : 1 ≤ entries.length)
    (high : entries.length ≤ 8) (h : start + entries.length ≤ 64) :
    exec (.writeScript .ops (scriptFrame start entries)) s
      = .next (accepted .ops 0x24 (2 + 4 * entries.length)
          (s.withFsu { s.fsu with script := writeEntries (scriptFrame start entries) entries.length start 2 s.fsu.script })) := by
  have count : byteAt (scriptFrame start entries) 1 = entries.length := byteAt_scriptFrame_count (by omega)
  have first : byteAt (scriptFrame start entries) 0 = start := byteAt_scriptFrame_start (by omega)
  have fit : fits 0x24 (scriptFrame start entries) = true := by
    simp only [fits, layoutOf, count, length_scriptFrame, decide_true]
  have taken := writeScript_taken (s := s) (count.symm ▸ low) (count.symm ▸ high) (by rw [count, first]; exact h)
  have served := serve_taken (owner := some .ops) (p := .ops) hs fit rfl taken
  rw [length_scriptFrame, count, first] at served
  exact served

/-- Settles O19, by the window and by the run of entries. -/
theorem fieldLineSettingsAreStored : Obligations.FieldLineSettingsAreStored := by
  refine ⟨fun w s hs => ⟨exec_setFieldLine_taken hs, exec_setFieldLine_refused hs⟩,
    fun fields s hs hf => ⟨fun h => ?_, fun low high h => ?_⟩,
    fun start entries s hs low high h hw => ⟨_, exec_writeScript_run hs low high h, fun i => ?_⟩⟩
  · exact serve_refused (owner := some .ops) (p := .ops) hs hf rfl (writeScript_malformed h)
  · exact serve_refused (owner := some .ops) (p := .ops) hs hf rfl (writeScript_range low high h)
  · rw [nth_writeEntries _ h]
    split
    · next run =>
      have inside : i.val - start < entries.length := by omega
      rw [scriptFrame_entry inside hw, List.getElem?_eq_getElem inside, Option.getD_some]
    · rfl

end Sys2Proof.Machine

/-! SUPPORT. The line engine in IDLE and while a request is sent, and bytes that end no transaction (R15 to R17). -/

namespace Sys2Proof.Machine

open Sys2Proof.Safety

section
variable {s : State} {e : Entry} {rest : List Entry} {f : InFlight}

/-! ### The take (R16) -/

/-- How a visit that begins leaves its slot: SETTLING from INIT, unless a script comes first (R24). -/
theorem beginVisit_eq (e : Entry) :
    beginVisit e = fun sl =>
      { sl with state := if sl.state = .init ∧ (e.phase = .read ∨ e.phase = .readyCheck) then .settling else sl.state } := by
  funext sl
  unfold beginVisit
  cases e.phase with
  | initWrite k => simp only [reduceCtorEq, or_self, and_false, if_false]
  | readyCheck | read =>
    by_cases h : sl.state = .init <;> simp only [h, if_true, if_false, reduceCtorEq, or_true, true_or, and_true]

theorem engineTake_due (hi : s.fsu.engine = .idle) (hq : s.fsu.queue = e :: rest) (due : e.due ≤ s.fine) (quiet : s.fsu.quietAt ≤ s.fine) :
    engineTake s = alterSlot e.slot (beginVisit e)
      (s.withFsu { s.fsu with queue := rest, engine := .awaitReply ⟨e, entryRequest s e, s.fsu.window, none, false⟩ }) := by
  simp only [engineTake, hi, hq, due, quiet, and_self, if_true]

theorem engineTake_early (hi : s.fsu.engine = .idle) (hq : s.fsu.queue = e :: rest) (h : s.fine < e.due ∨ s.fine < s.fsu.quietAt) :
    engineTake s = s := by
  have early : ¬ (e.due ≤ s.fine ∧ s.fsu.quietAt ≤ s.fine) := by omega
  simp only [engineTake, hi, hq, early, if_false]

theorem engineTake_nothing (h : s.fsu.queue = [] ∨ s.fsu.engine ≠ .idle) : engineTake s = s := by
  unfold engineTake
  split
  · next hi hq =>
    rcases h with empty | busy
    · rw [empty] at hq
      cases hq
    · exact absurd hi busy
  · rfl

theorem unlessHeld_of_eq {g : State → State} (h : g s = s) : unlessHeld g s = .next s := by
  unfold unlessHeld
  split
  · rfl
  · rw [h]

/-! ### The request of an entry (R16) -/

theorem entryRequest_read (h : e.phase = .read) : entryRequest s e =
    .read (slotOf s e.slot).settings.address (slotOf s e.slot).settings.startRegister (slotOf s e.slot).settings.wordCount := by
  simp only [entryRequest, h]

theorem entryRequest_readyCheck (h : e.phase = .readyCheck) :
    entryRequest s e = .read (slotOf s e.slot).settings.address (slotOf s e.slot).settings.statusRegister 1 := by
  simp only [entryRequest, h]

theorem entryRequest_initWrite {k : Nat} {i : Fin 64} (h : e.phase = .initWrite k)
    (hi : i.val = (slotOf s e.slot).settings.scriptStart + k) :
    entryRequest s e = .write (slotOf s e.slot).settings.address (nth s.fsu.script i).register (nth s.fsu.script i).value := by
  simp only [entryRequest, h, ← hi, index?_val]

/-! ### The end of the request (R17) -/

theorem requestSent_sending (he : s.fsu.engine = .awaitReply f) (hw : f.windowEnd = none) :
    requestSent s = s.withFsu { s.fsu with engine := .awaitReply { f with windowEnd := some (s.fine + f.window) } } := by
  simp only [requestSent, he, hw, if_true]

theorem requestSent_sent (he : s.fsu.engine = .awaitReply f) (hw : f.windowEnd ≠ none) : requestSent s = s := by
  simp only [requestSent, he, hw, if_false]

/-! ### Bytes that end no transaction (R16, R17) -/

theorem bytesHeard_sending {received : List Byte} (h : sendingRequest s = true) : bytesHeard received s = s := if_pos (.inr h)

theorem bytesHeard_listening {received : List Byte} (hr : received ≠ []) (h : sendingRequest s = false) :
    bytesHeard received s = receiverHeard s := if_neg (by rw [h, not_or]; exact ⟨hr, Bool.false_ne_true⟩)

theorem sendingRequest_idle (h : s.fsu.engine = .idle) : sendingRequest s = false := by simp only [sendingRequest, h]

theorem sendingRequest_awaitReply (h : s.fsu.engine = .awaitReply f) : sendingRequest s = f.windowEnd.isNone := by
  simp only [sendingRequest, h]

theorem awaiting_idle (h : s.fsu.engine = .idle) : awaiting s = none := by simp only [awaiting, h]

theorem awaiting_sending (h : s.fsu.engine = .awaitReply f) (hw : f.windowEnd = none) : awaiting s = none := by
  simp only [awaiting, h, hw]

theorem awaiting_windowed {t : Nat} (h : s.fsu.engine = .awaitReply f) (hw : f.windowEnd = some t) :
    awaiting s = if s.fine ≤ t then some f else none := by
  simp only [awaiting, h, hw]

variable {received : List Byte} {outcome : Reply → Option (Entry → State → State)}

theorem replyEvent_unawaited (h : awaiting s = none) : replyEvent received outcome s = bytesHeard received s := by
  simp only [replyEvent, h]

theorem replyEvent_incomplete (h : awaiting s = some f) (hj : judge f.request received = .incomplete) :
    replyEvent received outcome s = bytesHeard received s := by
  simp only [replyEvent, h, hj, if_true]

/-- Each of the four reply rows judges the bytes as they come (R17, log entry 21). -/
theorem exec_reply {c : Instr}
    (hc : c = .dataReply received ∨ c = .doneReply received ∨ c = .errorReply received ∨ c = .badReplyFrame received) :
    ∃ outcome, ∀ s, exec c s = unlessHeld (replyEvent received outcome) s := by
  rcases hc with rfl | rfl | rfl | rfl <;> exact ⟨_, fun _ => rfl⟩

end

/-- Settles O22, by the state of the engine. -/
theorem lineEngineTakesTheDueHead : Obligations.LineEngineTakesTheDueHead := by
  refine ⟨fun s e rest hs hi hq => ⟨fun due quiet => ?_, fun early => ?_⟩, fun s h => unlessHeld_of_eq (engineTake_nothing h),
    fun s e k i => ⟨entryRequest_read, entryRequest_readyCheck, entryRequest_initWrite⟩, fun s f hs he => ⟨fun hw => ?_, fun hw => ?_⟩,
    fun s received c hs hr hc => ?_⟩
  · rw [← beginVisit_eq, ← engineTake_due hi hq due quiet]
    exact unlessHeld_released _ hs
  · exact unlessHeld_of_eq (engineTake_early hi hq early)
  · rw [← requestSent_sending he hw]
    exact unlessHeld_released _ hs
  · exact unlessHeld_of_eq (requestSent_sent he hw)
  · obtain ⟨outcome, exec_eq⟩ := exec_reply hc
    have heard (unjudged : replyEvent received outcome s = bytesHeard received s) (listening : sendingRequest s = false) :
        exec c s = .next (receiverHeard s) := by
      rw [exec_eq, unlessHeld_released _ hs, unjudged, bytesHeard_listening hr listening]
    refine ⟨fun hi => heard (replyEvent_unawaited (awaiting_idle hi)) (sendingRequest_idle hi),
      fun f he => ⟨fun t ht h => ?_, fun hw => ?_⟩⟩
    · refine heard ?_ (by rw [sendingRequest_awaitReply he, ht]; rfl)
      by_cases within : s.fine ≤ t
      · have unready : judge f.request received = .incomplete := h.resolve_left (Nat.not_lt.mpr within)
        exact replyEvent_incomplete (by rw [awaiting_windowed he ht, if_pos within]) unready
      · exact replyEvent_unawaited (by rw [awaiting_windowed he ht, if_neg within])
    · rw [exec_eq]
      refine unlessHeld_of_eq ?_
      rw [replyEvent_unawaited (awaiting_sending he hw), bytesHeard_sending (by rw [sendingRequest_awaitReply he, hw]; rfl)]

end Sys2Proof.Machine

/-! SUPPORT. The frames of the field line as bytes (R14, R207), and the output lines (R76, R88, R96, R116). -/

namespace Sys2Proof.Machine

open Sys2Proof.Safety

/-! ### The CRC (R14) -/

theorem toNat_crcShift (c : BitVec 16) :
    (crcShift c).toNat = if 32768 ≤ c.toNat then (2 * c.toNat % 65536) ^^^ 0x1021 else 2 * c.toNat := by
  have doubled : (c <<< 1).toNat = 2 * c.toNat % 65536 := by
    rw [BitVec.toNat_shiftLeft, Nat.shiftLeft_eq, Nat.mul_comm]
  have top : c.msb = true ↔ 32768 ≤ c.toNat := by rw [BitVec.msb_eq_decide, decide_eq_true_eq]
  unfold crcShift
  by_cases h : 32768 ≤ c.toNat
  · rw [if_pos h, if_pos (top.mpr h), BitVec.toNat_xor, doubled]
    rfl
  · rw [if_neg h, if_neg (h ∘ top.mp), doubled, Nat.mod_eq_of_lt (by omega)]

theorem crcDivided_succ (n : Nat) (c : BitVec 16) : crcDivided (n + 1) c.toNat = crcDivided n (crcShift c).toNat := by
  rw [toNat_crcShift]
  rfl

theorem crc16_append (body : List Byte) (b : Byte) : crc16 (body ++ [b]) = crcByte (crc16 body) b := List.foldl_append ..

/-- A byte enters the CRC at its high end and is divided bit by bit. -/
theorem toNat_crcByte (c : BitVec 16) (b : Byte) : (crcByte c b).toNat = crcDivided 8 (c.toNat ^^^ (b.toNat * 256)) := by
  have entered : (c ^^^ (b.setWidth 16 <<< 8)).toNat = c.toNat ^^^ (b.toNat * 256) := by
    have hb := b.isLt
    rw [BitVec.toNat_xor, BitVec.toNat_shiftLeft, BitVec.toNat_setWidth, Nat.shiftLeft_eq, Nat.mod_eq_of_lt (a := b.toNat) (by omega),
      Nat.mod_eq_of_lt (by omega)]
  rw [← entered, crcByte]
  simp only [crcDivided_succ]
  rfl

/-! ### The frame of a request (R207) -/

theorem word16_eq (n : Nat) : word16 n = ubytes 2 n := rfl

theorem crcBytes_eq (body : List Byte) : crcBytes body = ubytes 2 (crc16 body).toNat := by
  have high : ((crc16 body >>> 8).setWidth 8 : Byte) = BitVec.ofNat 8 ((crc16 body).toNat / 256) := by
    apply BitVec.eq_of_toNat_eq
    rw [BitVec.toNat_setWidth, BitVec.toNat_ushiftRight, BitVec.toNat_ofNat, Nat.shiftRight_eq_div_pow]
  have low : ((crc16 body).setWidth 8 : Byte) = BitVec.ofNat 8 (crc16 body).toNat := BitVec.eq_of_toNat_eq rfl
  rw [crcBytes, high, low]
  rfl

theorem sealFrame_eq (body : List Byte) : sealFrame body = 0xC5 :: (body ++ ubytes 2 (crc16 body).toNat ++ [0x5C]) := by
  rw [sealFrame, crcBytes_eq]
  rfl

/-! ### Output lines -/

section
variable {s : State} (h : heldInReset s = false)
include h

theorem alertAsserted_iff (p : Port) : alertAsserted s p = true ↔
    (∃ n, (nth s.cdt.conditions n).pendingOf p = true ∧ (s.cdt.alertOf p).threshold ≤ (nth s.cdt.conditions n).level)
      ∨ ∃ e, nth (s.cdt.alertOf p).flags e = true ∧ nth (s.cdt.alertOf p).mask e = true := by
  simp only [alertAsserted, h, Bool.not_false, Bool.true_and, alertCause, Bool.or_eq_true, someFin_eq_true, Bool.and_eq_true,
    decide_eq_true_eq]

theorem injectionPermit_iff : injectionPermit s = true ↔ s.dir.direction = .injecting := by
  rw [injectionPermit, h, Bool.not_false, Bool.true_and, decide_eq_true_eq]

theorem withdrawalPermit_iff : withdrawalPermit s = true ↔ s.dir.direction = .withdrawing := by
  rw [withdrawalPermit, h, Bool.not_false, Bool.true_and, decide_eq_true_eq]

theorem runRequest_iff (u : Fin 4) : runRequest s u = true ↔ (unitOf s u).state = .starting ∨ (unitOf s u).state = .running := by
  simp only [runRequest, h, Bool.not_false, Bool.true_and, Bool.or_eq_true, decide_eq_true_eq]

theorem dryerOutputs_eq (d : Fin 2) : dryerOutputs s d = (trainOf s d).outputs s.dsq.banks := by
  rw [dryerOutputs, h]
  rfl

theorem transmitting_eq_some {frame : List Byte} : transmitting s = some frame ↔
    ∃ f, s.fsu.engine = .awaitReply f ∧ f.windowEnd = none ∧ frame = requestFrame f.request := by
  unfold transmitting
  rw [h]
  cases s.fsu.engine with
  | idle => simp
  | awaitReply f => by_cases hw : f.windowEnd = none <;> simp [hw, eq_comm]

omit h in
theorem driverEnabled_iff : driverEnabled s = true ↔ ∃ frame, transmitting s = some frame := Option.isSome_iff_exists

end

/-- The parked pattern: inlet and outlet of the on-stream tower (R116). -/
theorem nth_outputs_parked (banks : Vector (Vector BankEntry 24) 2) {t : Train} (hp : t.state = .parked) (l : Fin 8) :
    nth (t.outputs banks) l =
      if t.tower = .a then decide (l.val = 0 ∨ l.val = 1) else decide (l.val = 3 ∨ l.val = 4) := by
  have parked : t.outputs banks = mapOutputs t.tower ⟨true, true, false⟩ ⟨false, false, false⟩ false false := by rw [Train.outputs, hp]
  rw [parked]
  cases t.tower <;> revert l <;> decide

theorem outputs_off (banks : Vector (Vector BankEntry 24) 2) {t : Train} (h : t.state = .off ∨ t.state = .faulted) :
    t.outputs banks = fill 8 false := by
  rcases h with h | h <;> rw [Train.outputs, h]

/-- A train has a step in RUNNING and WAIT_INPUT alone, and its outputs are the patterns of the step (R116). -/
theorem outputs_step {banks : Vector (Vector BankEntry 24) 2} {t : Train} {r : StepRecord} (h : currentStep banks t = some r) :
    t.outputs banks = mapOutputs t.tower r.onStream r.offStream r.heater r.cooler := by
  have inStep : t.state = .running ∨ t.state = .waitInput := by
    by_contra out
    rw [currentStep, if_neg out] at h
    cases h
  rcases inStep with hs | hs <;> simp only [Train.outputs, hs, h]

/-- The patterns stand at the outputs of tower A and of tower B, the on-stream tower's among them (R116). -/
theorem nth_mapOutputs (tower : Tower) (onStream offStream : Pattern) (heater cooler : Bool) (a b : Pattern)
    (ha : a = if tower = .a then onStream else offStream) (hb : b = if tower = .a then offStream else onStream) :
    nth (mapOutputs tower onStream offStream heater cooler) 0 = a.inlet
      ∧ nth (mapOutputs tower onStream offStream heater cooler) 1 = a.outlet
      ∧ nth (mapOutputs tower onStream offStream heater cooler) 2 = a.regeneration
      ∧ nth (mapOutputs tower onStream offStream heater cooler) 3 = b.inlet
      ∧ nth (mapOutputs tower onStream offStream heater cooler) 4 = b.outlet
      ∧ nth (mapOutputs tower onStream offStream heater cooler) 5 = b.regeneration := by
  subst ha hb
  cases tower <;> exact ⟨rfl, rfl, rfl, rfl, rfl, rfl⟩

/-- Settles O51, line by line. -/
theorem outputsFollowTheState : Obligations.OutputsFollowTheState := by
  refine ⟨fun address start count register value body => ⟨fun hb => ?_, fun hb => ?_, rfl, fun b => ?_⟩, fun s h => ⟨alertAsserted_iff h,
    injectionPermit_iff h, withdrawalPermit_iff h, runRequest_iff h, fun d => ⟨fun hd => ?_, fun hd l => ?_, fun r hr => ?_⟩,
    fun frame => transmitting_eq_some h, driverEnabled_iff⟩⟩
  · subst hb
    exact sealFrame_eq _
  · subst hb
    exact sealFrame_eq _
  · rw [crc16_append, toNat_crcByte]
  · rw [dryerOutputs_eq h, outputs_off _ hd]
  · rw [dryerOutputs_eq h, nth_outputs_parked _ hd]
  · rw [dryerOutputs_eq h, outputs_step hr]
    refine ⟨?_, ?_, nth_mapOutputs _ _ _ _ _⟩ <;> cases (trainOf s d).tower <;> rfl

end Sys2Proof.Machine

/-! SUPPORT. Walks over the records of a block, reports that fall together, and the test of a changeover at a change of a quiet answer
(R59, R64, R90). -/

namespace Sys2Proof.Machine

open Sys2Proof.Safety

/-! ### A walk that treats one record a pass -/

/-- A walk whose pass `i` makes `g i` of record `i` and leaves the others makes `g j` of every record `j`, as long as what the passes
rest on, `I`, stands. -/
theorem read_overFin {σ ρ : Type} {n : Nat} {f : Fin n → σ → σ} (I : σ → Prop) (read : Fin n → σ → ρ) (g : Fin n → ρ → ρ)
    (hI : ∀ i s, I s → I (f i s)) (hf : ∀ i j s, I s → read j (f i s) = if j = i then g j (read j s) else read j s) {s : σ} (hs : I s)
    (j : Fin n) : read j (overFin n f s) = g j (read j s) := by
  have walk (l : List (Fin n)) (nodup : l.Nodup) {s : σ} (hs : I s) :
      read j (l.foldl (fun s i => f i s) s) = if j ∈ l then g j (read j s) else read j s := by
    induction l generalizing s with
    | nil => rw [List.foldl_nil, if_neg List.not_mem_nil]
    | cons i l ih =>
      obtain ⟨fresh, rest⟩ := List.nodup_cons.mp nodup
      rw [List.foldl_cons, ih rest (hI i s hs), hf i j s hs]
      by_cases here : j = i
      · subst here
        rw [if_neg fresh, if_pos rfl, if_pos List.mem_cons_self]
      · rw [if_neg here]
        exact if_congr ⟨List.mem_cons_of_mem i, fun h => (List.mem_cons.mp h).resolve_left here⟩ rfl rfl
  rw [overFin, walk _ (List.nodup_finRange n) hs, if_pos (List.mem_finRange j)]

/-! ### Reports of different conditions (R64) -/

theorem realChanges_sublist (s : State) (l : List (Fin 56 × Bool)) : (realChanges s l).Sublist l := List.filter_sublist

section
variable {l : List (Fin 56 × Bool)}

/-- The Active items after reports of different conditions, in whatever order they are taken: each as it was reported, the others as they
were. -/
theorem conditionActive_takeReports {fuel : Nat} (hf : l.length ≤ fuel) (hl : (l.map Prod.fst).Nodup) (s : State) :
    (∀ r ∈ l, conditionActive (takeReports fuel l s) r.1 = r.2)
      ∧ ∀ m, m ∉ l.map Prod.fst → conditionActive (takeReports fuel l s) m = conditionActive s m := by
  induction fuel generalizing l s with
  | zero =>
    obtain rfl := List.eq_nil_of_length_eq_zero (Nat.le_zero.mp hf)
    exact ⟨fun r hr => absurd hr List.not_mem_nil, fun _ _ => rfl⟩
  | succ fuel ih =>
    match l with
    | [] => exact ⟨fun r hr => absurd hr List.not_mem_nil, fun _ _ => rfl⟩
    | [r] =>
      refine ⟨fun q hq => ?_, fun m hm => ?_⟩
      · rw [List.mem_singleton.mp hq, takeReports, conditionActive_report, if_pos rfl]
      · rw [takeReports, conditionActive_report, if_neg (fun e => hm (List.mem_singleton.mpr e))]
    | a :: b :: rest =>
      let k := Config.reportOrder s.freeReads % (a :: b :: rest).length
      have inside : k < (a :: b :: rest).length := Nat.mod_lt _ (Nat.zero_lt_succ _)
      have taken : takeReports (fuel + 1) (a :: b :: rest) s = takeReports fuel ((a :: b :: rest).eraseIdx k)
          (report (a :: b :: rest)[k].1 (a :: b :: rest)[k].2 (s.withFreeReads (s.freeReads + 1))) := by
        rw [takeReports]
        · simp only [show (a :: b :: rest)[Config.reportOrder s.freeReads % (a :: b :: rest).length]? = some (a :: b :: rest)[k] from
            List.getElem?_eq_getElem inside]
          rfl
        · nofun
        · nofun
      have perm : ((a :: b :: rest)[k] :: (a :: b :: rest).eraseIdx k).Perm (a :: b :: rest) := List.getElem_cons_eraseIdx_perm inside
      have distinct := (perm.map Prod.fst).nodup_iff.mpr hl
      rw [List.map_cons, List.nodup_cons] at distinct
      obtain ⟨fresh, distinct⟩ := distinct
      have shorter : ((a :: b :: rest).eraseIdx k).length ≤ fuel := by
        rw [List.length_eraseIdx_of_lt inside]
        exact Nat.sub_le_of_le_add hf
      obtain ⟨told, kept⟩ :=
        ih shorter distinct (report (a :: b :: rest)[k].1 (a :: b :: rest)[k].2 (s.withFreeReads (s.freeReads + 1)))
      rw [taken]
      refine ⟨fun r hr => ?_, fun m hm => ?_⟩
      · rcases List.mem_cons.mp (perm.mem_iff.mpr hr) with rfl | later
        · rw [kept _ fresh, conditionActive_report, if_pos rfl]
        · exact told r later
      · have others := (perm.map Prod.fst).mem_iff.not.mpr hm
        rw [List.map_cons, List.mem_cons, not_or] at others
        rw [kept m others.2, conditionActive_report, if_neg others.1]
        rfl

/-- The reports of one event: each of their conditions is as its source holds it. -/
theorem conditionActive_reportAll (hl : (l.map Prod.fst).Nodup) (s : State) {r : Fin 56 × Bool} (hr : r ∈ l) :
    conditionActive (reportAll l s) r.1 = r.2 := by
  have distinct := hl.sublist ((realChanges_sublist s l).map Prod.fst)
  obtain ⟨told, kept⟩ := conditionActive_takeReports le_rfl distinct s
  by_cases changes : r ∈ realChanges s l
  · exact told r changes
  · have same : conditionActive s r.1 = r.2 := by
      by_contra differs
      exact changes (List.mem_filter.mpr ⟨hr, by simpa using differs⟩)
    refine (kept r.1 fun hm => ?_).trans same
    obtain ⟨q, hq, key⟩ := List.mem_map.mp hm
    have one : q = r := List.inj_on_of_nodup_map hl ((realChanges_sublist s l).subset hq) hr key
    exact changes (one ▸ hq)

end

/-! ### The test of a changeover at a change of a quiet answer (R59, R90) -/

theorem quietAnswers_turned {s t : State} (h : Turned s t) : quietAnswers t = quietAnswers s := by
  have site : t.dir.site = s.dir.site := by rw [h.dir]
  have mtu : t.mtu = s.mtu := (h.changes .mtu (by decide)).symm
  have fsu : t.fsu = s.fsu := (h.changes .fsu (by decide)).symm
  have quietSame (k : Fin 7) (f : Flow) : quiet t k f = quiet s k f := by
    unfold quiet pointOf slotOf
    rw [mtu, fsu, site]
  simp only [quietAnswers, quietSame]

theorem quietReported_turned (before s : State) : Turned s (quietReported before s) := by
  unfold quietReported
  split
  · exact .refl s
  · exact testCompletion_turned s

theorem TrainsFollow.quietReported {s : State} (before : State) : TrainsFollow s (quietReported before s) := by
  unfold Machine.quietReported
  split
  · exact .of_same rfl rfl
  · exact .testCompletion s

theorem quietReported_same {before s : State} (h : quietAnswers before = quietAnswers s) : quietReported before s = s := if_pos h

theorem quietReported_changed {before s : State} (h : quietAnswers before ≠ quietAnswers s) :
    quietReported before s = testCompletion s := if_neg h

/-- The turn that completes a changeover leaves its three tests as they were. -/
theorem changeoverComplete_changeDirection {s : State} {c : Changeover} (hd : s.dir.direction = .changeover c) :
    changeoverComplete (changeDirection c.target.direction s) c = changeoverComplete s c := by
  refine changeoverComplete_turned (changeDirection_turned _ _) fun ht u => ?_
  rw [unitOf, changeDirection_cpd, turnedCpd_of_changeover hd, ht, if_neg (by nofun), unitOf]

/-- A changeover in an event that has not itself turned the site is tested at a change of a quiet answer, and only then. -/
theorem quietReported_tested {before s : State} (h : s.dir.direction = before.dir.direction) :
    quietChangeTested before (quietReported before s) := by
  have answers : quietAnswers (quietReported before s) = quietAnswers s := quietAnswers_turned (quietReported_turned before s)
  rw [quietChangeTested, answers]
  refine ⟨fun settled => ?_, fun c hc => ?_⟩
  · unfold quietReported
    split
    · exact h
    · rw [testCompletion_settled (h ▸ settled), h]
  · have going : s.dir.direction = .changeover c := h.trans hc
    by_cases same : quietAnswers before = quietAnswers s
    · rw [quietReported_same same, if_neg (fun changed => changed.1 same.symm), going]
    · rw [quietReported_changed same]
      cases complete : changeoverComplete s c with
      | false => rw [testCompletion_incomplete going complete, complete, if_neg (fun done => Bool.false_ne_true done.2), going]
      | true =>
        rw [testCompletion_complete going complete, changeoverComplete_changeDirection going, complete, if_pos ⟨Ne.symm same, rfl⟩,
          changeDirection_direction]

end Sys2Proof.Machine

/-! SUPPORT. The readers of a slot: the caverns, the trains and the conditions of an event, and what the turn that may end the event leaves
of them (R33, R81, R90, R132). -/

namespace Sys2Proof.Machine

open Sys2Proof.Safety

section
variable {s t : State}

/-! ### Caverns (R81) -/

/-- The pressure of a cavern rests on its point's binding and its slot's channels. -/
theorem cavernPressure_congr {k : Fin 4} (hp : (pointOf t (wellhead k)).slot = (pointOf s (wellhead k)).slot)
    (hs : ∀ m, (slotOf t m).channels = (slotOf s m).channels) : cavernPressure t k = cavernPressure s k := by
  unfold cavernPressure channelAt
  rw [hp]
  simp only [hs]

/-- The pressure of a cavern does not change with what other blocks hold. -/
theorem cavernPressure_of_blocks (hm : t.mtu = s.mtu) (hf : t.fsu = s.fsu) (k : Fin 4) : cavernPressure t k = cavernPressure s k :=
  cavernPressure_congr (by rw [pointOf, hm, pointOf]) fun m => by rw [slotOf_congr hf]

theorem cavernPressure_bound {k : Fin 4} {n : Fin 16} (h : (pointOf s (wellhead k)).slot = some n) :
    cavernPressure s k = channelAt (slotOf s n) 2 := by
  simp only [cavernPressure, h]

/-- A cavern with its band evaluated from a pressure (R82). -/
def rebanded (pressure : Channel) (c : Cavern) : Cavern := { c with band := nextBand c pressure }

theorem cavernOf_evaluateBand (k j : Fin 4) (s : State) :
    cavernOf (evaluateBand k s) j = if j = k then rebanded (cavernPressure s j) (cavernOf s j) else cavernOf s j := by
  by_cases h : j = k
  · subst h
    rw [if_pos rfl]
    exact cavernOf_alterCavern_same s j _
  · rw [if_neg h]
    exact cavernOf_alterCavern_other s _ h

/-- A walk that evaluates the bands of some caverns, chosen by what the metering and the field line hold. -/
theorem cavernOf_bandWalk (chosen : Fin 4 → State → Bool)
    (hc : ∀ k u v, v.mtu = u.mtu → v.fsu = u.fsu → chosen k v = chosen k u) (s : State) (k : Fin 4) :
    cavernOf (overFin 4 (fun k s => if chosen k s then evaluateBand k s else s) s) k =
      if chosen k s then rebanded (cavernPressure s k) (cavernOf s k) else cavernOf s k := by
  refine read_overFin (fun u => u.mtu = s.mtu ∧ u.fsu = s.fsu) (fun k u => cavernOf u k)
    (fun k c => if chosen k s then rebanded (cavernPressure s k) c else c) (fun k u hu => ?_) (fun i j u hu => ?_) ⟨rfl, rfl⟩ k
  · split
    · exact hu
    · exact hu
  · rw [hc i s u hu.1 hu.2]
    by_cases here : j = i
    · subst here
      rw [if_pos rfl, apply_ite (fun u => cavernOf u j), cavernOf_evaluateBand, if_pos rfl, cavernPressure_of_blocks hu.1 hu.2]
    · rw [if_neg here, apply_ite (fun u => cavernOf u j), cavernOf_evaluateBand, if_neg here, ite_self]

/-- Bands follow a change of quality (R81). -/
theorem cavernOf_bandsFollow (before s : State) (k : Fin 4) :
    cavernOf (bandsFollow before s) k =
      if (cavernPressure before k).quality ≠ (cavernPressure s k).quality then rebanded (cavernPressure s k) (cavernOf s k)
      else cavernOf s k := by
  have walk := cavernOf_bandWalk (fun k u => decide ((cavernPressure before k).quality ≠ (cavernPressure u k).quality))
    (fun k u v hm hf => by rw [cavernPressure_of_blocks hm hf]) s k
  simp only [decide_eq_true_eq, ite_not] at walk ⊢
  exact walk

theorem cavernReads_iff {n : Fin 16} {k : Fin 4} : cavernReads s n k = true ↔ (pointOf s (wellhead k)).slot = some n := decide_eq_true_iff

theorem cavernOf_cavernsTake (n : Fin 16) (s : State) (k : Fin 4) :
    cavernOf (cavernsTake n s) k =
      if (pointOf s (wellhead k)).slot = some n then rebanded (cavernPressure s k) (cavernOf s k) else cavernOf s k := by
  have walk := cavernOf_bandWalk (fun k u => cavernReads u n k)
    (fun k u v hm _ => by rw [cavernReads, cavernReads, pointOf, hm, pointOf]) s k
  exact walk.trans (if_congr cavernReads_iff rfl rfl)

theorem cavernOf_bandOfPoint (p : Fin 7) (s : State) (k : Fin 4) :
    cavernOf (bandOfPoint p s) k = if wellhead k = p then rebanded (cavernPressure s k) (cavernOf s k) else cavernOf s k := by
  have walk := cavernOf_bandWalk (fun k _ => decide (wellhead k = p)) (fun _ _ _ _ _ => rfl) s k
  simp only [decide_eq_true_eq] at walk
  exact walk

theorem cavernOf_congr (h : t.dir.caverns = s.dir.caverns) (k : Fin 4) : cavernOf t k = cavernOf s k := by rw [cavernOf, h, cavernOf]

/-! ### Trains (R132) -/

theorem trainOf_congr (h : t.dsq = s.dsq) (d : Fin 2) : trainOf t d = trainOf s d := by rw [trainOf, h, trainOf]

theorem trainReads_iff {n : Fin 16} {d : Fin 2} : trainReads s n d = true ↔ ∃ b ∈ (trainOf s d).binding, b.slot = n := by
  unfold trainReads
  cases (trainOf s d).binding with
  | none => simp
  | some b => simp

/-- The off-spec state of a train whose dew point is NONE (R132). -/
def unread (r : Train) : Train := { r with offSpec := decide (r.state ≠ .off) }

theorem trainOf_dewPointsLost (n : Fin 16) (s : State) (d : Fin 2) :
    trainOf (dewPointsLost n s) d = if trainReads s n d then unread (trainOf s d) else trainOf s d := by
  refine read_overFin (fun u => ∀ e, trainReads u n e = trainReads s n e) (fun d u => trainOf u d)
    (fun d r => if trainReads s n d then unread r else r) (fun i u hu e => ?_) (fun i j u hu => ?_) (fun _ => rfl) d
  · rw [← hu e]
    split
    · unfold trainReads
      by_cases h : e = i
      · subst h
        rw [judgeNoReading, trainOf_alterTrain_same]
      · rw [judgeNoReading, trainOf_alterTrain_other _ _ h]
    · rfl
  · rw [hu i]
    by_cases here : j = i
    · subst here
      rw [if_pos rfl, apply_ite (fun u => trainOf u j), judgeNoReading, trainOf_alterTrain_same]
      rfl
    · rw [if_neg here, apply_ite (fun u => trainOf u j), judgeNoReading, trainOf_alterTrain_other _ _ here, ite_self]

/-- Trains that follow a turn change by their steps alone. -/
theorem TrainsFollow.standing_eq (h : TrainsFollow s t) (d : Fin 2) : standing (trainOf t d) = standing (trainOf s d) := by
  rw [trainOf_congr h, trainOf_dryersFollow]
  exact standing_followAllowed _ _ _ _ _ _

/-! ### The conditions of a slot's event (R34, R35, R58, R83, R132) -/

/-- The conditions that an event of slot `n` can change. -/
def slotConditions (n : Fin 16) : List (Fin 56) :=
  [condDevice n, condThreshold n] ++ (List.finRange 7).map condCounter ++ (List.finRange 4).map condBand
    ++ (List.finRange 2).map condOffSpec

theorem slotConditions_nodup : ∀ n, (slotConditions n).Nodup := by decide

theorem slotReports_sublist (n : Fin 16) (s : State) : ((slotReports s n).map Prod.fst).Sublist (slotConditions n) := by
  have counters : ((match pointBoundTo s n with
      | some k => [(condCounter k, counterActive (pointOf s k))]
      | none => []).map Prod.fst).Sublist ((List.finRange 7).map condCounter) := by
    cases pointBoundTo s n with
    | none => exact List.nil_sublist _
    | some k => exact List.singleton_sublist.mpr (List.mem_map_of_mem (List.mem_finRange k))
  have bands : (((List.finRange 4).filter (cavernReads s n)).map (bandReport s)).map Prod.fst
      = ((List.finRange 4).filter (cavernReads s n)).map condBand := List.map_map
  have offSpecs : (((List.finRange 2).filter (trainReads s n)).map (offSpecReport s)).map Prod.fst
      = ((List.finRange 2).filter (trainReads s n)).map condOffSpec := List.map_map
  rw [slotReports, List.map_append, List.map_append, List.map_append, bands, offSpecs]
  exact (((List.Sublist.refl _).append counters).append (List.filter_sublist.map _)).append (List.filter_sublist.map _)

theorem slotReports_nodup (n : Fin 16) (s : State) : ((slotReports s n).map Prod.fst).Nodup :=
  (slotConditions_nodup n).sublist (slotReports_sublist n s)

theorem slotConditions_turn : ∀ n, condOverrun ∉ slotConditions n := by decide

end

/-! ### The end of a slot's event -/

section
variable (before s : State) (n : Fin 16)

/-- The state once the conditions are reported: what a turn of the site may then change. -/
abbrev slotReported (n : Fin 16) (s : State) : State := reportAll (slotReports s n) s

theorem slotEventEnds_turned : Turned (slotReported n s) (slotEventEnds before n s) := quietReported_turned _ _

theorem slotEventEnds_mtu : (slotEventEnds before n s).mtu = s.mtu := (slotEventEnds_changes before n s .mtu (by decide)).symm

theorem cavernOf_slotEventEnds (k : Fin 4) : cavernOf (slotEventEnds before n s) k = cavernOf s k := by
  have told : (slotReported n s).dir = s.dir := (reportAll_changes _ s .dir (by decide)).symm
  refine cavernOf_congr ?_ k
  rw [(slotEventEnds_turned before s n).dir, told]

theorem standing_slotEventEnds (d : Fin 2) : standing (trainOf (slotEventEnds before n s) d) = standing (trainOf s d) := by
  have told : (slotReported n s).dsq = s.dsq := (reportAll_changes _ s .dsq (by decide)).symm
  exact ((TrainsFollow.quietReported (s := slotReported n s) before).standing_eq d).trans (congrArg standing (trainOf_congr told d))

/-- A report of the event stands at its end. -/
theorem conditionActive_slotEventEnds {r : Fin 56 × Bool} (hr : r ∈ slotReports s n) :
    conditionActive (slotEventEnds before n s) r.1 = r.2 := by
  have known : r.1 ∈ slotConditions n := (slotReports_sublist n s).subset (List.mem_map_of_mem hr)
  rw [(slotEventEnds_turned before s n).conditions r.1 fun e => slotConditions_turn n (e ▸ known)]
  exact conditionActive_reportAll (slotReports_nodup n s) s hr

theorem slotEventEnds_device :
    conditionActive (slotEventEnds before n s) (condDevice n)
      = (decide ((slotOf (slotEventEnds before n s) n).state = .absent)
        || decide ((slotOf (slotEventEnds before n s) n).state = .faulted)) := by
  rw [slotOf_congr (slotEventEnds_fsu n before s)]
  exact conditionActive_slotEventEnds before s n (r := deviceReport s n) (by simp [slotReports])

theorem slotEventEnds_threshold :
    conditionActive (slotEventEnds before n s) (condThreshold n) = (slotOf (slotEventEnds before n s) n).thresholdOn := by
  rw [slotOf_congr (slotEventEnds_fsu n before s)]
  exact conditionActive_slotEventEnds before s n (r := thresholdReport s n) (by simp [slotReports])

theorem slotEventEnds_counter {k : Fin 7} (h : pointBoundTo s n = some k) :
    conditionActive (slotEventEnds before n s) (condCounter k) = counterActive (pointOf s k) :=
  conditionActive_slotEventEnds before s n (r := (condCounter k, counterActive (pointOf s k))) (by simp [slotReports, h])

theorem slotEventEnds_band {k : Fin 4} (h : (pointOf s (wellhead k)).slot = some n) :
    conditionActive (slotEventEnds before n s) (condBand k) = decide ((cavernOf s k).band ≠ .normal) := by
  refine conditionActive_slotEventEnds before s n (r := bandReport s k) (List.mem_append_left _ (List.mem_append_right _ ?_))
  exact List.mem_map_of_mem (List.mem_filter.mpr ⟨List.mem_finRange k, cavernReads_iff.mpr h⟩)

theorem slotEventEnds_offSpec {d : Fin 2} (h : trainReads s n d = true) :
    conditionActive (slotEventEnds before n s) (condOffSpec d) = (trainOf s d).offSpec := by
  refine conditionActive_slotEventEnds before s n (r := offSpecReport s d) (List.mem_append_right _ ?_)
  exact List.mem_map_of_mem (List.mem_filter.mpr ⟨List.mem_finRange d, h⟩)

theorem slotEventEnds_tested (h : s.dir.direction = before.dir.direction) : quietChangeTested before (slotEventEnds before n s) := by
  refine quietReported_tested ?_
  rw [← reportAll_changes _ s .dir (by decide), h]

end

/-! ### The readers at the end of a slot's event -/

/-- The caverns have evaluated their bands where a quality changed, and the off-spec states are those of lost dew points, or as they
were: then the readers have followed, once the event ends. -/
theorem readersFollow_slotEventEnds {n : Fin 16} {lost : Bool} {s u : State}
    (points : ∀ k, (pointOf u k).slot = (pointOf s k).slot)
    (caverns : ∀ k, cavernOf u k =
      if (cavernPressure s k).quality ≠ (cavernPressure u k).quality then rebanded (cavernPressure u k) (cavernOf s k) else cavernOf s k)
    (trains : ∀ d, trainOf u d = if lost = true ∧ trainReads s n d = true then unread (trainOf s d) else trainOf s d)
    (direction : u.dir.direction = s.dir.direction) : readersFollow n lost s (slotEventEnds s n u) := by
  have pressure (k : Fin 4) : cavernPressure (slotEventEnds s n u) k = cavernPressure u k :=
    cavernPressure_of_blocks (slotEventEnds_mtu s u n) (slotEventEnds_fsu n s u) k
  have binding (d : Fin 2) : (trainOf u d).binding = (trainOf s d).binding := by
    rw [trains]
    split <;> rfl
  have offSpec (d : Fin 2) : (trainOf (slotEventEnds s n u) d).offSpec = (trainOf u d).offSpec := by
    have stands := congrArg Train.offSpec (standing_slotEventEnds s u n d)
    exact stands
  refine ⟨fun k => ?_, fun k hk => ?_, fun d => ?_, fun d hd => ?_, slotEventEnds_tested s u n direction⟩
  · rw [cavernOf_slotEventEnds, caverns, pressure]
    exact if_congr ne_comm rfl rfl
  · rw [slotEventEnds_band s u n ((points _).trans hk), cavernOf_slotEventEnds]
  · rw [offSpec, trains]
    simp only [trainReads_iff]
    split <;> rfl
  · rw [offSpec]
    exact slotEventEnds_offSpec s u n (trainReads_iff.mpr (by rw [binding]; exact hd))

end Sys2Proof.Machine

/-! SUPPORT. Visits that fail and slots that the device faults (R26, R29, R31, R51). -/

namespace Sys2Proof.Machine

open Sys2Proof.Safety

/-! ### Gaps (R51) -/

section
variable {s t u : State}

/-- The time from which a gap of a point of slot `n` is open (R51). -/
def gapStart (n : Fin 16) (s : State) : Nat := (channelAt (slotOf s n) 0).lastGood.elim (timeBase s) (· / 100)

theorem pointOf_openGap_same (k : Fin 7) (n : Fin 16) (s : State) :
    pointOf (openGap k n s) k = { pointOf s k with gap := some (gapStart n s) } := by
  unfold openGap gapStart
  rw [pointOf_alterPoint_same]
  cases (channelAt (slotOf s n) 0).lastGood <;> rfl

theorem pointOf_openGap_other {k : Fin 7} (n : Fin 16) (s : State) {j : Fin 7} (h : j ≠ k) : pointOf (openGap k n s) j = pointOf s j :=
  pointOf_alterPoint_other s _ h

/-- The binding of the points is not what a gap changes. -/
theorem slot_openGapOf (n : Fin 16) (s : State) (k : Fin 7) : (pointOf (openGapOf n s) k).slot = (pointOf s k).slot := by
  unfold openGapOf
  split
  · next p _ =>
    by_cases h : k = p
    · subst h
      exact (congrArg Point.slot (pointOf_openGap_same k n s)).trans rfl
    · exact congrArg Point.slot (pointOf_openGap_other n s h)
  · rfl

theorem pointBoundTo_congr (h : ∀ k, (pointOf t k).slot = (pointOf s k).slot) (n : Fin 16) : pointBoundTo t n = pointBoundTo s n := by
  simp only [pointBoundTo, h]

theorem gapFollows_mtu {n : Fin 16} {enters : Bool} (h : gapFollows n enters s u) (hm : t.mtu = u.mtu) : gapFollows n enters s t := by
  unfold gapFollows pointOf at h ⊢
  rw [hm]
  exact h

theorem gapFollows_stands (n : Fin 16) (h : t.mtu = s.mtu) : gapFollows n false s t := by
  refine ⟨by rw [h], fun k => ?_⟩
  rw [if_neg fun e => Bool.false_ne_true e.1, pointOf, h, pointOf]

/-- The gap opens from the last good reading that the slot still shows. -/
theorem gapFollows_openGapOf (n : Fin 16) (hm : u.mtu = s.mtu) (ht : u.fine = s.fine)
    (hg : (channelAt (slotOf u n) 0).lastGood = (channelAt (slotOf s n) 0).lastGood) : gapFollows n true s (openGapOf n u) := by
  have points (k : Fin 7) : pointOf u k = pointOf s k := by rw [pointOf, hm, pointOf]
  have bound : pointBoundTo u n = pointBoundTo s n := pointBoundTo_congr (fun k => by rw [points]) n
  have now : timeBase u = timeBase s := by rw [timeBase, ht, timeBase]
  unfold openGapOf
  rw [bound]
  cases hb : pointBoundTo s n with
  | none => exact ⟨by rw [hm], fun k => by rw [points, if_neg (by rw [hb]; rintro ⟨-, ⟨⟩⟩)]⟩
  | some p =>
    have start : gapStart n u = gapStart n s := by rw [gapStart, hg, now, gapStart]
    refine ⟨by simp only [openGap, alterPoint, State.withMtu_mtu, hm], fun k => ?_⟩
    by_cases h : k = p
    · subst h
      rw [if_pos ⟨rfl, hb⟩, pointOf_openGap_same, points, start, gapStart]
      cases (channelAt (slotOf s n) 0).lastGood <;> rfl
    · rw [if_neg (by rw [hb]; rintro ⟨-, e⟩; exact h (Option.some.inj e).symm), pointOf_openGap_other n u h, points]

end

/-! ### Channels held (R26, R29) -/

@[simp] theorem lastGood_hold (c : Channel) : c.hold.lastGood = c.lastGood := by
  unfold Channel.hold
  split <;> rfl

theorem channelAt_holdChannels (sl : Slot) {c : Nat} (h : c < 4) : channelAt sl.holdChannels c = (channelAt sl c).hold := by
  rw [channelAt, dif_pos h, channelAt, dif_pos h, Slot.holdChannels, nth_each]

/-! ### The readers follow the bands (R81, R132) -/

section
variable {n : Fin 16} {s g u : State}

/-- What changes no binding, and neither caverns nor trains, before the bands follow the slot's quality. -/
structure ReadersStand (s g : State) : Prop where
  points : ∀ k, (pointOf g k).slot = (pointOf s k).slot
  dir : g.dir = s.dir
  dsq : g.dsq = s.dsq

theorem direction_bandsFollow (before s : State) : (bandsFollow before s).dir.direction = s.dir.direction :=
  overFin_keeps (fun u : State => u.dir.direction = s.dir.direction) _ (fun k u hu => by
    split
    · exact hu
    · exact hu) rfl

/-- The readers of a slot have followed when its event ends, with the bands evaluated where a quality changed (R81). -/
theorem readersFollow_held (h : ReadersStand s g) (hu : ChangesOnly [.fsu] (bandsFollow s g) u)
    (channels : ∀ m, (slotOf u m).channels = (slotOf g m).channels) : readersFollow n false s (slotEventEnds s n u) := by
  have mtu : u.mtu = g.mtu := (hu .mtu (by decide)).symm.trans (bandsFollow_changes s g .mtu (by decide)).symm
  have points (k : Fin 7) : pointOf u k = pointOf g k := by rw [pointOf, mtu, pointOf]
  have dir : u.dir = (bandsFollow s g).dir := (hu .dir (by decide)).symm
  have dsq : u.dsq = s.dsq := ((hu .dsq (by decide)).symm.trans (bandsFollow_changes s g .dsq (by decide)).symm).trans h.dsq
  refine readersFollow_slotEventEnds (fun k => ?_) (fun k => ?_) (fun d => ?_) ?_
  · rw [points, h.points]
  · rw [cavernOf_congr (congrArg Dir.caverns dir), cavernOf_bandsFollow, cavernPressure_congr (by rw [points]) channels,
      cavernOf_congr (congrArg Dir.caverns h.dir)]
  · rw [if_neg fun e => Bool.false_ne_true e.1, trainOf_congr dsq]
  · rw [dir, direction_bandsFollow, h.dir]

/-- The same where the slot's channels are lost, so that its trains have no dew point (R132). -/
theorem readersFollow_lost (h : ReadersStand s g) (hu : ChangesOnly [.fsu] (channelsLost n s g) u)
    (channels : ∀ m, (slotOf u m).channels = (slotOf g m).channels) : readersFollow n true s (slotEventEnds s n u) := by
  have lost := dewPointsLost_changes n (bandsFollow s g)
  have mtu : u.mtu = g.mtu :=
    ((hu .mtu (by decide)).symm.trans (lost .mtu (by decide)).symm).trans (bandsFollow_changes s g .mtu (by decide)).symm
  have points (k : Fin 7) : pointOf u k = pointOf g k := by rw [pointOf, mtu, pointOf]
  have dir : u.dir = (bandsFollow s g).dir := (hu .dir (by decide)).symm.trans (lost .dir (by decide)).symm
  have dsq : u.dsq = (dewPointsLost n (bandsFollow s g)).dsq := (hu .dsq (by decide)).symm
  have before : (bandsFollow s g).dsq = s.dsq := (bandsFollow_changes s g .dsq (by decide)).symm.trans h.dsq
  refine readersFollow_slotEventEnds (fun k => ?_) (fun k => ?_) (fun d => ?_) ?_
  · rw [points, h.points]
  · rw [cavernOf_congr (congrArg Dir.caverns dir), cavernOf_bandsFollow, cavernPressure_congr (by rw [points]) channels,
      cavernOf_congr (congrArg Dir.caverns h.dir)]
  · rw [trainOf_congr dsq, trainOf_dewPointsLost, trainReads, trainOf_congr before, ← trainReads]
    exact if_congr ⟨fun e => ⟨rfl, e⟩, fun e => e.2⟩ rfl rfl
  · rw [dir, direction_bandsFollow, h.dir]

end

/-! ### The next visit (R31) -/

/-- A slot after a visit's end: the next visit is scheduled from the end of one that left the slot's schedule as it was. -/
theorem nextVisitQueued_scheduleNext {n : Fin 16} {s u t : State} (scheduled : (slotOf u n).scheduled = (slotOf s n).scheduled)
    (settings : (slotOf u n).settings = (slotOf s n).settings) (overruns : (slotOf u n).overruns = (slotOf s n).overruns)
    (fine : u.fine = s.fine) (queue : u.fsu.queue = s.fsu.queue) (period : 1 ≤ (slotOf s n).settings.period)
    (ht : t.fsu = (scheduleNext n u).fsu) : nextVisitQueued n s t := by
  have slot : slotOf t n = slotOf (scheduleNext n u) n := slotOf_congr ht n
  rw [slotOf_scheduleNext_same] at slot
  obtain ⟨least, later, first⟩ :=
    periodsOn_least (scheduled := (slotOf s n).scheduled.getD s.fine) (now := s.fine) period
  have count : periodsToNext n u = periodsOn ((slotOf s n).scheduled.getD s.fine) (slotOf s n).settings.period s.fine := by
    rw [periodsToNext, scheduled, settings, fine]
  have due : nextVisitTime n u = (slotOf s n).scheduled.getD s.fine + periodsToNext n u * ((slotOf s n).settings.period * 1000) := by
    rw [nextVisitTime, scheduled, settings, fine]
  rw [count] at due
  refine ⟨_, _, _, rfl, least, rfl, later, first, ?_, ?_, ?_, ?_⟩
  · rw [slot, due]
  · rw [slot, ← overruns, ← count]
    rfl
  · rw [slot]
  · rw [ht, scheduleNext_queue, due, queue, firstPhase_congr (a := slotOf u n) (b := slotOf t n) (by rw [slot]) (by rw [slot])]

/-! ### A visit that fails (R29) -/

section
variable (n : Fin 16) (s : State)

theorem slotOf_failVisit_same :
    slotOf (failVisit n s) n =
      { failedSlot (slotOf s n) with
        overruns := holdAdd 65535 (slotOf s n).overruns (periodsToNext n (alterSlot n failedSlot s) - 1)
        scheduled := some (nextVisitTime n (alterSlot n failedSlot s))
        recovered := decide ((failedSlot (slotOf s n)).state = .absent) } := by
  rw [slotOf_congr (failVisit_fsu n s), slotOf_scheduleNext_same, slotOf_alterSlot_same]
  rfl

theorem state_failVisit : (slotOf (failVisit n s) n).state = stateAfterFailure (slotOf s n) (holdAdd 255 (slotOf s n).failed 1) := by
  rw [slotOf_failVisit_same]
  rfl

theorem channels_scheduleNext (m : Fin 16) : (slotOf (scheduleNext n s) m).channels = (slotOf s m).channels := by
  by_cases h : m = n
  · subst h
    rw [slotOf_scheduleNext_same]
  · rw [slotOf_scheduleNext_other n s h]

theorem lastGood_failedSlot (sl : Slot) : (channelAt (failedSlot sl) 0).lastGood = (channelAt sl 0).lastGood := by
  have held : channelAt (failedSlot sl) 0 = (channelAt sl 0).hold := channelAt_holdChannels sl (by decide)
  rw [held, lastGood_hold]

theorem gapAfterFailure_stands : ReadersStand s (gapAfterFailure n s) := by
  unfold gapAfterFailure
  split
  · have opened := openGapOf_changes n (alterSlot n failedSlot s)
    exact ⟨fun k => slot_openGapOf n _ k, (opened .dir (by decide)).symm, (opened .dsq (by decide)).symm⟩
  · exact ⟨fun _ => rfl, rfl, rfl⟩

theorem gapAfterFailure_follows :
    gapFollows n (decide ((slotOf (failVisit n s) n).state = .absent) && decide ((slotOf s n).state ≠ .absent)) s
      (gapAfterFailure n s) := by
  have state : (slotOf (alterSlot n failedSlot s) n).state = (slotOf (failVisit n s) n).state := by
    rw [slotOf_alterSlot_same, state_failVisit]
    rfl
  unfold gapAfterFailure
  rw [state]
  split
  · next enters =>
    rw [decide_eq_true enters.1, decide_eq_true enters.2]
    refine gapFollows_openGapOf n rfl rfl ?_
    rw [slotOf_alterSlot_same, lastGood_failedSlot]
  · next stays =>
    have none : (decide ((slotOf (failVisit n s) n).state = .absent) && decide ((slotOf s n).state ≠ .absent)) = false := by
      rw [Bool.eq_false_iff, ne_eq, Bool.and_eq_true, decide_eq_true_eq, decide_eq_true_eq]
      exact stays
    rw [none]
    exact gapFollows_stands n rfl

theorem failVisit_mtu : (failVisit n s).mtu = (gapAfterFailure n s).mtu := by
  rw [failVisit_eq, slotEventEnds_mtu, ← scheduleNext_changes n _ .mtu (by decide), ← bandsFollow_changes s _ .mtu (by decide)]

/-- What a failed visit leaves (R29, R31, R51, R81, R90). -/
theorem failVisit_failed (period : 1 ≤ (slotOf s n).settings.period) (idle : s.fsu.engine = .idle) :
    visitFailed n s (failVisit n s) := by
  have slot := slotOf_failVisit_same n s
  have state := state_failVisit n s
  have failed : (slotOf (failVisit n s) n).failed = holdAdd 255 (slotOf s n).failed 1 := by
    rw [slot]
    rfl
  refine ⟨failed, fun c => ?_, ?_, fun absent => ?_, fun absent => ?_, fun polled present => ⟨fun reached => ?_, fun below => ?_⟩,
    gapFollows_mtu (gapAfterFailure_follows n s) (failVisit_mtu n s), ?_, ?_, ?_⟩
  · rw [slot]
    exact nth_each _ _ c
  · rw [slot]
    rfl
  · have told := slotEventEnds_device s (scheduleNext n (bandsFollow s (gapAfterFailure n s))) n
    rw [← failVisit_eq, absent] at told
    exact told
  · rw [state, stateAfterFailure, absent]
  · rw [state, stateAfterFailure]
    rw [failed] at reached
    split
    · rfl
    · exact if_pos reached
    · exact if_pos reached
  · rw [state, stateAfterFailure]
    rw [failed] at below
    split
    · next absent => exact absurd absent present
    · next active => rw [if_neg (by omega), if_pos active]
    · next _ inactive => rw [if_neg (by omega), if_neg inactive]
  · rw [failVisit_eq]
    refine readersFollow_held (gapAfterFailure_stands n s) (scheduleNext_changes n _) fun m => ?_
    rw [channels_scheduleNext, slotOf_congr (bandsFollow_fsu s _)]
  · exact nextVisitQueued_scheduleNext (u := alterSlot n failedSlot s) (by rw [slotOf_alterSlot_same]; rfl)
      (by rw [slotOf_alterSlot_same]; rfl) (by rw [slotOf_alterSlot_same]; rfl) rfl rfl period (failVisit_fsu n s)
  · rw [failVisit_fsu, scheduleNext_engine]
    exact idle

end

/-! ### A slot that the device faults (R26) -/

section
variable (n : Fin 16) (code : Nat) (s : State)

/-- A slot that the device has refused (R26). -/
def faultedSlot (sl : Slot) : Slot := { sl.holdChannels with state := .faulted, lastError := code }

theorem slotOf_faultSlot_same : slotOf (faultSlot n code s) n = faultedSlot code (slotOf s n) := by
  rw [slotOf_congr (faultSlot_fsu n s code), slotOf_alterSlot_same]
  rfl

theorem faultSlot_queue : (faultSlot n code s).fsu.queue = s.fsu.queue := by
  rw [faultSlot_fsu, alterSlot_queue]

theorem faultSlot_engine : (faultSlot n code s).fsu.engine = s.fsu.engine := by
  rw [faultSlot_fsu, alterSlot_engine]

theorem gapAfterFault_stands : ReadersStand s (gapAfterFault n s code) := by
  unfold gapAfterFault
  dsimp only
  split
  · exact ⟨fun _ => rfl, rfl, rfl⟩
  · have opened := openGapOf_changes n (alterSlot n (faultedSlot code) s)
    exact ⟨fun k => slot_openGapOf n _ k, (opened .dir (by decide)).symm, (opened .dsq (by decide)).symm⟩

theorem faultSlot_gap : gapFollows n (decide ((slotOf s n).state ≠ .absent)) s (faultSlot n code s) := by
  have mtu : (faultSlot n code s).mtu = (gapAfterFault n s code).mtu := by
    rw [faultSlot_eq, slotEventEnds_mtu, ← bandsFollow_changes s _ .mtu (by decide)]
  refine gapFollows_mtu (u := gapAfterFault n s code) ?_ mtu
  unfold gapAfterFault
  dsimp only
  split
  · next absent =>
    rw [decide_eq_false (not_not.mpr absent)]
    exact gapFollows_stands n rfl
  · next present =>
    rw [decide_eq_true present]
    refine gapFollows_openGapOf n rfl rfl ?_
    rw [slotOf_alterSlot_same]
    exact (congrArg Channel.lastGood (channelAt_holdChannels (slotOf s n) (by decide : 0 < 4))).trans (lastGood_hold _)

theorem faultSlot_readers : readersFollow n false s (faultSlot n code s) := by
  rw [faultSlot_eq]
  exact readersFollow_held (gapAfterFault_stands n code s) (.refl _ _) fun m => by rw [slotOf_congr (bandsFollow_fsu s _)]

theorem faultSlot_device : conditionActive (faultSlot n code s) (condDevice n) = true := by
  have told := slotEventEnds_device s (bandsFollow s (gapAfterFault n s code)) n
  rw [← faultSlot_eq, slotOf_faultSlot_same] at told
  exact told

end

end Sys2Proof.Machine

/-! SUPPORT. What a reply does to its transaction (R17, R18), and the statements on missed transactions and on a script's replies. -/

namespace Sys2Proof.Machine

open Sys2Proof.Safety

/-! ### The end of a transaction (R17, R18) -/

/-- The engine back in IDLE after the last byte of a reply. -/
def replyEnded (s : State) : State := s.withFsu { s.fsu with quietAt := s.fine + 2, engine := .idle }

/-- The engine back in IDLE after a window without a reply. -/
def windowEnded (s : State) : State := s.withFsu { s.fsu with engine := .idle }

theorem replyEnded_changes (s : State) : ChangesOnly [.fsu] s (replyEnded s) := withFsu_changes s _

section
variable {s : State} {f : InFlight} {received : List Byte} {outcome : Reply → Option (Entry → State → State)} {g : Entry → State → State}

theorem endTransaction_discarded (g : State → State) (hd : f.discarded = true) : endTransaction f g s = windowEnded s := by
  unfold endTransaction
  rw [if_pos hd]
  rfl

theorem endTransaction_kept (g : State → State) (hd : f.discarded = false) : endTransaction f g s = g (windowEnded s) := by
  unfold endTransaction
  rw [hd]
  rfl

/-- A reply of the command's kind ends its transaction. -/
theorem replyEvent_judged (ha : awaiting s = some f) {reply : Reply} (hj : judge f.request received = reply) (hr : reply ≠ .incomplete)
    (ho : outcome reply = some g) :
    replyEvent received outcome s = if f.discarded then replyEnded s else g f.entry (replyEnded s) := by
  have judged : replyEvent received outcome s = endTransaction f (g f.entry) (receiverHeard s) := by
    simp only [replyEvent, ha, hj, hr, ho, if_false]
  rw [judged]
  cases hd : f.discarded with
  | true => exact endTransaction_discarded _ hd
  | false => exact endTransaction_kept _ hd

/-- A reply of the command's kind, out of reset, and its outcome. -/
theorem unlessHeld_replyEvent (hs : heldInReset s = false) (ha : awaiting s = some f) {reply : Reply}
    (hj : judge f.request received = reply) (hr : reply ≠ .incomplete) (ho : outcome reply = some g) :
    unlessHeld (replyEvent received outcome) s = .next (if f.discarded then replyEnded s else g f.entry (replyEnded s)) := by
  rw [unlessHeld_released _ hs, replyEvent_judged ha hj hr ho]

/-- What a reply row does rests on what it does with the reply as it is judged. -/
theorem replyEvent_congr {outcome' : Reply → Option (Entry → State → State)} (ha : awaiting s = some f)
    (h : outcome (judge f.request received) = outcome' (judge f.request received)) :
    replyEvent received outcome s = replyEvent received outcome' s := by
  simp only [replyEvent, ha, h]

theorem unlessHeld_congr {f g : State → State} (h : f s = g s) : unlessHeld f s = unlessHeld g s := by
  unfold unlessHeld
  rw [h]

end

/-! ### The five reply rows -/

section
variable {s : State} {f : InFlight} {received : List Byte} (hs : heldInReset s = false) (ha : awaiting s = some f)
include hs ha

theorem exec_badReplyFrame (hj : judge f.request received = .bad) :
    exec (.badReplyFrame received) s = .next (if f.discarded then replyEnded s else miss f.entry (replyEnded s)) :=
  unlessHeld_replyEvent (g := miss) hs ha hj nofun rfl

theorem exec_doneReply (hj : judge f.request received = .done) :
    exec (.doneReply received) s = .next (if f.discarded then replyEnded s else writeDone f.entry (replyEnded s)) :=
  unlessHeld_replyEvent (g := writeDone) hs ha hj nofun rfl

theorem exec_errorReply {code : Nat} (hj : judge f.request received = .error code) :
    exec (.errorReply received) s = .next (if f.discarded then replyEnded s else faultSlot f.entry.slot code (replyEnded s)) :=
  unlessHeld_replyEvent (g := fun e => faultSlot e.slot code) hs ha hj nofun rfl

theorem exec_dataReply {words : List WordBytes} (hj : judge f.request received = .data words) :
    exec (.dataReply received) s = .next (if f.discarded then replyEnded s else dataAnswered f.entry words (replyEnded s)) :=
  unlessHeld_replyEvent (g := fun e => dataAnswered e words) hs ha hj nofun rfl

end

theorem exec_replyWindowExpiry {s : State} {f : InFlight} (hs : heldInReset s = false) (he : expired s = some f) :
    exec .replyWindowExpiry s = .next (if f.discarded then windowEnded s else miss f.entry (windowEnded s)) := by
  have ended : windowExpires s = endTransaction f (miss f.entry) s := by simp only [windowExpires, he]
  refine (unlessHeld_released windowExpires hs).trans ?_
  rw [ended]
  cases hd : f.discarded with
  | true => rw [endTransaction_discarded _ hd, if_pos rfl]
  | false => rw [endTransaction_kept _ hd, if_neg Bool.false_ne_true]

/-! ### Misses (R18, R29) -/

/-- A state that differs from `s` in the line engine and the quiet test alone. -/
def EngineOnly (s u : State) : Prop := ∃ x y, u = s.withFsu { s.fsu with quietAt := x, engine := y }

theorem replyEnded_engineOnly (s : State) : EngineOnly s (replyEnded s) := ⟨s.fine + 2, .idle, rfl⟩

theorem windowEnded_engineOnly (s : State) : EngineOnly s (windowEnded s) := ⟨s.fsu.quietAt, .idle, rfl⟩

section
variable {s u t : State} {n : Fin 16} {e : Entry}

theorem EngineOnly.visitFailed (h : EngineOnly s u) (k : visitFailed n u t) : visitFailed n s t := by
  obtain ⟨x, y, rfl⟩ := h
  exact k

theorem EngineOnly.gapFollows {enters : Bool} (h : EngineOnly s u) (k : gapFollows n enters u t) : gapFollows n enters s t := by
  obtain ⟨x, y, rfl⟩ := h
  exact k

theorem EngineOnly.readersFollow {lost : Bool} (h : EngineOnly s u) (k : readersFollow n lost u t) : readersFollow n lost s t := by
  obtain ⟨x, y, rfl⟩ := h
  exact k

theorem EngineOnly.slotOf (h : EngineOnly s u) (m : Fin 16) : slotOf u m = slotOf s m := by
  obtain ⟨x, y, rfl⟩ := h
  rfl

theorem EngineOnly.changes (h : EngineOnly s u) : ChangesOnly [.fsu] s u := by
  obtain ⟨x, y, rfl⟩ := h
  exact withFsu_changes s _

theorem miss_retried (h : e.tries < (slotOf s e.slot).settings.retries) :
    miss e s = queueEntry { e with tries := e.tries + 1, due := s.fine + 100 } s := if_pos h

theorem miss_failed (h : (slotOf s e.slot).settings.retries ≤ e.tries) : miss e s = failVisit e.slot s := if_neg (Nat.not_lt.mpr h)

/-- A visit that fails as its transaction ends. -/
theorem EngineOnly.failVisit (h : EngineOnly s u) (idle : u.fsu.engine = .idle) (period : 1 ≤ (Machine.slotOf s n).settings.period) :
    Safety.visitFailed n s (Machine.failVisit n u) ∧ ChangesOnly slotBlocks s (Machine.failVisit n u) :=
  ⟨h.visitFailed (failVisit_failed n u (by rw [h.slotOf]; exact period) idle),
    (h.changes.mono (by decide)).trans (failVisit_changes n u)⟩

end

/-- Settles O27: a miss is queued again while its retries last, and else fails the visit. -/
theorem missedTransactionIsRetriedOrFails : Obligations.MissedTransactionIsRetriedOrFails := by
  refine ⟨fun s f received hs ha hj => ⟨fun hd => ?_, fun hd tries => ?_, fun hd tries period => ?_⟩,
    fun s f received ha hj => ?_, fun s f hs he => ⟨fun hd => ?_, fun hd tries => ?_, fun hd tries period => ?_⟩⟩
  · rw [exec_badReplyFrame hs ha hj, if_pos hd]
    rfl
  · rw [exec_badReplyFrame hs ha hj, hd, if_neg Bool.false_ne_true, miss_retried (s := replyEnded s) tries]
    rfl
  · rw [exec_badReplyFrame hs ha hj, hd, if_neg Bool.false_ne_true, miss_failed (s := replyEnded s) tries]
    exact ⟨_, rfl, (replyEnded_engineOnly s).failVisit rfl period⟩
  · have asBad {outcome : Reply → Option (Entry → State → State)} (ho : outcome .bad = some miss) :
        unlessHeld (replyEvent received outcome) s = exec (.badReplyFrame received) s :=
      unlessHeld_congr (replyEvent_congr ha (by rw [hj]; exact ho))
    exact ⟨asBad rfl, asBad rfl, asBad rfl⟩
  · rw [exec_replyWindowExpiry hs he, if_pos hd]
    rfl
  · rw [exec_replyWindowExpiry hs he, hd, if_neg Bool.false_ne_true, miss_retried (s := windowEnded s) tries]
    rfl
  · rw [exec_replyWindowExpiry hs he, hd, if_neg Bool.false_ne_true, miss_failed (s := windowEnded s) tries]
    exact ⟨_, rfl, (windowEnded_engineOnly s).failVisit rfl period⟩

/-! ### Replies to a script (R25, R26) -/

section
variable {s : State} {e : Entry} {k : Nat}

theorem writeDone_next (hp : e.phase = .initWrite k) (h : k + 1 < (slotOf s e.slot).settings.scriptCount) :
    writeDone e s = queueEntry { e with phase := .initWrite (k + 1), due := s.fine, tries := 0 } s := by
  simp only [writeDone, hp, h, if_true]

/-- A slot whose script is written is SETTLING from INIT (R25). -/
def settledSlot (sl : Slot) : Slot := { sl with state := if sl.state = .init then .settling else sl.state }

theorem writeDone_last (hp : e.phase = .initWrite k) (h : (slotOf s e.slot).settings.scriptCount ≤ k + 1) :
    writeDone e s = queueEntry
      { e with
        phase := phaseAfterScript (slotOf s e.slot), due := s.fine + (slotOf s e.slot).settings.settle * 100, tries := 0 }
      (alterSlot e.slot settledSlot s) := by
  have settled : settledSlot = fun sl => if sl.state = .init then { sl with state := .settling } else sl := by
    funext sl
    unfold settledSlot
    split
    · rfl
    · rfl
  rw [settled]
  simp only [writeDone, hp, Nat.not_lt.mpr h, if_false]

end

/-- Settles O26: a DONE queues the next write or the phase after the script, an ERROR faults the slot. -/
theorem scriptRepliesMoveTheVisit : Obligations.ScriptRepliesMoveTheVisit := by
  refine ⟨fun s f received k hs ha hj hd hp => ⟨fun more => ?_, fun last => ?_⟩, fun s f received code hs ha hj hd => ?_,
    fun s f received hs ha hd => ⟨fun hj => ?_, fun code hj => ?_⟩⟩
  · rw [exec_doneReply hs ha hj, hd, if_neg Bool.false_ne_true, writeDone_next (s := replyEnded s) hp more]
    rfl
  · rw [exec_doneReply hs ha hj, hd, if_neg Bool.false_ne_true, writeDone_last (s := replyEnded s) hp last]
    refine ⟨_, rfl, rfl, rfl, fun m hm => ?_, ?_, ?_⟩
    · rw [slotOf_queueEntry, slotOf_alterSlot_other _ _ hm]
      rfl
    · rw [slotOf_queueEntry, slotOf_alterSlot_same]
      rfl
    · exact ((replyEnded_changes s).trans (alterSlot_changes _ _ _)).trans (withFsu_changes _ _)
  · rw [exec_errorReply hs ha hj, hd, if_neg Bool.false_ne_true]
    have slot := slotOf_faultSlot_same f.entry.slot code (replyEnded s)
    have gap := faultSlot_gap f.entry.slot code (replyEnded s)
    rw [(replyEnded_engineOnly s).slotOf] at slot gap
    refine ⟨_, rfl, ?_, ?_, fun c => ?_, ?_, ?_, ?_, faultSlot_device _ _ _, (replyEnded_engineOnly s).gapFollows gap,
      (replyEnded_engineOnly s).readersFollow (faultSlot_readers _ _ _), faultSlot_queue _ _ _, faultSlot_engine _ _ _,
      ((replyEnded_changes s).mono (by decide)).trans (faultSlot_changes _ _ _)⟩
    · rw [slot, faultedSlot]
    · rw [slot, faultedSlot]
    · rw [slot]
      exact nth_each _ _ c
    · rw [slot]
      rfl
    · rw [slot]
      rfl
    · rw [slot]
      rfl
  · rw [exec_doneReply hs ha hj, if_pos hd]
    rfl
  · rw [exec_errorReply hs ha hj, if_pos hd]
    rfl

end Sys2Proof.Machine

/-! SUPPORT. How a received frame is delimited, judged and decoded (R14, R17, R32, R207, R208). -/

namespace Sys2Proof.Machine

open Sys2Proof.Safety

/-! ### Delimiting (R208) -/

/-- Bytes before a start mark are discarded. -/
theorem dropWhile_before {before : List Byte} (hb : (0xC5 : Byte) ∉ before) (l : List Byte) :
    (before ++ l).dropWhile (fun b => decide (b ≠ 0xC5)) = l.dropWhile fun b => decide (b ≠ 0xC5) :=
  List.dropWhile_append_of_pos fun _ h => decide_eq_true fun e => hb (e ▸ h)

theorem dropWhile_startMark (l : List Byte) :
    ((0xC5 : Byte) :: l).dropWhile (fun b => decide (b ≠ 0xC5)) = 0xC5 :: l := rfl

section
variable {request : LineRequest} {before : List Byte} (hb : (0xC5 : Byte) ∉ before)
include hb

theorem delimit_before (l : List Byte) : delimit (before ++ l) = delimit l := by
  unfold delimit
  rw [dropWhile_before hb]

theorem judge_before (l : List Byte) : judge request (before ++ l) = judge request l := by
  unfold judge
  rw [delimit_before hb]

end

section
variable {address kind : Byte} {more : List Byte}

theorem delimit_broken (h : bytesAfterKind kind more = none) : delimit (0xC5 :: address :: kind :: more) = .broken := by
  simp only [delimit, dropWhile_startMark, h]

theorem delimit_uncounted (h : bytesAfterKind kind more = some none) : delimit (0xC5 :: address :: kind :: more) = .incomplete := by
  simp only [delimit, dropWhile_startMark, h]

theorem delimit_short {n : Nat} (h : bytesAfterKind kind more = some (some n)) (hl : more.length < n) :
    delimit (0xC5 :: address :: kind :: more) = .incomplete := by
  simp only [delimit, dropWhile_startMark, h, hl, if_true]

/-- A frame of its full length, with the byte at its end. -/
theorem delimit_full {rest tail : List Byte} {last : Byte}
    (h : bytesAfterKind kind (rest ++ last :: tail) = some (some (rest.length + 1))) :
    delimit (0xC5 :: address :: kind :: (rest ++ last :: tail)) =
      if last = 0x5C then .frame (address :: kind :: rest) else .broken := by
  have long : ¬ (rest ++ last :: tail).length < rest.length + 1 := by
    rw [List.length_append, List.length_cons]
    omega
  have ending : (rest ++ last :: tail)[rest.length]? = some last := by
    rw [List.getElem?_append_right le_rfl, Nat.sub_self]
    rfl
  have body : (rest ++ last :: tail).take rest.length = rest := List.take_left
  simp only [delimit, dropWhile_startMark, h, long, if_false, Nat.add_sub_cancel, ending, body, Option.some.injEq]

end

theorem bytesAfterKind_unknown {kind : Byte} (h : kind ∉ ([0x31, 0x32, 0xB1, 0xB2, 0xF2] : List Byte)) (more : List Byte) :
    bytesAfterKind kind more = none := by
  simp only [List.mem_cons, List.not_mem_nil, or_false, not_or] at h
  obtain ⟨read, write, data, done, error⟩ := h
  simp only [bytesAfterKind, read, write, data, done, error, if_false]

/-- A DATA frame with a word count outside 1 to 8 is no frame. -/
theorem bytesAfterKind_uncountable {count : Byte} (h : count.toNat = 0 ∨ 8 < count.toNat) (more : List Byte) :
    bytesAfterKind 0xB1 (count :: more) = none := by
  have counted : bytesAfterKind 0xB1 (count :: more)
      = if 1 ≤ count.toNat ∧ count.toNat ≤ 8 then some (some (4 + 2 * count.toNat)) else none := rfl
  rw [counted, if_neg (by omega)]

theorem judge_broken {request : LineRequest} {received : List Byte} (h : delimit received = .broken) : judge request received = .bad := by
  simp only [judge, h]

/-- A body's kind, and the bytes after its kind, have the length that R207 gives. -/
abbrev kindLength (kind : Byte) (rest : List Byte) : Prop :=
  (kind = 0x31 ∧ rest.length = 3) ∨ (kind = 0x32 ∧ rest.length = 4) ∨ (kind = 0xB2 ∧ rest.length = 2)
    ∨ (kind = 0xF2 ∧ rest.length = 3)
    ∨ (kind = 0xB1 ∧ ∃ (count : Byte) (data : List Byte), rest = count :: data ∧ 1 ≤ count.toNat ∧ count.toNat ≤ 8
        ∧ data.length = 2 * count.toNat)

/-- The length that the bytes so far give a frame is that of its kind, once a DATA frame's word count is there. -/
theorem bytesAfterKind_take {kind : Byte} {rest : List Byte} (h : kindLength kind rest) (tail : List Byte) (j : Nat) :
    bytesAfterKind kind ((rest ++ tail).take j) = some (some (rest.length + 3))
      ∨ (j = 0 ∧ bytesAfterKind kind ((rest ++ tail).take j) = some none) := by
  rcases h with ⟨rfl, hl⟩ | ⟨rfl, hl⟩ | ⟨rfl, hl⟩ | ⟨rfl, hl⟩ | ⟨rfl, count, data, rfl, low, high, hl⟩
  · exact .inl (by rw [hl]; rfl)
  · exact .inl (by rw [hl]; rfl)
  · exact .inl (by rw [hl]; rfl)
  · exact .inl (by rw [hl]; rfl)
  · cases j with
    | zero => exact .inr ⟨rfl, rfl⟩
    | succ j =>
      have counted : bytesAfterKind 0xB1 ((count :: data ++ tail).take (j + 1))
          = if 1 ≤ count.toNat ∧ count.toNat ≤ 8 then some (some (4 + 2 * count.toNat)) else none := rfl
      rw [counted, if_pos ⟨low, high⟩, List.length_cons, hl]
      exact .inl (congrArg (some ∘ some) (by omega))

theorem bytesAfterKind_full {kind : Byte} {rest : List Byte} (h : kindLength kind rest) {tail : List Byte} (ht : tail ≠ []) :
    bytesAfterKind kind (rest ++ tail) = some (some (rest.length + 3)) := by
  have taken := bytesAfterKind_take h tail (rest ++ tail).length
  rw [List.take_length] at taken
  refine taken.resolve_right fun e => ht ?_
  exact (List.append_eq_nil_iff.mp (List.eq_nil_of_length_eq_zero e.1)).2

/-- A body without its CRC and end mark, complete or cut short. -/
theorem judge_take {request : LineRequest} {address kind : Byte} {rest : List Byte} (h : kindLength kind rest) (high low last : Byte)
    {k : Nat}
    (hk : k < rest.length + 6) :
    judge request ((0xC5 :: (address :: kind :: rest) ++ [high, low, last]).take k) = .incomplete := by
  have short (l : List Byte) (hl : delimit l = .incomplete) : judge request l = .incomplete := by simp only [judge, hl]
  refine short _ ?_
  match k with
  | 0 | 1 | 2 => rfl
  | j + 3 =>
    have shape : (0xC5 :: (address :: kind :: rest) ++ [high, low, last]).take (j + 3)
        = 0xC5 :: address :: kind :: (rest ++ [high, low, last]).take j := rfl
    rw [shape]
    rcases bytesAfterKind_take h [high, low, last] j with counted | ⟨-, uncounted⟩
    · refine delimit_short counted ?_
      rw [List.length_take]
      omega
    · exact delimit_uncounted uncounted

/-- A complete frame: its end mark, then the tests of R17 on its body. -/
theorem judge_frame {request : LineRequest} {address kind : Byte} {rest : List Byte} (h : kindLength kind rest) (high low last : Byte)
    (after : List Byte) :
    judge request ((0xC5 :: (address :: kind :: rest) ++ [high, low, last]) ++ after) =
      if last = 0x5C then judgeBody request (address :: kind :: rest ++ [high, low]) else .bad := by
  have shape : (0xC5 :: (address :: kind :: rest) ++ [high, low, last]) ++ after
      = 0xC5 :: address :: kind :: ((rest ++ [high, low]) ++ last :: after) := by simp
  have long : bytesAfterKind kind ((rest ++ [high, low]) ++ last :: after) = some (some ((rest ++ [high, low]).length + 1)) := by
    have full := bytesAfterKind_full h (tail := high :: low :: last :: after) nofun
    rw [List.append_assoc, List.length_append]
    exact full
  unfold judge
  rw [shape, delimit_full long]
  by_cases ends : last = 0x5C
  · rw [if_pos ends, if_pos ends]
    rfl
  · rw [if_neg ends, if_neg ends]

/-! ### Judging (R17) -/

theorem crcGood_append (body : List Byte) (high low : Byte) : crcGood (body ++ [high, low]) = decide ([high, low] = crcBytes body) := by
  have cut : (body ++ [high, low]).length - 2 = body.length := by rw [List.length_append]; rfl
  rw [crcGood, cut, List.drop_left, List.take_left]

/-- The words of a DATA frame are the pairs of its bytes. -/
theorem wordsOf_flatMap (words : List WordBytes) : wordsOf (words.flatMap fun w => [w.first, w.second]) = words := by
  induction words with
  | nil => rfl
  | cons w rest ih => exact congrArg (w :: ·) ih

theorem flatMap_wordsOf {count : Nat} {data : List Byte} (h : data.length = 2 * count) :
    (wordsOf data).flatMap (fun w => [w.first, w.second]) = data := by
  induction count generalizing data with
  | zero => rw [List.eq_nil_of_length_eq_zero h]; rfl
  | succ count ih =>
    match data with
    | [] | [_] => simp only [List.length_cons, List.length_nil] at h; omega
    | a :: b :: rest =>
      have rest_length : rest.length = 2 * count := by simp only [List.length_cons] at h; omega
      exact congrArg (fun l => a :: b :: l) (ih rest_length)

section
variable {body : List Byte} {high low : Byte}

theorem judgeBody_crc (request : LineRequest) (h : [high, low] ≠ crcBytes body) : judgeBody request (body ++ [high, low]) = .bad := by
  unfold judgeBody
  rw [crcGood_append, decide_eq_false h]
  exact if_pos rfl

theorem take_body (body : List Byte) (high low : Byte) : (body ++ [high, low]).take ((body ++ [high, low]).length - 2) = body := by
  rw [List.length_append]
  exact List.take_left

/-- The word count that answers a READ is the count asked for, where a DATA frame has that many words. -/
theorem toNat_count {address kind : Byte} {count : Nat} {data : List Byte} (hk : kind = 0xB1)
    (hf : frameBody (address :: kind :: BitVec.ofNat 8 count :: data)) (hl : data.length = 2 * count) :
    (BitVec.ofNat 8 count).toNat = count := by
  subst hk
  obtain ⟨a, k, rest, shape, lengths⟩ := hf
  obtain ⟨-, shape⟩ := List.cons.inj shape
  obtain ⟨kind, rfl⟩ := List.cons.inj shape
  subst kind
  rcases lengths with ⟨⟨⟩, -⟩ | ⟨⟨⟩, -⟩ | ⟨⟨⟩, -⟩ | ⟨⟨⟩, -⟩ | ⟨-, n, d, shape, -, -, length⟩
  obtain ⟨rfl, rfl⟩ := List.cons.inj shape
  omega

/-- With its CRC good a body that answers the request brings what it answers. -/
theorem judgeBody_answers {request : LineRequest} {r : Reply} (hc : [high, low] = crcBytes body) (hf : frameBody body)
    (ha : answersWith request body r) : judgeBody request (body ++ [high, low]) = r := by
  unfold judgeBody
  rw [crcGood_append, decide_eq_true hc, Bool.not_true, if_neg Bool.false_ne_true, take_body]
  cases request with
  | read address start count =>
    obtain ⟨data, words, rfl, length, hw, rfl⟩ := ha
    refine (if_pos ⟨rfl, rfl, toNat_count rfl hf length, length⟩).trans ?_
    rw [← hw, wordsOf_flatMap]
  | write address register value =>
    rcases ha with ⟨rfl, rfl⟩ | ⟨code, rfl, rfl⟩
    · exact if_pos ⟨rfl, rfl, rfl⟩
    · exact if_pos ⟨rfl, rfl, rfl⟩

/-- With its CRC good a body that is judged to be more than bad answers the request. -/
theorem judgeBody_unanswered {request : LineRequest} (hc : [high, low] = crcBytes body) (hj : ∀ r, ¬ answersWith request body r) :
    judgeBody request (body ++ [high, low]) = .bad := by
  unfold judgeBody
  rw [crcGood_append, decide_eq_true hc, Bool.not_true, if_neg Bool.false_ne_true, take_body]
  split
  · next address start count a kind n data =>
    refine if_neg fun test => ?_
    obtain ⟨rfl, rfl, rfl, length⟩ := test
    refine hj (.data (wordsOf data)) ⟨data, wordsOf data, ?_, length, flatMap_wordsOf length, rfl⟩
    rw [BitVec.ofNat_toNat, BitVec.setWidth_eq]
  · next address register value a kind r1 r2 =>
    refine if_neg fun test => ?_
    obtain ⟨rfl, rfl, fields⟩ := test
    exact hj .done (.inl ⟨by rw [fields]; rfl, rfl⟩)
  · next address register value a kind r1 r2 code =>
    refine if_neg fun test => ?_
    obtain ⟨rfl, rfl, fields⟩ := test
    exact hj (.error code.toNat) (.inr ⟨code, by rw [← word16_eq, ← fields]; rfl, rfl⟩)
  · rfl

end

/-! ### Channels (R32) -/

theorem wordAt_formed {words : List WordBytes} {j : Nat} {a b : Byte} (swap : Bool) (h : words[j]? = some ⟨a, b⟩) :
    wordAt words swap j = wordFormed swap a b := by
  rw [wordAt, h, Option.map_some, Option.getD_some, WordBytes.value, wordFormed]
  simp only [Nat.mul_comm]

section
variable {c : ChannelSetting} {words : List WordBytes} {a b : Byte} (h : words[c.offset]? = some ⟨a, b⟩)
include h

theorem decodeChannel_u16 (hf : c.format = .u16) : decodeChannel c words = wordFormed c.swap a b := by
  simp only [decodeChannel, hf, wordAt_formed c.swap h]

theorem decodeChannel_s16 (hf : c.format = .s16) : decodeChannel c words =
    if wordFormed c.swap a b < 32768 then (wordFormed c.swap a b : Int) else (wordFormed c.swap a b : Int) - 65536 := by
  simp only [decodeChannel, hf, wordAt_formed c.swap h]

theorem decodeChannel_u8 (hf : c.format = .u8) : decodeChannel c words = (wordFormed c.swap a b % 256 : Nat) := by
  simp only [decodeChannel, hf, wordAt_formed c.swap h]

theorem decodeChannel_u32 {a2 b2 : Byte} (h2 : words[c.offset + 1]? = some ⟨a2, b2⟩) (hf : c.format = .u32) :
    decodeChannel c words =
      (if c.swap then wordFormed true a2 b2 * 65536 + wordFormed true a b
        else wordFormed false a b * 65536 + wordFormed false a2 b2 : Nat) := by
  simp only [decodeChannel, hf, wordAt_formed c.swap h, wordAt_formed c.swap h2]
  cases c.swap <;> rfl

end

end Sys2Proof.Machine

/-! SUPPORT. A visit that succeeds and a readiness check (R27, R28, R31, R34, R35), and the statement on DATA. -/

namespace Sys2Proof.Machine

open Sys2Proof.Safety

section
variable (n : Fin 16) (words : List WordBytes) (s : State)

/-! ### The slot of a good READ (R28, R34) -/

/-- A slot that has taken a good READ, with its threshold evaluated. -/
def readSlot (fine : Nat) (sl : Slot) : Slot := evaluateThreshold (sl.takeWords fine words)

theorem alterSlot_read : alterSlot n evaluateThreshold (readTaken n words s) = alterSlot n (readSlot words s.fine) s := by
  have slots : alter (alter s.fsu.slots n fun sl => sl.takeWords s.fine words) n evaluateThreshold
      = alter s.fsu.slots n (readSlot words s.fine) := table_ext fun m => by
    by_cases h : m = n
    · subst h
      rw [nth_alter_same, nth_alter_same, nth_alter_same]
      rfl
    · rw [nth_alter_other _ _ h, nth_alter_other _ _ h, nth_alter_other _ _ h]
  unfold alterSlot readTaken alterSlot
  rw [State.withFsu_fsu]
  exact congrArg (fun x => s.withFsu { s.fsu with slots := x }) slots

theorem succeedVisit_slots : (succeedVisit n words s).fsu = (scheduleNext n (alterSlot n (readSlot words s.fine) s)).fsu := by
  rw [succeedVisit_fsu, alterSlot_read]

theorem slotOf_succeedVisit_same :
    slotOf (succeedVisit n words s) n =
      { readSlot words s.fine (slotOf s n) with
        overruns := holdAdd 65535 (slotOf s n).overruns (periodsToNext n (alterSlot n (readSlot words s.fine) s) - 1)
        scheduled := some (nextVisitTime n (alterSlot n (readSlot words s.fine) s)), recovered := false } := by
  rw [slotOf_congr (succeedVisit_slots n words s), slotOf_scheduleNext_same, slotOf_alterSlot_same]
  rfl

theorem slotOf_succeedVisit_other {m : Fin 16} (h : m ≠ n) : slotOf (succeedVisit n words s) m = slotOf s m := by
  rw [slotOf_congr (succeedVisit_slots n words s), slotOf_scheduleNext_other _ _ h, slotOf_alterSlot_other _ _ h]

/-- The channels at the end of the visit are those decoded from the reply. -/
theorem channels_succeedVisit : (slotOf (succeedVisit n words s) n).channels = ((slotOf s n).takeWords s.fine words).channels := by
  rw [slotOf_succeedVisit_same]
  rfl

theorem nth_takeWords {sl : Slot} {c : Fin 4} {setting : ChannelSetting} (h : channelSetting? sl c.val = some setting) (fine : Nat) :
    nth (sl.takeWords fine words).channels c = ⟨decodeChannel setting words, .good, some fine⟩ := by
  simp only [Slot.takeWords, nth_tab, h]

theorem succeedVisit_scheduled (period : 1 ≤ (slotOf s n).settings.period) : nextVisitQueued n s (succeedVisit n words s) :=
  nextVisitQueued_scheduleNext (u := alterSlot n (readSlot words s.fine) s) (by rw [slotOf_alterSlot_same]; rfl)
    (by rw [slotOf_alterSlot_same]; rfl) (by rw [slotOf_alterSlot_same]; rfl) rfl rfl period (succeedVisit_slots n words s)

theorem succeedVisit_engine : (succeedVisit n words s).fsu.engine = s.fsu.engine := by
  rw [succeedVisit_slots, scheduleNext_engine, alterSlot_engine]

theorem succeedVisit_device : conditionActive (succeedVisit n words s) (condDevice n) = false := by
  have told := slotEventEnds_device s (readScheduled n words s) n
  rw [← succeedVisit_eq, slotOf_succeedVisit_same] at told
  exact told

theorem succeedVisit_threshold :
    conditionActive (succeedVisit n words s) (condThreshold n) = (slotOf (succeedVisit n words s) n).thresholdOn := by
  have told := slotEventEnds_threshold s (readScheduled n words s) n
  rwa [← succeedVisit_eq] at told

theorem thresholdOn_evaluate_none {sl : Slot} (h : sl.settings.threshold = none) : (evaluateThreshold sl).thresholdOn = false := by
  simp only [evaluateThreshold, h]

/-- The zone test of R34 on the channel that the threshold names. -/
theorem thresholdOn_evaluate_some {sl : Slot} {th : Threshold} (h : sl.settings.threshold = some th) :
    (evaluateThreshold sl).thresholdOn = th.holds (channelAt sl th.channel).value := by
  simp only [evaluateThreshold, h]

theorem threshold_succeedVisit_none (h : (slotOf s n).settings.threshold = none) :
    (slotOf (succeedVisit n words s) n).thresholdOn = false := by
  rw [slotOf_succeedVisit_same]
  exact thresholdOn_evaluate_none h

theorem threshold_succeedVisit_some {th : Threshold} (h : (slotOf s n).settings.threshold = some th) :
    (slotOf (succeedVisit n words s) n).thresholdOn
      = th.holds (channelAt (slotOf (succeedVisit n words s) n) th.channel).value := by
  have channel : channelAt (slotOf (succeedVisit n words s) n) th.channel = channelAt ((slotOf s n).takeWords s.fine words) th.channel := by
    rw [channelAt, channels_succeedVisit, channelAt]
  rw [channel, slotOf_succeedVisit_same]
  exact thresholdOn_evaluate_some (sl := (slotOf s n).takeWords s.fine words) h

end

/-! ### The readiness check (R27) -/

section
variable {s : State} {e : Entry} {words : List WordBytes}

theorem dataAnswered_read (h : e.phase = .read) : dataAnswered e words s = succeedVisit e.slot words s := by
  simp only [dataAnswered, h]

theorem dataAnswered_readyCheck (h : e.phase = .readyCheck) : dataAnswered e words s = readyAnswered e (wordAt words false 0) s := by
  simp only [dataAnswered, h]

variable {word : Nat}

theorem readyAnswered_ready (h : word.testBit (slotOf s e.slot).settings.readyBit = true) :
    readyAnswered e word s = queueEntry { e with phase := .read, due := s.fine, tries := 0, checks := e.checks + 1 } s := if_pos h

theorem readyAnswered_again (h : word.testBit (slotOf s e.slot).settings.readyBit = false)
    (hc : e.checks + 1 < (slotOf s e.slot).settings.readyLimit) :
    readyAnswered e word s = queueEntry { e with due := s.fine + 1000, tries := 0, checks := e.checks + 1 } s := by
  rw [readyAnswered, h, if_neg Bool.false_ne_true, if_pos hc]

theorem readyAnswered_failed (h : word.testBit (slotOf s e.slot).settings.readyBit = false)
    (hc : (slotOf s e.slot).settings.readyLimit ≤ e.checks + 1) : readyAnswered e word s = failVisit e.slot s := by
  rw [readyAnswered, h, if_neg Bool.false_ne_true, if_neg (Nat.not_lt.mpr hc)]

end

theorem holds_outside {th : Threshold} (h : th.zone = .outside) (value : Int) :
    th.holds value = true ↔ th.upper ≤ value ∨ value ≤ th.lower := by
  simp only [Threshold.holds, h, Bool.or_eq_true, decide_eq_true_eq]

theorem holds_inside {th : Threshold} (h : th.zone = .inside) (value : Int) :
    th.holds value = true ↔ value < th.upper ∧ th.lower < value := by
  simp only [Threshold.holds, h, Bool.and_eq_true, decide_eq_true_eq]

section
variable {s u t : State} {n : Fin 16}

theorem EngineOnly.nextVisitQueued (h : EngineOnly s u) (hq : u.fsu.queue = s.fsu.queue) (k : nextVisitQueued n u t) :
    nextVisitQueued n s t := by
  obtain ⟨x, y, rfl⟩ := h
  exact k

end

/-- A READ whose DATA is taken as its transaction ends (R28, R31, R34, R35). -/
theorem replyEnded_succeedVisit (n : Fin 16) (words : List WordBytes) (s : State) (period : 1 ≤ (slotOf s n).settings.period) :
    nextVisitQueued n s (succeedVisit n words (replyEnded s))
      ∧ ChangesOnly slotBlocks s (succeedVisit n words (replyEnded s)) :=
  ⟨(replyEnded_engineOnly s).nextVisitQueued rfl (succeedVisit_scheduled n words (replyEnded s) period),
    ((replyEnded_changes s).mono (by decide)).trans (succeedVisit_changes n words _)⟩

/-- Settles O23: the frame, the words, then the READ and the readiness check. -/
theorem dataReplyAnswersTheVisit : Obligations.DataReplyAnswersTheVisit := by
  refine ⟨fun request body before after high low last hf hb => ⟨fun ends crc r answers => ?_, fun fails => ?_, fun k hk => ?_⟩,
    fun request before after address kind count hb => ⟨fun unknown => ?_, fun outside => ?_⟩, by decide +kernel, by decide +kernel,
    by decide +kernel,
    fun c words a b h => ⟨decodeChannel_u16 h, decodeChannel_s16 h, decodeChannel_u8 h, fun a2 b2 => decodeChannel_u32 h⟩,
    fun s f received words hs ha hj => ⟨fun hd => ?_, fun hd hp period => ?_, fun hd hp => ⟨fun ready => ?_, fun unready again => ?_,
      fun unready limit period => ?_⟩⟩⟩
  · obtain ⟨address, kind, rest, rfl, lengths⟩ := hf
    rw [List.append_assoc, judge_before hb, judge_frame lengths, if_pos ends]
    exact judgeBody_answers crc ⟨address, kind, rest, rfl, lengths⟩ answers
  · obtain ⟨address, kind, rest, rfl, lengths⟩ := hf
    rw [List.append_assoc, judge_before hb, judge_frame lengths]
    by_cases ends : last = 0x5C
    · rw [if_pos ends]
      by_cases crc : [high, low] = crcBytes (address :: kind :: rest)
      · exact judgeBody_unanswered crc ((fails.resolve_left (not_not.mpr ends)).resolve_left (not_not.mpr crc))
      · exact judgeBody_crc request crc
    · rw [if_neg ends]
  · obtain ⟨address, kind, rest, rfl, lengths⟩ := hf
    rw [judge_before hb]
    exact judge_take lengths high low last hk
  · rw [judge_before hb, judge_broken (delimit_broken (bytesAfterKind_unknown unknown _))]
  · rw [judge_before hb, judge_broken (delimit_broken (bytesAfterKind_uncountable outside _))]
  · rw [exec_dataReply hs ha hj, if_pos hd]
    rfl
  · rw [exec_dataReply hs ha hj, hd, if_neg Bool.false_ne_true, dataAnswered_read hp]
    have slot := slotOf_succeedVisit_same f.entry.slot words (replyEnded s)
    obtain ⟨queued, changes⟩ := replyEnded_succeedVisit f.entry.slot words s period
    refine ⟨_, rfl, ?_, ?_, fun c setting hc => ?_, ?_, ?_, fun m hm => ?_, queued, fun unset => ?_, fun th set => ?_,
      succeedVisit_threshold _ _ _, succeedVisit_device _ _ _, succeedVisit_engine _ _ _, changes⟩
    · rw [slot]
      rfl
    · rw [slot]
      rfl
    · rw [channels_succeedVisit]
      exact nth_takeWords words hc _
    · rw [slot]
      rfl
    · rw [slot]
      rfl
    · rw [slotOf_succeedVisit_other _ _ _ hm]
      rfl
    · exact threshold_succeedVisit_none _ _ _ unset
    · rw [threshold_succeedVisit_some _ _ (replyEnded s) set]
      cases zone : th.zone with
      | outside => exact holds_outside zone _
      | inside => exact holds_inside zone _
  · rw [exec_dataReply hs ha hj, hd, if_neg Bool.false_ne_true, dataAnswered_readyCheck hp, readyAnswered_ready (s := replyEnded s) ready]
    rfl
  · rw [exec_dataReply hs ha hj, hd, if_neg Bool.false_ne_true, dataAnswered_readyCheck hp,
      readyAnswered_again (s := replyEnded s) unready again]
    rfl
  · rw [exec_dataReply hs ha hj, hd, if_neg Bool.false_ne_true, dataAnswered_readyCheck hp,
      readyAnswered_failed (s := replyEnded s) unready limit]
    exact ⟨_, rfl, (replyEnded_engineOnly s).failVisit rfl period⟩

end Sys2Proof.Machine

/-! SUPPORT. What a binding asks of a slot (R37), the start of a slot's visits, and the statement on SET-SLOT (R20). -/

namespace Sys2Proof.Machine

open Sys2Proof.Safety

/-! ### Bindings (R37) -/

section
variable {s : State} {n : Fin 16}

theorem pointBoundTo_isSome : (pointBoundTo s n).isSome = true ↔ ∃ k, (pointOf s k).slot = some n := by
  rw [Option.isSome_iff_ne_none, pointBoundTo, ne_eq, firstFin_eq_none, not_forall]
  simp only [Bool.not_eq_false, decide_eq_true_eq]

theorem channelOn_some {b : Option Binding} {c : Nat} : channelOn n b = some c ↔ ∃ x ∈ b, x.slot = n ∧ x.channel = c := by
  cases b with
  | none => simp [channelOn]
  | some x => by_cases h : x.slot = n <;> simp [channelOn, h]

theorem channelOn_isSome {b : Option Binding} : (channelOn n b).isSome = true ↔ ∃ x ∈ b, x.slot = n := by
  simp only [Option.isSome_iff_exists, channelOn_some]
  exact ⟨fun ⟨_, x, hx, here, _⟩ => ⟨x, hx, here⟩, fun ⟨x, hx, here⟩ => ⟨_, x, hx, here, rfl⟩⟩

theorem slotBound_iff : slotBound s n = true ↔ isBound s n := by
  simp only [slotBound, Bool.or_eq_true, pointBoundTo_isSome, someFin_eq_true, channelOn_isSome, or_assoc]

end

/-! ### The start of a slot's visits (R20, R21) -/

theorem firstPhase_init {sl : Slot} (h : sl.state = .init) : firstPhase sl = firstOfInit sl.settings := by
  simp [firstPhase, firstOfInit, phaseAfterScript, scriptVisit, h]

/-- What the start of a slot's visits can change: not the metering. -/
abbrev startBlocks : List Block := [.fsu, .cdt, .dir, .cpd, .dsq, .nfu, .freeReads]

/-- An event in which a slot loses its channels and its first visit is scheduled now. -/
theorem slotStarts_changes (n : Fin 16) (before : State) {s t : State} (h : ChangesOnly [.fsu] s t) :
    ChangesOnly startBlocks s (slotEventEnds before n (scheduleVisit n before.fine (channelsLost n before t))) :=
  (((h.mono (by decide)).trans ((channelsLost_changes n before t).mono (by decide))).trans
    ((scheduleVisit_changes n _ _).mono (by decide))).trans ((slotEventEnds_changes before n _).mono (by decide))

section
variable (n : Fin 16) (s : State)

theorem restartSlot_leavesMetering : ChangesOnly startBlocks s (restartSlot n s) :=
  slotStarts_changes n s ((withdrawSlot_changes n s).trans (alterSlot_changes n _ _))

theorem slotOf_restartSlot_same :
    slotOf (restartSlot n s) n = freshSlot (slotOf s n).enabled (slotOf s n).settings (slotOf s n).lastError s.fine := by
  rw [slotOf_congr (restartSlot_fsu n s), slotOf_scheduleVisit_same, slotOf_alterSlot_same, slotOf_withdrawSlot]
  rfl

theorem slotOf_restartSlot_other {m : Fin 16} (h : m ≠ n) : slotOf (restartSlot n s) m = slotOf s m := by
  rw [slotOf_congr (restartSlot_fsu n s), slotOf_scheduleVisit_other _ _ _ h, slotOf_alterSlot_other _ _ h, slotOf_withdrawSlot]

theorem restartSlot_queue :
    (restartSlot n s).fsu.queue = enqueue ⟨n, s.fine, firstOfInit (slotOf s n).settings, 0, 0⟩ (dequeue n s.fsu.queue) := by
  rw [restartSlot_fsu, scheduleVisit_queue, slotOf_alterSlot_same, slotOf_withdrawSlot, alterSlot_queue, withdrawSlot_queue,
    firstPhase_init rfl]
  rfl

theorem restartSlot_engine {f : InFlight} (h : s.fsu.engine = .awaitReply f) :
    (restartSlot n s).fsu.engine = .awaitReply { f with discarded := f.discarded || decide (f.entry.slot = n) } := by
  rw [restartSlot_fsu, scheduleVisit_engine, alterSlot_engine, withdrawSlot_engine n s h]

theorem restartSlot_script : (restartSlot n s).fsu.script = s.fsu.script := by
  rw [restartSlot_fsu]
  rfl

theorem restartSlot_window : (restartSlot n s).fsu.window = s.fsu.window := by
  rw [restartSlot_fsu]
  rfl

theorem restartSlot_threshold : conditionActive (restartSlot n s) (condThreshold n) = false := by
  have told := slotEventEnds_threshold s (scheduleVisit n s.fine (channelsLost n s (alterSlot n restartedSlot (withdrawSlot n s)))) n
  rw [← restartSlot_eq, slotOf_restartSlot_same] at told
  exact told

theorem restartSlot_device : conditionActive (restartSlot n s) (condDevice n) = false := by
  have told := slotEventEnds_device s (scheduleVisit n s.fine (channelsLost n s (alterSlot n restartedSlot (withdrawSlot n s)))) n
  rw [← restartSlot_eq, slotOf_restartSlot_same] at told
  exact told

end

/-! ### The response -/

section
variable {p : Port} {code bytes : Nat} {s t : State}

theorem accepted_changes (p : Port) (code bytes : Nat) (s : State) : ChangesOnly [.pif] s (accepted p code bytes s) := withPif_changes s _

theorem accepted_pif (h : t.pif = s.pif) : (accepted p code bytes t).pif = (accepted p code bytes s).pif := by
  simp only [accepted, answered, alterPort, State.withPif_pif, h]

end

/-! ### SET-SLOT (R20) -/

theorem length_readChannels {fields : List Byte} {start count : Nat} {l : List ChannelSetting}
    (h : readChannels fields start count = some l) : l.length = count := by
  induction count generalizing start l with
  | zero =>
    cases h
    rfl
  | succ count ih =>
    simp only [readChannels, bind, pure, Option.bind_eq_some_iff] at h
    obtain ⟨_, _, _, _, rest, hr, hl⟩ := h
    rw [← Option.some.inj hl, List.length_cons, ih hr]

theorem length_readSlotSettings {fields : List Byte} {c : SlotSettings} (h : readSlotSettings fields = some c) :
    c.channels.length = byteAt fields 5 := by
  simp only [readSlotSettings, bind, pure, Option.bind_eq_some_iff] at h
  obtain ⟨channels, hc, _, _, _, _, hl⟩ := h
  rw [← Option.some.inj hl]
  exact length_readChannels hc

section
variable {fields : List Byte} {n : Fin 16} {c : SlotSettings} {s : State}

theorem setSlot_range (hn : index? 16 (byteAt fields 0) = some n) (hc : readSlotSettings fields = some c)
    (h : ¬ slotSettingsInRange c) : setSlot fields s = .refuse .range := by
  rw [← slotSettings_inRange_iff, Bool.not_eq_true] at h
  simp only [setSlot, hn, hc, h, Bool.not_false, if_true]

theorem setSlot_inUse (hn : index? 16 (byteAt fields 0) = some n) (hc : readSlotSettings fields = some c)
    (h : slotSettingsInRange c) (enabled : (slotOf s n).state ≠ .disabled) (bound : isBound s n) :
    setSlot fields s = .refuse .inUse := by
  rw [← slotSettings_inRange_iff] at h
  rw [← slotBound_iff] at bound
  simp [setSlot, hn, hc, h, bound, enabled]

theorem setSlot_disabled (hn : index? 16 (byteAt fields 0) = some n) (hc : readSlotSettings fields = some c)
    (h : slotSettingsInRange c) (disabled : (slotOf s n).state = .disabled) :
    setSlot fields s = .taken (alterSlot n (fun sl => { sl with settings := c }) s) [] := by
  rw [← slotSettings_inRange_iff] at h
  simp [setSlot, hn, hc, h, disabled]

theorem setSlot_restarts (hn : index? 16 (byteAt fields 0) = some n) (hc : readSlotSettings fields = some c)
    (h : slotSettingsInRange c) (enabled : (slotOf s n).state ≠ .disabled) (unbound : ¬ isBound s n) :
    setSlot fields s = .taken (restartSlot n (alterSlot n (fun sl => { sl with settings := c }) s)) [] := by
  rw [← slotSettings_inRange_iff] at h
  rw [← slotBound_iff, Bool.not_eq_true] at unbound
  simp [setSlot, hn, hc, h, unbound, enabled]

end

/-- Settles O20: the checks in their order, the stored settings, and the restart. -/
theorem setSlotStoresAndRestarts : Obligations.SetSlotStoresAndRestarts := by
  intro fields n c s hs hf hn hc
  have outOfRange (h : ¬ slotSettingsInRange c) :
      exec (.setSlot .ops fields) s = .next (answered .ops (fields.length + 2) .range [0x21] s) :=
    serve_refused (owner := some .ops) (p := .ops) hs hf rfl (setSlot_range hn hc h)
  refine ⟨fun count => outOfRange fun h => ?_, outOfRange, fun h disabled => ?_, fun h enabled bound => ?_, fun h enabled unbound => ?_⟩
  · obtain ⟨_, _, channels, _⟩ := h
    rw [length_readSlotSettings hc] at channels
    omega
  · exact serve_taken (owner := some .ops) (p := .ops) hs hf rfl (setSlot_disabled hn hc h disabled)
  · exact serve_refused (owner := some .ops) (p := .ops) hs hf rfl (setSlot_inUse hn hc h enabled bound)
  · have stored : slotOf (alterSlot n (fun sl => { sl with settings := c }) s) n = { slotOf s n with settings := c } :=
      slotOf_alterSlot_same _ n _
    have slot := slotOf_restartSlot_same n (alterSlot n (fun sl => { sl with settings := c }) s)
    have queue := restartSlot_queue n (alterSlot n (fun sl => { sl with settings := c }) s)
    rw [stored] at slot queue
    have changes := ((alterSlot_changes n (fun sl => { sl with settings := c }) s).mono (by decide)).trans (restartSlot_leavesMetering n _)
    refine ⟨_, serve_taken (owner := some .ops) (p := .ops) hs hf rfl (setSlot_restarts hn hc h enabled unbound), slot,
      fun m hm => ?_, queue, fun f hf => restartSlot_engine n _ hf, restartSlot_script n _, restartSlot_window n _,
      restartSlot_threshold n _, restartSlot_device n _, accepted_pif (changes .pif (by decide)).symm,
      (changes.mono (by decide)).trans ((accepted_changes _ _ _ _).mono (by decide))⟩
    exact (slotOf_restartSlot_other n _ hm).trans (slotOf_alterSlot_other _ _ hm)

end Sys2Proof.Machine

/-! SUPPORT. The closing of a gap (R52, R53), and the statement on ENABLE-SLOT and DISABLE-SLOT (R21, R22). -/

namespace Sys2Proof.Machine

open Sys2Proof.Safety

/-! ### Formats that a binding asks for (R37) -/

section
variable {sl : Slot}

theorem channelIs_iff {c : Nat} {ok : Format → Bool} {formats : List Format} (h : ∀ f, ok f = true ↔ f ∈ formats) :
    channelIs sl c ok = true ↔ hasChannel sl c formats := by
  unfold channelIs channelSetting? hasChannel
  cases sl.settings.channels[c]? with
  | none => simp
  | some x => simp [h]

theorem isCounter_iff (f : Format) : f.isCounter = true ↔ f ∈ [Format.u16, .u32] := by simp [Format.isCounter]

theorem format_iff (g f : Format) : decide (f = g) = true ↔ f ∈ [g] := by simp

theorem pointFits_iff {k : Fin 7} : pointFits k sl = true ↔ suitsPoint k sl := by
  by_cases h : k = 2
  · subst h
    simp only [pointFits, Bool.and_eq_true, channelIs_iff isCounter_iff, channelIs_iff (format_iff .u16), channelIs_iff (format_iff .s16)]
    exact ⟨fun ⟨⟨⟨c, _⟩, p⟩, t⟩ => ⟨c, p, t⟩, fun ⟨c, p, t⟩ => ⟨⟨⟨c, rfl⟩, p⟩, t⟩⟩
  · have reverse : hasReverse k = true := decide_eq_true h
    simp only [pointFits, pressureIndex, temperatureIndex, reverse, Bool.not_true, Bool.false_or, if_true, Bool.and_eq_true,
      channelIs_iff isCounter_iff, channelIs_iff (format_iff .u16), channelIs_iff (format_iff .s16), suitsPoint, if_neg h, and_assoc]

theorem dewPointFits_iff {c : Nat} : dewPointFits sl c = true ↔ hasChannel sl c [.s16] := channelIs_iff (format_iff .s16)

theorem cvFits_iff {c : Nat} : cvFits sl c = true ↔ hasChannel sl c [.u16] := channelIs_iff (format_iff .u16)

theorem channelOn_suits {n : Fin 16} {b : Option Binding} {fit : Nat → Bool} {P : Nat → Prop} (h : ∀ c, fit c = true ↔ P c) :
    (match channelOn n b with
      | some c => fit c
      | none => true) = true ↔ ∀ x ∈ b, x.slot = n → P x.channel := by
  cases b with
  | none => simp [channelOn]
  | some x => by_cases here : x.slot = n <;> simp [channelOn, here, h]

theorem bindingsFit_iff {s : State} {n : Fin 16} : bindingsFit s n = true ↔ suitsBindings s n := by
  have train (d : Fin 2) := channelOn_suits (n := n) (b := (trainOf s d).binding) (fun c => dewPointFits_iff (sl := slotOf s n) (c := c))
  have source := channelOn_suits (n := n) (b := s.mtu.cvSource) (fun c => cvFits_iff (sl := slotOf s n) (c := c))
  unfold bindingsFit
  rw [Bool.and_eq_true, Bool.and_eq_true, allFin_eq_true, allFin_eq_true, and_assoc]
  refine and_congr (forall_congr' fun k => ?_) (and_congr (forall_congr' train) source)
  rw [Bool.or_eq_true, pointFits_iff, Bool.not_eq_true', decide_eq_false_iff_not, imp_iff_not_or]

end

/-! ### Gaps that close (R52, R53) -/

section
variable (k : Fin 7) (s : State)

@[simp] theorem pointOf_setMeterFlags (toHour : Bool) (f : MeterFlags) (j : Fin 7) :
    pointOf (setMeterFlags toHour f s) j = pointOf s j := by
  cases toHour with
  | false => rfl
  | true => rfl

theorem pointOf_bookGap_other (toHour : Bool) {j : Fin 7} (h : j ≠ k) : pointOf (bookGap toHour k s) j = pointOf s j := by
  unfold bookGap
  split
  · rfl
  · rw [pointOf_setMeterFlags, pointOf_alterPoint_other _ _ h]

/-- What the booking of a gap leaves of a point: all but its accumulators, its estimated tenths and the gap itself. -/
theorem pointOf_bookGap_same (toHour : Bool) :
    { pointOf (bookGap toHour k s) k with
        forward := (pointOf s k).forward, reverse := (pointOf s k).reverse, gap := (pointOf s k).gap
        estimatedTenths := (pointOf s k).estimatedTenths } = pointOf s k := by
  unfold bookGap
  split
  · rfl
  · rw [pointOf_setMeterFlags, pointOf_alterPoint_same]
    rfl

theorem reverse_bookGap (toHour : Bool) (h : hasReverse k = false) : (pointOf (bookGap toHour k s) k).reverse = (pointOf s k).reverse := by
  unfold bookGap
  split
  · rfl
  · rw [pointOf_setMeterFlags, pointOf_alterPoint_same]
    simp only [Point.eachDirection, Point.estimate, h, if_false, Bool.false_eq_true]

theorem pointOf_closeGap_other {j : Fin 7} (h : j ≠ k) : pointOf (closeGap k s) j = pointOf s j := by
  rw [closeGap, pointOf_alterPoint_other _ _ h, pointOf_bookGap_other k s _ h]

theorem pointOf_closeGap_same :
    { pointOf (closeGap k s) k with
        forward := (pointOf s k).forward, reverse := (pointOf s k).reverse, gap := (pointOf s k).gap
        estimatedTenths := (pointOf s k).estimatedTenths } = pointOf s k := by
  rw [closeGap, pointOf_alterPoint_same]
  exact pointOf_bookGap_same k s _

theorem reverse_closeGap (h : hasReverse k = false) : (pointOf (closeGap k s) k).reverse = (pointOf s k).reverse := by
  rw [closeGap, pointOf_alterPoint_same]
  exact reverse_bookGap k s _ h

theorem gap_closeGap : (pointOf (closeGap k s) k).gap = none := by
  rw [closeGap, pointOf_alterPoint_same]

theorem slot_closeGap (j : Fin 7) : (pointOf (closeGap k s) j).slot = (pointOf s j).slot := by
  by_cases h : j = k
  · subst h
    have kept := congrArg Point.slot (pointOf_closeGap_same j s)
    exact kept
  · rw [pointOf_closeGap_other k s h]

end

/-! ### ENABLE-SLOT (R21) -/

section
variable (n : Fin 16) (s : State)

theorem enable_leavesMetering : ChangesOnly startBlocks s (enable n s) := slotStarts_changes n s (alterSlot_changes n _ s)

theorem slotOf_enable_same : slotOf (enable n s) n = freshSlot true (slotOf s n).settings (slotOf s n).lastError s.fine := by
  rw [slotOf_congr (enable_fsu n s), slotOf_scheduleVisit_same, slotOf_alterSlot_same]
  rfl

theorem slotOf_enable_other {m : Fin 16} (h : m ≠ n) : slotOf (enable n s) m = slotOf s m := by
  rw [slotOf_congr (enable_fsu n s), slotOf_scheduleVisit_other _ _ _ h, slotOf_alterSlot_other _ _ h]

theorem enable_queue :
    (enable n s).fsu.queue = enqueue ⟨n, s.fine, firstOfInit (slotOf s n).settings, 0, 0⟩ s.fsu.queue := by
  rw [enable_fsu, scheduleVisit_queue, slotOf_alterSlot_same, alterSlot_queue, firstPhase_init rfl]
  rfl

theorem enable_engine : (enable n s).fsu.engine = s.fsu.engine := by
  rw [enable_fsu, scheduleVisit_engine, alterSlot_engine]

/-! ### DISABLE-SLOT (R22, R53) -/

/-- What a direction keeps when its slot is disabled (R53). -/
def unreadDirection (d : Direction) : Direction := { d with baseline := none, rate := 0, fresh := false }

theorem pointOf_disablePoint_same {k : Fin 7} (h : pointBoundTo s n = some k) :
    pointOf (disablePoint n s) k = (pointOf (closeGap k s) k).eachDirection k unreadDirection := by
  simp only [disablePoint, h]
  exact pointOf_alterPoint_same _ _ _

theorem pointOf_disablePoint_other {k : Fin 7} (h : pointBoundTo s n ≠ some k) : pointOf (disablePoint n s) k = pointOf s k := by
  unfold disablePoint
  split
  · next j bound =>
    have other : k ≠ j := fun e => h (e ▸ bound)
    rw [pointOf_alterPoint_other _ _ other, pointOf_closeGap_other j s other]
  · rfl

theorem slot_disablePoint (k : Fin 7) : (pointOf (disablePoint n s) k).slot = (pointOf s k).slot := by
  by_cases h : pointBoundTo s n = some k
  · rw [pointOf_disablePoint_same n s h]
    exact slot_closeGap k s k
  · rw [pointOf_disablePoint_other n s h]

/-- The slot cleared, with its point's gap closed and its entry withdrawn. -/
def disabledHere : State := alterSlot n disabledSlot (withdrawSlot n (disablePoint n s))

theorem disabledHere_stands : ReadersStand s (disabledHere n s) := by
  have point := disablePoint_changes n s
  exact ⟨fun k => slot_disablePoint n s k, (point .dir (by decide)).symm, (point .dsq (by decide)).symm⟩

theorem pointOf_disable (k : Fin 7) : pointOf (disable n s) k = pointOf (disablePoint n s) k := by
  have mtu : (disable n s).mtu = (disablePoint n s).mtu := by
    rw [disable_eq, slotEventEnds_mtu, ← channelsLost_changes n s _ .mtu (by decide)]
    rfl
  rw [pointOf, mtu, pointOf]

theorem slotOf_disable_same : slotOf (disable n s) n = disabledSlot (slotOf s n) := by
  rw [slotOf_congr (disable_fsu n s), slotOf_alterSlot_same, slotOf_withdrawSlot]

theorem slotOf_disable_other {m : Fin 16} (h : m ≠ n) : slotOf (disable n s) m = slotOf s m := by
  rw [slotOf_congr (disable_fsu n s), slotOf_alterSlot_other _ _ h, slotOf_withdrawSlot]

theorem disable_queue : (disable n s).fsu.queue = dequeue n s.fsu.queue := by
  rw [disable_fsu, alterSlot_queue, withdrawSlot_queue]

theorem disable_engine {f : InFlight} (h : s.fsu.engine = .awaitReply f) :
    (disable n s).fsu.engine = .awaitReply { f with discarded := f.discarded || decide (f.entry.slot = n) } := by
  rw [disable_fsu, alterSlot_engine, withdrawSlot_engine n s h]

theorem disable_threshold : conditionActive (disable n s) (condThreshold n) = false := by
  have told := slotEventEnds_threshold s (channelsLost n s (disabledHere n s)) n
  rw [disabledHere, ← disable_eq, slotOf_disable_same] at told
  exact told

theorem disable_device : conditionActive (disable n s) (condDevice n) = false := by
  have told := slotEventEnds_device s (channelsLost n s (disabledHere n s)) n
  rw [disabledHere, ← disable_eq, slotOf_disable_same] at told
  exact told

theorem disable_readers : readersFollow n true s (disable n s) :=
  readersFollow_lost (disabledHere_stands n s) (.refl _ _) fun m => by rw [slotOf_congr (channelsLost_fsu n s _), disabledHere]

/-- The point of the slot that is disabled: its gap closed, and its directions without what they took from the slot (R53). -/
theorem pointOf_disable_bound {k : Fin 7} (h : pointBoundTo s n = some k) :
    pointOf (disable n s) k =
      { pointOf (closeGap k s) k with
        gap := none
        forward := unreadDirection (pointOf (closeGap k s) k).forward
        reverse := if hasReverse k then unreadDirection (pointOf (closeGap k s) k).reverse else (pointOf s k).reverse } := by
  rw [pointOf_disable, pointOf_disablePoint_same n s h, Point.eachDirection]
  cases reverse : hasReverse k with
  | false =>
    rw [if_neg Bool.false_ne_true, if_neg Bool.false_ne_true, ← reverse_closeGap k s reverse, ← gap_closeGap k s]
  | true =>
    rw [if_pos rfl, if_pos rfl, ← gap_closeGap k s]

end

theorem readersFollow_accepted {n : Fin 16} {lost : Bool} {s t : State} (h : readersFollow n lost s t) (p : Port) (code bytes : Nat) :
    readersFollow n lost s (accepted p code bytes t) := h

/-! ### The two requests -/

section
variable {fields : List Byte} {n : Fin 16} {s : State}

theorem enableSlot_malformed (h : index? 16 (byteAt fields 0) = none) : enableSlot fields s = .refuse .malformed := by
  simp only [enableSlot, h]

theorem disableSlot_malformed (h : index? 16 (byteAt fields 0) = none) : disableSlot fields s = .refuse .malformed := by
  simp only [disableSlot, h]

theorem fits_one (h : fields.length = 1) : fits 0x22 fields = true ∧ fits 0x23 fields = true :=
  ⟨by simp [fits, layoutOf, h], by simp [fits, layoutOf, h]⟩

theorem index?_slotByte (n : Fin 16) : index? 16 (byteAt (ubytes 1 n.val) 0) = some n := by
  rw [byteAt_ubytes (by omega), index?_val]

theorem enableSlot_state (h : (slotOf s n).state ≠ .disabled) : enableSlot (ubytes 1 n.val) s = .refuse .state := by
  simp only [enableSlot, index?_slotByte, if_pos h]

theorem enableSlot_inUse (disabled : (slotOf s n).state = .disabled) (h : ¬ suitsBindings s n) :
    enableSlot (ubytes 1 n.val) s = .refuse .inUse := by
  rw [← bindingsFit_iff, Bool.not_eq_true] at h
  simp [enableSlot, index?_slotByte, disabled, h]

theorem enableSlot_taken (disabled : (slotOf s n).state = .disabled) (h : suitsBindings s n) :
    enableSlot (ubytes 1 n.val) s = .taken (enable n s) [] := by
  rw [← bindingsFit_iff] at h
  simp [enableSlot, index?_slotByte, disabled, h]

theorem disableSlot_state (h : (slotOf s n).state = .disabled) : disableSlot (ubytes 1 n.val) s = .refuse .state := by
  simp only [disableSlot, index?_slotByte, if_pos h]

theorem disableSlot_taken (h : (slotOf s n).state ≠ .disabled) : disableSlot (ubytes 1 n.val) s = .taken (disable n s) [] := by
  simp only [disableSlot, index?_slotByte, if_neg h]

end

/-- Settles O21: the checks in their order, the start of a slot's visits, and their end. -/
theorem enableAndDisableSlotStartAndEndItsVisits : Obligations.EnableAndDisableSlotStartAndEndItsVisits := by
  refine ⟨fun fields s hs length high => ?_, fun n s hs => ⟨fun enabled => ?_, fun disabled unsuited => ?_, fun disabled suited => ?_⟩,
    fun n s hs => ⟨fun disabled => ?_, fun enabled => ?_⟩⟩
  · obtain ⟨enables, disables⟩ := fits_one length
    have refused := serve_refused (owner := some .ops) (p := .ops) hs enables rfl (enableSlot_malformed (s := s) (index?_of_le high))
    have refused' := serve_refused (owner := some .ops) (p := .ops) hs disables rfl (disableSlot_malformed (s := s) (index?_of_le high))
    rw [length] at refused refused'
    exact ⟨refused, refused'⟩
  · exact serve_refused (owner := some .ops) (p := .ops) hs rfl rfl (enableSlot_state enabled)
  · exact serve_refused (owner := some .ops) (p := .ops) hs rfl rfl (enableSlot_inUse disabled unsuited)
  · have changes := enable_leavesMetering n s
    exact ⟨_, serve_taken (owner := some .ops) (p := .ops) hs rfl rfl (enableSlot_taken disabled suited), slotOf_enable_same n s,
      fun m hm => slotOf_enable_other n s hm, enable_queue n s, enable_engine n s, accepted_pif (changes .pif (by decide)).symm,
      (changes.mono (by decide)).trans ((accepted_changes _ _ _ _).mono (by decide))⟩
  · exact serve_refused (owner := some .ops) (p := .ops) hs rfl rfl (disableSlot_state disabled)
  · have slot := slotOf_disable_same n s
    have changes := disable_changes n s
    exact ⟨_, serve_taken (owner := some .ops) (p := .ops) hs rfl rfl (disableSlot_taken enabled),
      congrArg Slot.state slot, congrArg Slot.enabled slot, congrArg Slot.channels slot, (congrArg Slot.settings slot).trans rfl,
      fun m hm => slotOf_disable_other n s hm, congrArg Slot.failed slot, congrArg Slot.overruns slot, congrArg Slot.recovered slot,
      disable_threshold n s, disable_device n s, readersFollow_accepted (disable_readers n s) _ _ _, disable_queue n s,
      fun f hf => disable_engine n s hf, fun k bound => pointOf_disable_bound n s bound,
      fun k free => (pointOf_disable n s k).trans (pointOf_disablePoint_other n s free), accepted_pif (changes .pif (by decide)).symm,
      (changes.mono (by decide)).trans ((accepted_changes _ _ _ _).mono (by decide))⟩

end Sys2Proof.Machine

/-! SUPPORT. What a good reading makes of the metering point that it serves (R28, R40, R45 to R49, R53, R57). -/

namespace Sys2Proof.Machine

open Sys2Proof.Safety

/-! ### A counter's modulus (R40) -/

theorem counterModulus_of {sl : Slot} {c : Nat} {x : ChannelSetting} (h : sl.settings.channels[c]? = some x) :
    (x.format = .u16 → counterModulus sl c = 65536) ∧ (x.format = .u32 → counterModulus sl c = 4294967296) := by
  refine ⟨fun format => ?_, fun format => ?_⟩
  · simp only [counterModulus, channelSetting?, h, Option.map_some, format]
  · simp only [counterModulus, channelSetting?, h, Option.map_some, format]

theorem counterModulus_congr {sl sl' : Slot} (h : sl'.settings = sl.settings) (c : Nat) : counterModulus sl' c = counterModulus sl c := by
  unfold counterModulus channelSetting?
  rw [h]

/-! ### One direction -/

/-- A direction asks its point for the weight and the ceiling alone. -/
theorem takeDirection_congr {p q : Point} (weight : p.weight = q.weight) (ceiling : p.ceiling = q.ceiling) (beta : Vector Nat 4)
    (r : Reading) (modulus value : Nat) (d : Direction) :
    takeDirection beta p r modulus value d = takeDirection beta q r modulus value d := by
  simp only [takeDirection, weight, ceiling]

/-- A direction sets none of the flags CV_HELD and RESTART. -/
theorem takeDirection_flags (beta : Vector Nat 4) (p : Point) (r : Reading) (modulus value : Nat) (d : Direction) :
    (takeDirection beta p r modulus value d).flags.cvHeld = false ∧ (takeDirection beta p r modulus value d).flags.restart = false := by
  unfold takeDirection
  split
  · dsimp only
    split
    · exact ⟨rfl, rfl⟩
    · exact ⟨rfl, rfl⟩
  · exact ⟨rfl, rfl⟩

/-! ### The metering block around one point -/

/-- What a booking or a reading of point `k` leaves of the metering block: the other points, the settings of its own, and the flags of
the hour that is not the receiving one. -/
structure PointAlone (k : Fin 7) (s t : State) : Prop where
  rest : t.mtu = { s.mtu with points := t.mtu.points, flags := t.mtu.flags, unclockedFlags := t.mtu.unclockedFlags }
  flags : receivingFlags (!clockRunning s) t.mtu = receivingFlags (!clockRunning s) s.mtu
  others : ∀ j, j ≠ k → pointOf t j = pointOf s j
  settings :
    { pointOf t k with
        forward := (pointOf s k).forward, reverse := (pointOf s k).reverse, readingTime := (pointOf s k).readingTime
        gap := (pointOf s k).gap, estimatedTenths := (pointOf s k).estimatedTenths } = pointOf s k

section
variable {k : Fin 7} {s t u : State}

theorem PointAlone.refl (k : Fin 7) (s : State) : PointAlone k s s := ⟨rfl, rfl, fun _ _ => rfl, rfl⟩

theorem PointAlone.trans (hc : clockRunning t = clockRunning s) (h : PointAlone k s t) (h' : PointAlone k t u) : PointAlone k s u := by
  refine ⟨?_, ?_, fun j hj => (h'.others j hj).trans (h.others j hj), ?_⟩
  · rw [h'.rest, h.rest]
  · have flags := h'.flags
    rw [hc] at flags
    exact flags.trans h.flags
  · rw [← h.settings, ← h'.settings]

theorem PointAlone.slot (h : PointAlone k s t) (j : Fin 7) : (pointOf t j).slot = (pointOf s j).slot := by
  by_cases here : j = k
  · subst here
    have kept := congrArg Point.slot h.settings
    exact kept
  · rw [h.others j here]

theorem receivingFlags_setMeterFlags (toHour : Bool) (f : MeterFlags) (s : State) :
    receivingFlags toHour (setMeterFlags toHour f s).mtu = (receivingFlags toHour s.mtu).merge f
      ∧ receivingFlags (!toHour) (setMeterFlags toHour f s).mtu = receivingFlags (!toHour) s.mtu := by
  cases toHour with
  | false => exact ⟨rfl, rfl⟩
  | true => exact ⟨rfl, rfl⟩

/-- A change of point `k` with flags set on the receiving hour. -/
theorem PointAlone.of_change {g : Point → Point} {f : MeterFlags} {hour : Bool} (hour_eq : hour = clockRunning s)
    (hg : { g (pointOf s k) with
        forward := (pointOf s k).forward, reverse := (pointOf s k).reverse, readingTime := (pointOf s k).readingTime
        gap := (pointOf s k).gap, estimatedTenths := (pointOf s k).estimatedTenths } = pointOf s k) :
    PointAlone k s (setMeterFlags hour f (alterPoint k g s)) := by
  subst hour_eq
  refine ⟨?_, ?_, fun j hj => ?_, ?_⟩
  · cases clockRunning s with
    | false => rfl
    | true => rfl
  · exact (receivingFlags_setMeterFlags _ _ _).2
  · rw [pointOf_setMeterFlags, pointOf_alterPoint_other _ _ hj]
  · rw [pointOf_setMeterFlags, pointOf_alterPoint_same]
    exact hg

theorem closeGap_alone (k : Fin 7) (s : State) : PointAlone k s (closeGap k s) := by
  have booked : PointAlone k s (bookGap (clockRunning s) k s) := by
    unfold bookGap
    split
    · exact .refl k s
    · exact .of_change rfl rfl
  refine ⟨?_, booked.flags, fun j hj => pointOf_closeGap_other k s hj, ?_⟩
  · have rest := booked.rest
    exact (congrArg (fun m : Mtu => { m with points := (closeGap k s).mtu.points }) rest).trans rfl
  · rw [closeGap, pointOf_alterPoint_same]
    exact booked.settings

theorem alterPoint_mtu_congr (k : Fin 7) (g : Point → Point) (h : t.mtu = s.mtu) : (alterPoint k g t).mtu = (alterPoint k g s).mtu := by
  rw [alterPoint, h, alterPoint, State.withMtu_mtu, State.withMtu_mtu]

theorem setMeterFlags_mtu_congr (toHour : Bool) (f : MeterFlags) (h : t.mtu = s.mtu) :
    (setMeterFlags toHour f t).mtu = (setMeterFlags toHour f s).mtu := by
  unfold setMeterFlags
  rw [h]
  cases toHour with
  | false => rfl
  | true => rfl

/-- Two states with the same metering at the same time, the clock's too. -/
structure MeteredAlike (s t : State) : Prop where
  same : SameMetering s t
  clock : t.clock = s.clock

theorem MeteredAlike.mtu (h : MeteredAlike s t) : t.mtu = s.mtu := h.same.1

theorem MeteredAlike.pointOf (h : MeteredAlike s t) (j : Fin 7) : pointOf t j = Machine.pointOf s j := by
  rw [Machine.pointOf, h.mtu, Machine.pointOf]

theorem MeteredAlike.timeBase (h : MeteredAlike s t) : timeBase t = Machine.timeBase s := by
  rw [Machine.timeBase, h.same.2, Machine.timeBase]

theorem MeteredAlike.clockRunning (h : MeteredAlike s t) : clockRunning t = Machine.clockRunning s := by
  rw [Machine.clockRunning, h.clock, Machine.clockRunning]

theorem MeteredAlike.closeGap (h : MeteredAlike s t) (k : Fin 7) : MeteredAlike (closeGap k s) (closeGap k t) := by
  obtain ⟨mtu, fine⟩ := bookGap_same (Machine.clockRunning s) k h.same
  refine ⟨?_, (closeGap_changes k t .clock (by decide)).symm.trans (h.clock.trans (closeGap_changes k s .clock (by decide)))⟩
  rw [Machine.closeGap, Machine.closeGap, h.clockRunning]
  exact ⟨alterPoint_mtu_congr k _ mtu, fine⟩

end

/-! ### Both directions (R45) -/

section
variable (k : Fin 7) (sl : Slot) (recovered : Bool) (b : State)

/-- What a reading brings to the directions of a point. -/
def readingAt : Reading :=
  { pressure := (channelAt sl (pressureIndex k)).value, temperature := (channelAt sl (temperatureIndex k)).value, recovered := recovered
    interval := readingInterval b (pointOf b k), toHour := clockRunning b }

/-- The result of the forward direction. -/
def forwardTaken : DirectionResult :=
  takeDirection b.mtu.beta (pointOf b k) (readingAt k sl recovered b) (counterModulus sl 0) (channelAt sl 0).value.toNat
    (pointOf b k).forward

/-- The result of the reverse direction, which M3 has not. -/
def reverseTaken : DirectionResult :=
  if hasReverse k then
    takeDirection b.mtu.beta (pointOf b k) (readingAt k sl recovered b) (counterModulus sl 1) (channelAt sl 1).value.toNat
      (pointOf b k).reverse
  else ⟨(pointOf b k).reverse, MeterFlags.clear, 0⟩

/-- The point after both. -/
def pointTaken (p : Point) : Point :=
  { (p.estimate (forwardTaken k sl recovered b).estimated).estimate (reverseTaken k sl recovered b).estimated with
    forward := (forwardTaken k sl recovered b).direction, reverse := (reverseTaken k sl recovered b).direction
    readingTime := some (timeBase b) }

theorem processDirections_eq :
    processDirections k sl recovered b =
      setMeterFlags (clockRunning b) ((forwardTaken k sl recovered b).flags.merge (reverseTaken k sl recovered b).flags)
        (alterPoint k (pointTaken k sl recovered b) b) := rfl

theorem pointOf_processDirections : pointOf (processDirections k sl recovered b) k = pointTaken k sl recovered b (pointOf b k) := by
  rw [processDirections_eq, pointOf_setMeterFlags, pointOf_alterPoint_same]

theorem processDirections_alone : PointAlone k b (processDirections k sl recovered b) := by
  rw [processDirections_eq]
  exact .of_change rfl rfl

theorem forwardTaken_flags :
    (forwardTaken k sl recovered b).flags.cvHeld = false ∧ (forwardTaken k sl recovered b).flags.restart = false :=
  takeDirection_flags _ _ _ _ _ _

theorem reverseTaken_flags :
    (reverseTaken k sl recovered b).flags.cvHeld = false ∧ (reverseTaken k sl recovered b).flags.restart = false := by
  unfold reverseTaken
  split
  · exact takeDirection_flags _ _ _ _ _ _
  · exact ⟨rfl, rfl⟩

/-- The receiving hour takes what both directions set. -/
theorem receivingFlags_processDirections :
    receivingFlags (clockRunning b) (processDirections k sl recovered b).mtu =
      { receivingFlags (clockRunning b) b.mtu with
        estimated := (receivingFlags (clockRunning b) b.mtu).estimated || (forwardTaken k sl recovered b).flags.estimated
          || (reverseTaken k sl recovered b).flags.estimated
        clamped := (receivingFlags (clockRunning b) b.mtu).clamped || (forwardTaken k sl recovered b).flags.clamped
          || (reverseTaken k sl recovered b).flags.clamped
        rebased := (receivingFlags (clockRunning b) b.mtu).rebased || (forwardTaken k sl recovered b).flags.rebased
          || (reverseTaken k sl recovered b).flags.rebased } := by
  have merged := (receivingFlags_setMeterFlags (clockRunning b)
    ((forwardTaken k sl recovered b).flags.merge (reverseTaken k sl recovered b).flags)
    (alterPoint k (pointTaken k sl recovered b) b)).1
  have stands : receivingFlags (clockRunning b) (alterPoint k (pointTaken k sl recovered b) b).mtu
      = receivingFlags (clockRunning b) b.mtu := by
    cases clockRunning b with
    | false => rfl
    | true => rfl
  obtain ⟨cvHeld, restart⟩ := forwardTaken_flags k sl recovered b
  obtain ⟨cvHeld', restart'⟩ := reverseTaken_flags k sl recovered b
  rw [processDirections_eq, merged, stands]
  simp only [MeterFlags.merge, cvHeld, cvHeld', restart, restart', Bool.or_false, Bool.or_assoc]

/-- What a reading makes of a point rests on the metering block and the time alone. -/
theorem processDirections_mtu_congr {b c : State} (h : MeteredAlike c b) :
    (processDirections k sl recovered b).mtu = (processDirections k sl recovered c).mtu := by
  have reading : readingAt k sl recovered b = readingAt k sl recovered c := by
    simp only [readingAt, readingInterval, h.pointOf, h.timeBase, h.clockRunning]
  have forward : forwardTaken k sl recovered b = forwardTaken k sl recovered c := by
    simp only [forwardTaken, reading, h.pointOf, h.mtu]
  have reverse : reverseTaken k sl recovered b = reverseTaken k sl recovered c := by
    simp only [reverseTaken, reading, h.pointOf, h.mtu]
  have taken : pointTaken k sl recovered b = pointTaken k sl recovered c := by
    funext p
    simp only [pointTaken, forward, reverse, h.timeBase]
  rw [processDirections_eq, processDirections_eq, taken, forward, reverse, h.clockRunning]
  exact setMeterFlags_mtu_congr _ _ (alterPoint_mtu_congr k _ h.mtu)

end

/-! ### The point of a slot's good reading -/

/-- The metering before the directions are processed: a recovered reading has closed an open gap (R53). -/
def gapClosed (k : Fin 7) (n : Fin 16) (s : State) : State :=
  if (slotOf s n).recovered ∨ (slotOf s n).firstReading then closeGap k s else s

section
variable {k : Fin 7} {n : Fin 16} {s t : State} {sl : Slot}

theorem MeteredAlike.gapClosed {u : State} (h : MeteredAlike s u) (k : Fin 7) (hs : slotOf u n = slotOf s n) :
    MeteredAlike (gapClosed k n s) (gapClosed k n u) := by
  unfold Machine.gapClosed
  rw [hs]
  split
  · exact h.closeGap k
  · exact h

theorem gapClosed_alone (k : Fin 7) (n : Fin 16) (s : State) : PointAlone k s (gapClosed k n s) := by
  unfold gapClosed
  split
  · exact closeGap_alone k s
  · exact .refl k s

theorem gapClosed_changes (k : Fin 7) (n : Fin 16) (s : State) : ChangesOnly [.mtu] s (gapClosed k n s) := by
  unfold gapClosed
  split
  · exact closeGap_changes k s
  · exact .refl _ s

theorem timeBase_gapClosed : timeBase (gapClosed k n s) = timeBase s := by
  rw [timeBase, ← gapClosed_changes k n s .fine (by decide), timeBase]

theorem clockRunning_gapClosed : clockRunning (gapClosed k n s) = clockRunning s := by
  rw [clockRunning, ← gapClosed_changes k n s .clock (by decide), clockRunning]

theorem readingTime_gapClosed : (pointOf (gapClosed k n s) k).readingTime = (pointOf s k).readingTime := by
  unfold gapClosed
  split
  · have kept := congrArg Point.readingTime (pointOf_closeGap_same k s)
    exact kept
  · rfl

/-- What the directions take once the gap is closed is what they take of the reading that the slot then shows. -/
theorem readingAt_gapClosed (channels : ∀ c, channelAt sl c = channelAt (slotOf t n) c) :
    readingAt k sl (carriesRecovered (slotOf s n)) (gapClosed k n s) = readingOf k n s t := by
  unfold readingAt readingOf readingInterval
  rw [timeBase_gapClosed, clockRunning_gapClosed, channels, channels, readingTime_gapClosed]
  rfl

/-- One direction of the point: what it takes depends on the gap's closing by the direction's own record alone. -/
theorem takeDirection_gapClosed (channels : ∀ c, channelAt sl c = channelAt (slotOf t n) c) (settings : sl.settings = (slotOf s n).settings)
    (c : Nat) (d : Direction) :
    takeDirection (gapClosed k n s).mtu.beta (pointOf (gapClosed k n s) k)
        (readingAt k sl (carriesRecovered (slotOf s n)) (gapClosed k n s)) (counterModulus sl c) (channelAt sl c).value.toNat d
      = takeDirection s.mtu.beta (pointOf s k) (readingOf k n s t) (counterModulus (slotOf s n) c)
          (channelAt (slotOf t n) c).value.toNat d := by
  have alone := gapClosed_alone k n s
  have beta : (gapClosed k n s).mtu.beta = s.mtu.beta := (congrArg Mtu.beta alone.rest).trans rfl
  have weight : (pointOf (gapClosed k n s) k).weight = (pointOf s k).weight := (congrArg Point.weight alone.settings :)
  have ceiling : (pointOf (gapClosed k n s) k).ceiling = (pointOf s k).ceiling := (congrArg Point.ceiling alone.settings :)
  rw [readingAt_gapClosed channels, channels, counterModulus_congr settings, takeDirection_congr weight ceiling, beta]

theorem holdAdd_twice (limit count a b : Nat) : holdAdd limit (holdAdd limit count a) b = min limit (count + a + b) := by
  unfold holdAdd
  omega

/-- The metering block and condition COUNTER of point `k` hold what the processing of a reading of slot `n` makes of them; `sl` is the
slot's record as the processing reads it. -/
structure PointRead (k : Fin 7) (n : Fin 16) (sl : Slot) (s t : State) : Prop where
  channels : ∀ c, channelAt sl c = channelAt (slotOf t n) c
  settings : sl.settings = (slotOf s n).settings
  mtu : t.mtu = (processDirections k sl (carriesRecovered (slotOf s n)) (gapClosed k n s)).mtu
  told : conditionActive t (condCounter k) = counterActive (pointOf t k)

/-- A good reading that the metering has taken (R28, R40, R45 to R49, R53, R57). -/
theorem PointRead.meterTook (h : PointRead k n sl s t) : meterTook k n s t := by
  obtain ⟨channels, settings, mtu, told⟩ := h
  have points (j : Fin 7) : pointOf t j = pointOf (processDirections k sl (carriesRecovered (slotOf s n)) (gapClosed k n s)) j := by
    rw [pointOf, mtu, pointOf]
  have point := (points k).trans (pointOf_processDirections k sl _ _)
  have alone := (gapClosed_alone k n s).trans clockRunning_gapClosed (processDirections_alone k sl (carriesRecovered (slotOf s n)) _)
  have flags := receivingFlags_processDirections k sl (carriesRecovered (slotOf s n)) (gapClosed k n s)
  rw [clockRunning_gapClosed] at flags
  refine ⟨gapClosed k n s, forwardTaken k sl (carriesRecovered (slotOf s n)) (gapClosed k n s),
    reverseTaken k sl (carriesRecovered (slotOf s n)) (gapClosed k n s), rfl, takeDirection_gapClosed channels settings 0 _, fun h => ?_,
    fun h => ?_, ?_, ?_, ?_, ?_, ?_, ?_, ?_, ?_, ?_, fun j hj => (points j).trans (alone.others j hj), told⟩
  · rw [reverseTaken, if_pos h]
    exact takeDirection_gapClosed channels settings 1 _
  · rw [reverseTaken, h, if_neg Bool.false_ne_true]
  · rw [point]
    rfl
  · rw [point]
    rfl
  · rw [point]
    exact holdAdd_twice _ _ _ _
  · rw [mtu]
    exact flags
  · rw [mtu]
    exact alone.flags
  · rw [mtu]
    exact alone.rest
  · rw [points]
    exact alone.settings
  · rw [point]
    exact congrArg some timeBase_gapClosed
  · rw [point]
    rfl

end

end Sys2Proof.Machine

/-! SUPPORT. The readers of a slot at a good reading (R28, R81, R127, R132), and the statement on them. -/

namespace Sys2Proof.Machine

open Sys2Proof.Safety

/-! ### A train at a reading of its dew point (R127, R132) -/

/-- A train's off-spec state after a reading (R132). -/
def judgedTrain (value : Int) (r : Train) : Train :=
  if r.state = .off then r else { r with offSpec := offSpecAfterReading r.offSpec r value }

/-- Does a reading end the step that a train is in (R127)? -/
def breaksThrough (banks : Vector (Vector BankEntry 24) 2) (value : Int) (r : Train) : Bool :=
  match currentStep banks r with
  | some x => x.adsorbExit && decide (r.breakthrough ≤ value)
  | none => false

/-- A train after a reading (R127). -/
def passedTrain (banks : Vector (Vector BankEntry 24) 2) (now : Nat) (value : Int) (r : Train) : Train :=
  if breaksThrough banks value r then endStep banks now { r with earlyAdvances := holdAdd 65535 r.earlyAdvances 1 } else r

section
variable {s u : State} (value : Int) (d : Fin 2)

theorem judgeReading_eq (s : State) : judgeReading d value s = alterTrain d (judgedTrain value) s := rfl

theorem breakthrough_eq (s : State) :
    breakthrough value d s =
      if breaksThrough s.dsq.banks value (trainOf s d) then
        endStepOf d (alterTrain d (fun r => { r with earlyAdvances := holdAdd 65535 r.earlyAdvances 1 }) s)
      else s := by
  unfold breakthrough breaksThrough
  cases currentStep s.dsq.banks (trainOf s d) with
  | none => rfl
  | some x => exact if_congr (by rw [Bool.and_eq_true, decide_eq_true_eq]) rfl rfl

theorem trainOf_breakthrough_same (s : State) :
    trainOf (breakthrough value d s) d = passedTrain s.dsq.banks (timeBase s) value (trainOf s d) := by
  rw [breakthrough_eq, passedTrain]
  split
  · rw [endStepOf, trainOf_alterTrain_same, trainOf_alterTrain_same]
    rfl
  · rfl

theorem trainOf_breakthrough_other {e : Fin 2} (h : e ≠ d) (s : State) : trainOf (breakthrough value d s) e = trainOf s e := by
  rw [breakthrough_eq]
  split
  · rw [endStepOf, trainOf_alterTrain_other _ _ h, trainOf_alterTrain_other _ _ h]
  · rfl

theorem banks_breakthrough (s : State) : (breakthrough value d s).dsq.banks = s.dsq.banks := by
  rw [breakthrough_eq]
  split
  · rfl
  · rfl

theorem standing_passedTrain (banks : Vector (Vector BankEntry 24) 2) (now : Nat) (r : Train) :
    standing (passedTrain banks now value r) =
      standing { r with
        earlyAdvances := if breaksThrough banks value r then holdAdd 65535 r.earlyAdvances 1 else r.earlyAdvances } := by
  unfold passedTrain
  split
  · exact standing_endStep _ _ _
  · rfl

theorem breaksThrough_judged (banks : Vector (Vector BankEntry 24) 2) (r : Train) :
    breaksThrough banks value (judgedTrain value r) = breaksThrough banks value r := by
  unfold judgedTrain
  split
  · rfl
  · rfl

theorem binding_judgedTrain (r : Train) : (judgedTrain value r).binding = r.binding := by
  unfold judgedTrain
  split
  · rfl
  · rfl

end

/-- What a train keeps of a reading of its dew point. -/
def dewPointTaken (banks : Vector (Vector BankEntry 24) 2) (value : Int) (r : Train) : Train :=
  { judgedTrain value r with
    earlyAdvances := if breaksThrough banks value r then holdAdd 65535 r.earlyAdvances 1 else r.earlyAdvances }

theorem standing_passed_judged (banks : Vector (Vector BankEntry 24) 2) (now : Nat) (value : Int) (r : Train) :
    standing (passedTrain banks now value (judgedTrain value r)) = standing (dewPointTaken banks value r) := by
  rw [standing_passedTrain, breaksThrough_judged, dewPointTaken]
  have early : (judgedTrain value r).earlyAdvances = r.earlyAdvances := by
    unfold judgedTrain
    split
    · rfl
    · rfl
  rw [early]

theorem binding_of_standing {r r' : Train} (h : standing r' = standing r) : r'.binding = r.binding :=
  congrArg Prod.fst (trainSettings_of_standing h)

/-! ### The walk over the trains -/

/-- What the trains take of a reading rests on the field line, the banks, the time and the bindings. -/
structure DryersSee (v u : State) : Prop where
  fsu : u.fsu = v.fsu
  banks : u.dsq.banks = v.dsq.banks
  fine : u.fine = v.fine
  binding : ∀ d, (trainOf u d).binding = (trainOf v d).binding

/-- The value that train `d` reads. -/
def dewPoint (s : State) (d : Fin 2) : Int := (boundChannel s (trainOf s d).binding).value

/-- The walk's pass over train `d`. -/
def trainTakes (n : Fin 16) (d : Fin 2) (s : State) : State :=
  if trainReads s n d then breakthrough (dewPoint s d) d (judgeReading d (dewPoint s d) s) else s

theorem dryersTake_eq (n : Fin 16) (s : State) : dryersTake n s = overFin 2 (trainTakes n) s := rfl

section
variable {n : Fin 16} {u v : State}

theorem DryersSee.reads (h : DryersSee v u) (n : Fin 16) (d : Fin 2) : trainReads u n d = trainReads v n d := by
  unfold trainReads
  rw [h.binding]

theorem DryersSee.dewPoint (h : DryersSee v u) (d : Fin 2) : dewPoint u d = Machine.dewPoint v d := by
  unfold Machine.dewPoint boundChannel slotOf
  rw [h.binding, h.fsu]

theorem trainOf_trainTakes_other {i j : Fin 2} (h : j ≠ i) (s : State) : trainOf (trainTakes n i s) j = trainOf s j := by
  unfold trainTakes
  split
  · rw [trainOf_breakthrough_other _ _ h, judgeReading_eq, trainOf_alterTrain_other _ _ h]
  · rfl

theorem trainOf_trainTakes_same (d : Fin 2) (s : State) :
    trainOf (trainTakes n d s) d =
      if trainReads s n d then passedTrain s.dsq.banks (timeBase s) (dewPoint s d) (judgedTrain (dewPoint s d) (trainOf s d))
      else trainOf s d := by
  unfold trainTakes
  split
  · rw [trainOf_breakthrough_same, judgeReading_eq, trainOf_alterTrain_same]
    rfl
  · rfl

theorem DryersSee.trainTakes (h : DryersSee v u) (d : Fin 2) : DryersSee v (trainTakes n d u) := by
  have changes : ChangesOnly [.dsq] u (Machine.trainTakes n d u) := by
    unfold Machine.trainTakes
    split
    · exact (alterTrain_changes d _ u).trans (breakthrough_changes _ _ d)
    · exact .refl _ u
  have banks : (Machine.trainTakes n d u).dsq.banks = u.dsq.banks := by
    unfold Machine.trainTakes
    split
    · rw [banks_breakthrough]
      rfl
    · rfl
  refine ⟨(fsu_of_changes changes (by decide)).trans h.fsu, banks.trans h.banks, (fine_of_changes changes (by decide)).trans h.fine,
    fun e => ?_⟩
  rw [← h.binding e]
  by_cases here : e = d
  · subst here
    rw [trainOf_trainTakes_same]
    split
    · rw [binding_of_standing (standing_passed_judged _ _ _ _)]
      exact binding_judgedTrain _ _
    · rfl
  · rw [trainOf_trainTakes_other here]

/-- A train after the readings of a slot have been taken. -/
theorem trainOf_dryersTake (n : Fin 16) (v : State) (d : Fin 2) :
    trainOf (dryersTake n v) d =
      if trainReads v n d then passedTrain v.dsq.banks (timeBase v) (dewPoint v d) (judgedTrain (dewPoint v d) (trainOf v d))
      else trainOf v d := by
  rw [dryersTake_eq]
  refine read_overFin (DryersSee v) (fun d u => trainOf u d)
    (fun d r =>
      if trainReads v n d then passedTrain v.dsq.banks (timeBase v) (dewPoint v d) (judgedTrain (dewPoint v d) r) else r)
    (fun i u hu => hu.trainTakes i) (fun i j u hu => ?_) ⟨rfl, rfl, rfl, fun _ => rfl⟩ d
  by_cases here : j = i
  · subst here
    have now : timeBase u = timeBase v := by rw [timeBase, hu.fine, timeBase]
    rw [if_pos rfl, trainOf_trainTakes_same, hu.reads, hu.banks, now, hu.dewPoint]
  · rw [if_neg here, trainOf_trainTakes_other here]

end

/-! ### The blocks at a good reading (R28) -/

section
variable (n : Fin 16) (words : List WordBytes) (s : State)

/-- The state once the point has taken the reading. -/
def readMetered : State := meterTakes n (carriesRecovered (slotOf s n)) (readTaken n words s)

theorem readMetered_changes : ChangesOnly [.fsu, .mtu] s (readMetered n words s) :=
  ((alterSlot_changes n _ s).mono (by decide)).trans ((meterTakes_changes n _ _).mono (by decide))

theorem readHanded_eq : readHanded n words s = dryersTake n (cavernsTake n (readMetered n words s)) := rfl

/-- The threshold and the schedule change the slots alone. -/
theorem readScheduled_changes : ChangesOnly [.fsu] (readHanded n words s) (readScheduled n words s) :=
  (alterSlot_changes n _ _).trans (scheduleNext_changes n _)

theorem readScheduled_mtu : (readScheduled n words s).mtu = (readMetered n words s).mtu := by
  rw [← readScheduled_changes n words s .mtu (by decide), readHanded_eq, ← dryersTake_changes n _ .mtu (by decide),
    ← cavernsTake_changes n _ .mtu (by decide)]

theorem channels_readMetered (m : Fin 16) :
    (slotOf (readMetered n words s) m).channels = (slotOf (succeedVisit n words s) m).channels := by
  have metered : slotOf (readMetered n words s) m = slotOf (readTaken n words s) m :=
    slotOf_congr (fsu_of_changes (meterTakes_changes n _ _) (by decide)) m
  rw [metered]
  by_cases h : m = n
  · subst h
    rw [channels_succeedVisit, readTaken, slotOf_alterSlot_same]
  · rw [slotOf_succeedVisit_other n words s h, readTaken, slotOf_alterSlot_other _ _ h]

theorem readMetered_unbound (h : pointBoundTo s n = none) : (readMetered n words s).mtu = s.mtu := by
  have bound : pointBoundTo (readTaken n words s) n = none := h
  simp only [readMetered, meterTakes, bound]
  rfl

theorem readMetered_bound {k : Fin 7} (h : pointBoundTo s n = some k) :
    (readMetered n words s).mtu =
      (processDirections k (slotOf (readTaken n words s) n) (carriesRecovered (slotOf s n)) (gapClosed k n s)).mtu := by
  have bound : pointBoundTo (readTaken n words s) n = some k := h
  have same : MeteredAlike s (readTaken n words s) := ⟨⟨rfl, rfl⟩, rfl⟩
  simp only [readMetered, meterTakes, bound, goodReading, carriesRecovered, Bool.or_eq_true]
  refine processDirections_mtu_congr k _ _ ?_
  unfold gapClosed
  split
  · exact same.closeGap k
  · exact same

theorem readMetered_slot (k : Fin 7) : (pointOf (readMetered n words s) k).slot = (pointOf s k).slot := by
  unfold pointOf
  cases bound : pointBoundTo s n with
  | none => rw [readMetered_unbound n words s bound]
  | some p =>
    have alone := (gapClosed_alone p n s).trans clockRunning_gapClosed
      (processDirections_alone p (slotOf (readTaken n words s) n) (carriesRecovered (slotOf s n)) _)
    rw [readMetered_bound n words s bound]
    exact alone.slot k

/-- The state once the caverns have taken the reading too. -/
def readBanded : State := cavernsTake n (readMetered n words s)

theorem readBanded_dsq : (readBanded n words s).dsq = s.dsq :=
  (cavernsTake_changes n _ .dsq (by decide)).symm.trans (readMetered_changes n words s .dsq (by decide)).symm

theorem cavernPressure_readMetered {k : Fin 4} (h : (pointOf s (wellhead k)).slot = some n) :
    cavernPressure (readMetered n words s) k = channelAt (slotOf (succeedVisit n words s) n) 2 := by
  rw [cavernPressure_bound ((readMetered_slot n words s _).trans h), channelAt, channels_readMetered, channelAt]

/-- A cavern after the reading (R81, R82). -/
theorem cavernOf_readScheduled (k : Fin 4) :
    cavernOf (readScheduled n words s) k =
      if (pointOf s (wellhead k)).slot = some n then
        rebanded (channelAt (slotOf (succeedVisit n words s) n) 2) (cavernOf s k)
      else cavernOf s k := by
  have handed : (readScheduled n words s).dir = (readBanded n words s).dir :=
    (readScheduled_changes n words s .dir (by decide)).symm.trans (dryersTake_changes n _ .dir (by decide)).symm
  have stood : cavernOf (readMetered n words s) k = cavernOf s k :=
    cavernOf_congr (congrArg Dir.caverns (readMetered_changes n words s .dir (by decide)).symm) k
  rw [cavernOf_congr (congrArg Dir.caverns handed), readBanded, cavernOf_cavernsTake, readMetered_slot, stood]
  split
  · next h => rw [cavernPressure_readMetered n words s h]
  · rfl

theorem direction_cavernsTake (s : State) : (cavernsTake n s).dir.direction = s.dir.direction :=
  overFin_keeps (fun u : State => u.dir.direction = s.dir.direction) _ (fun k u hu => by
    split
    · exact hu
    · exact hu) rfl

/-- A train after the reading, but for its step (R127, R132). -/
theorem trainOf_readScheduled (d : Fin 2) :
    standing (trainOf (readScheduled n words s) d) =
      standing (if trainReads s n d then dewPointTaken s.dsq.banks (dewPoint (readBanded n words s) d) (trainOf s d) else trainOf s d) := by
  have dsq := readBanded_dsq n words s
  have handed : (readScheduled n words s).dsq = (dryersTake n (readBanded n words s)).dsq :=
    (readScheduled_changes n words s .dsq (by decide)).symm
  have reads : trainReads (readBanded n words s) n d = trainReads s n d := by rw [trainReads, trainOf_congr dsq, trainReads]
  rw [trainOf_congr handed, trainOf_dryersTake, reads, trainOf_congr dsq, dsq]
  split
  · exact standing_passed_judged _ _ _ _
  · rfl

theorem dewPoint_readBanded {d : Fin 2} {b : Binding} (hb : (trainOf s d).binding = some b) (h : b.slot = n) :
    dewPoint (readBanded n words s) d = (channelAt (slotOf (succeedVisit n words s) n) b.channel).value := by
  have slot : slotOf (readBanded n words s) n = slotOf (readMetered n words s) n :=
    slotOf_congr (fsu_of_changes (cavernsTake_changes n _) (by decide)) n
  rw [dewPoint, trainOf_congr (readBanded_dsq n words s), hb, boundChannel, h, slot, channelAt, channels_readMetered, channelAt]

end

/-! ### All of them -/

/-- A good reading of slot `n` has reached the blocks bound to it. -/
structure ReadingReached (n : Fin 16) (s t : State) : Prop where
  unbound : pointBoundTo s n = none → t.mtu = s.mtu
  bound : ∀ k, pointBoundTo s n = some k → ∃ sl, PointRead k n sl s t
  tested : quietChangeTested s t
  caverns : ∀ k : Fin 4, cavernOf t k =
    if (pointOf s (wellhead k)).slot = some n then rebanded (channelAt (slotOf t n) 2) (cavernOf s k) else cavernOf s k
  bands : ∀ k : Fin 4, (pointOf s (wellhead k)).slot = some n → conditionActive t (condBand k) = decide ((cavernOf t k).band ≠ .normal)
  read : ∀ (d : Fin 2) (b : Binding), (trainOf s d).binding = some b → b.slot = n →
    standing (trainOf t d) = standing (dewPointTaken s.dsq.banks (channelAt (slotOf t n) b.channel).value (trainOf s d))
      ∧ conditionActive t (condOffSpec d) = (trainOf t d).offSpec
  others : ∀ d : Fin 2, (∀ b, (trainOf s d).binding = some b → b.slot ≠ n) → standing (trainOf t d) = standing (trainOf s d)

section
variable {n : Fin 16} {s u t : State}

theorem EngineOnly.pointRead {k : Fin 7} {sl : Slot} (h : EngineOnly s u) (r : PointRead k n sl u t) : PointRead k n sl s t := by
  have alike : MeteredAlike s u := by
    obtain ⟨x, y, rfl⟩ := h
    exact ⟨⟨rfl, rfl⟩, rfl⟩
  have slot := h.slotOf n
  refine ⟨r.channels, r.settings.trans (congrArg Slot.settings slot), ?_, r.told⟩
  rw [r.mtu, slot]
  exact processDirections_mtu_congr k sl _ (alike.gapClosed k slot)

theorem EngineOnly.readingReached (h : EngineOnly s u) (k : ReadingReached n u t) : ReadingReached n s t := by
  have bound (p : Fin 7) (hp : pointBoundTo s n = some p) : ∃ sl, PointRead p n sl s t := by
    have hp' : pointBoundTo u n = some p := by
      obtain ⟨x, y, rfl⟩ := h
      exact hp
    obtain ⟨sl, read⟩ := k.bound p hp'
    exact ⟨sl, h.pointRead read⟩
  obtain ⟨x, y, rfl⟩ := h
  exact ⟨k.unbound, bound, k.tested, k.caverns, k.bands, k.read, k.others⟩

theorem offSpec_of_standing {r r' : Train} (h : standing r' = standing r) : r'.offSpec = r.offSpec :=
  (congrArg Train.offSpec h :)

theorem earlyAdvances_of_standing {r r' : Train} (h : standing r' = standing r) : r'.earlyAdvances = r.earlyAdvances :=
  (congrArg Train.earlyAdvances h :)

/-- A visit that succeeds hands its reading on (R28). -/
theorem succeedVisit_reached (n : Fin 16) (words : List WordBytes) (s : State) : ReadingReached n s (succeedVisit n words s) := by
  have mtu : (succeedVisit n words s).mtu = (readMetered n words s).mtu :=
    (slotEventEnds_mtu s _ n).trans (readScheduled_mtu n words s)
  have slots (k : Fin 7) : (pointOf (readScheduled n words s) k).slot = (pointOf s k).slot := by
    rw [← readMetered_slot n words s, pointOf, readScheduled_mtu, pointOf]
  have train (d : Fin 2) : standing (trainOf (succeedVisit n words s) d) = standing (trainOf (readScheduled n words s) d) :=
    standing_slotEventEnds s _ n d
  refine ⟨fun free => mtu.trans (readMetered_unbound n words s free), fun k bound => ?_, ?_, fun k => ?_, fun k bound => ?_,
    fun d b hb here => ⟨?_, ?_⟩, fun d free => ?_⟩
  · refine ⟨slotOf (readTaken n words s) n, fun c => ?_, ?_, mtu.trans (readMetered_bound n words s bound), ?_⟩
    · rw [channelAt, readTaken, slotOf_alterSlot_same, ← channels_succeedVisit, channelAt]
    · rw [readTaken, slotOf_alterSlot_same]
      rfl
    · have told := slotEventEnds_counter s (readScheduled n words s) n (k := k) ((pointBoundTo_congr slots n).trans bound)
      rw [← succeedVisit_eq] at told
      rw [told, pointOf, readScheduled_mtu, ← mtu, pointOf]
  · refine slotEventEnds_tested s (readScheduled n words s) n ?_
    rw [← readScheduled_changes n words s .dir (by decide), readHanded_eq, ← dryersTake_changes n _ .dir (by decide),
      direction_cavernsTake, ← readMetered_changes n words s .dir (by decide)]
  · rw [succeedVisit_eq, cavernOf_slotEventEnds, cavernOf_readScheduled, ← succeedVisit_eq]
  · have told := slotEventEnds_band s (readScheduled n words s) n ((slots _).trans bound)
    rw [← cavernOf_slotEventEnds s _ n, ← succeedVisit_eq] at told
    exact told
  · have reads : trainReads s n d = true := trainReads_iff.mpr ⟨b, hb, here⟩
    rw [train, trainOf_readScheduled, if_pos reads, dewPoint_readBanded n words s hb here]
  · have reads : trainReads s n d = true := trainReads_iff.mpr ⟨b, hb, here⟩
    have reads' : trainReads (readScheduled n words s) n d = true := by
      have binding := binding_of_standing (trainOf_readScheduled n words s d)
      rw [if_pos reads] at binding
      exact trainReads_iff.mpr ⟨b, binding.trans ((binding_judgedTrain _ _).trans hb), here⟩
    have told := slotEventEnds_offSpec s (readScheduled n words s) n reads'
    rw [← succeedVisit_eq, ← offSpec_of_standing (train d)] at told
    exact told
  · have free' : ¬ trainReads s n d = true := fun reads => by
      obtain ⟨b, hb, here⟩ := trainReads_iff.mp reads
      exact free b hb here
    rw [train, trainOf_readScheduled, if_neg free']

end

/-! ### The statement's trains -/

theorem offSpec_dewPointTaken (banks : Vector (Vector BankEntry 24) 2) (value : Int) (r : Train) :
    (dewPointTaken banks value r).offSpec = if r.state = .off then r.offSpec else offSpecAfterReading r.offSpec r value := by
  unfold dewPointTaken judgedTrain
  split
  · rfl
  · rfl

/-- The three cases of R132 for a train that has read its dew point. -/
theorem offSpec_cases {banks : Vector (Vector BankEntry 24) 2} {value : Int} {r r' : Train}
    (h : standing r' = standing (dewPointTaken banks value r)) :
    (r.state = .off → r'.offSpec = r.offSpec)
      ∧ (r.state ≠ .off → r.offSpec = false → (r'.offSpec = true ↔ r.specLimit ≤ value))
      ∧ (r.state ≠ .off → r.offSpec = true → (r'.offSpec = false ↔ value ≤ r.specLimit - r.hysteresis)) := by
  rw [offSpec_of_standing h, offSpec_dewPointTaken]
  refine ⟨fun off => if_pos off, fun on clear => ?_, fun on set => ?_⟩
  · rw [if_neg on, offSpecAfterReading, clear, if_neg Bool.false_ne_true, decide_eq_true_eq]
  · rw [if_neg on, offSpecAfterReading, set, if_pos rfl, Bool.not_eq_false', decide_eq_true_eq]

/-- The early advances of a train that has read its dew point (R127). -/
theorem earlyAdvances_cases {banks : Vector (Vector BankEntry 24) 2} {value : Int} {r r' : Train}
    (h : standing r' = standing (dewPointTaken banks value r)) :
    (∀ x, currentStep banks r = some x →
        r'.earlyAdvances = if x.adsorbExit = true ∧ r.breakthrough ≤ value then min 65535 (r.earlyAdvances + 1) else r.earlyAdvances)
      ∧ (currentStep banks r = none → r'.earlyAdvances = r.earlyAdvances) := by
  have early : r'.earlyAdvances = if breaksThrough banks value r then holdAdd 65535 r.earlyAdvances 1 else r.earlyAdvances :=
    (earlyAdvances_of_standing h).trans rfl
  refine ⟨fun x hx => ?_, fun hx => ?_⟩
  · have breaks : breaksThrough banks value r = true ↔ x.adsorbExit = true ∧ r.breakthrough ≤ value := by
      simp only [breaksThrough, hx, Bool.and_eq_true, decide_eq_true_eq]
    exact early.trans (if_congr breaks rfl rfl)
  · have stays : breaksThrough banks value r = false := by simp only [breaksThrough, hx]
    rw [early, stays, if_neg Bool.false_ne_true]

/-- Settles O24: the modulus by the format, then each reader of the slot. -/
theorem goodReadingReachesItsReaders : Obligations.GoodReadingReachesItsReaders := by
  refine ⟨fun sl c x h => counterModulus_of h, fun s f received words hs ha hj hd hp => ?_⟩
  have reached := (replyEnded_engineOnly s).readingReached (succeedVisit_reached f.entry.slot words (replyEnded s))
  have event : exec (.dataReply received) s = .next (succeedVisit f.entry.slot words (replyEnded s)) := by
    rw [exec_dataReply hs ha hj, hd, if_neg Bool.false_ne_true, dataAnswered_read hp]
  refine ⟨_, event, reached.unbound, fun k bound => ?_, reached.tested, fun k bound => ⟨?_, reached.bands k bound⟩, fun k free => ?_,
    fun d b hb here => ?_, fun d free => ?_⟩
  · obtain ⟨sl, read⟩ := reached.bound k bound
    exact read.meterTook
  · rw [reached.caverns, if_pos bound]
    rfl
  · rw [reached.caverns, if_neg free]
  · obtain ⟨stands, told⟩ := reached.read d b hb here
    obtain ⟨off, sets, clears⟩ := offSpec_cases stands
    obtain ⟨steps, rests⟩ := earlyAdvances_cases stands
    refine ⟨off, sets, clears, told, ?_⟩
    split
    · next x hx => exact steps x hx
    · next hx => exact rests hx
  · exact ⟨offSpec_of_standing (reached.others d free), earlyAdvances_of_standing (reached.others d free)⟩

end Sys2Proof.Machine

/-! SUPPORT. A point that changes its binding (R42, R53, R81), and the statement on SET-POINT. -/

namespace Sys2Proof.Machine

open Sys2Proof.Safety

/-! ### Checks 3 and 4 of R42 -/

theorem servesOther_iff {s : State} {k : Fin 7} {n : Fin 16} :
    servesOther s k n = true ↔ ∃ j, j ≠ k ∧ (pointOf s j).slot = some n := by
  simp only [servesOther, someFin_eq_true, Bool.and_eq_true, decide_eq_true_eq]

theorem pointBindingInUse_iff {s : State} {k : Fin 7} {slot : Option (Fin 16)} :
    pointBindingInUse s k slot = true ↔ ¬ pointMayTake s k slot := by
  cases slot with
  | none => simp [pointBindingInUse, pointMayTake]
  | some n =>
    have suits : (!pointFits k (slotOf s n)) = true ↔ ¬ suitsPoint k (slotOf s n) := by
      rw [Bool.not_eq_true', ← Bool.not_eq_true, pointFits_iff]
    have one : pointMayTake s k (some n)
        ↔ (∀ j, j ≠ k → (pointOf s j).slot ≠ some n) ∧ ((slotOf s n).state = .disabled ∨ suitsPoint k (slotOf s n)) :=
      ⟨fun h => h n rfl, fun h m hm => Option.some.inj hm ▸ h⟩
    rw [one, pointBindingInUse, Bool.or_eq_true, servesOther_iff, Bool.and_eq_true, decide_eq_true_eq, suits]
    push Not
    rw [imp_iff_not_or]
    push Not
    rfl

/-! ### The frame of SET-POINT -/

section
variable {fields : List Byte} {k : Fin 7} {slot : Option (Fin 16)} {s : State}

theorem readSlotNumber_outside (hm : mark fields 1 = some true) (h : 15 < byteAt fields 2) : readSlotNumber fields 1 = none := by
  have outside : index? 16 (byteAt fields (1 + 1)) = none := index?_of_le h
  simp only [readSlotNumber, hm, outside, Option.map_none]

theorem mark_of_readSlotNumber (h : readSlotNumber fields 1 = some slot) : ∃ m, mark fields 1 = some m := by
  unfold readSlotNumber at h
  split at h
  · next hm => exact ⟨_, hm⟩
  · next hm => exact ⟨_, hm⟩
  · cases h

/-- A SET-POINT whose slot number is read comes to the checks of R42. -/
theorem setPoint_configures {m : Bool} (hk : ordinal? 7 (byteAt fields 0) = some k) (hm : mark fields 1 = some m) :
    setPoint fields s = configurePoint fields k s := by
  simp only [setPoint, hk, hm]

theorem configurePoint_unread (h : readSlotNumber fields 1 = none) : configurePoint fields k s = .refuse .range := by
  simp only [configurePoint, h]

/-- The settings that SET-POINT carries are out of range (R41). -/
abbrev pointFieldsOut (fields : List Byte) (k : Fin 7) : Prop :=
  num fields 3 2 = 0 ∨ num fields 5 2 = 0 ∨ 100000000 < num fields 7 4 ∨ (1 < k.val ∧ num fields 7 4 ≠ 0)

section
variable (hr : readSlotNumber fields 1 = some slot)
include hr

theorem configurePoint_range (h : pointFieldsOut fields k) : configurePoint fields k s = .refuse .range := by
  simp only [configurePoint, hr]
  exact if_pos h

theorem configurePoint_inUse (h : ¬ pointFieldsOut fields k) (taken : ¬ pointMayTake s k slot) :
    configurePoint fields k s = .refuse .inUse := by
  simp only [configurePoint, hr]
  exact (if_neg h).trans (if_pos (pointBindingInUse_iff.mpr taken))

theorem configurePoint_stores (h : ¬ pointFieldsOut fields k) (free : pointMayTake s k slot) (same : (pointOf s k).slot = slot) :
    configurePoint fields k s = .taken (storePoint k slot (num fields 3 2) (num fields 5 2) (num fields 7 4) s) [] := by
  simp only [configurePoint, hr]
  exact (if_neg h).trans ((if_neg fun used => pointBindingInUse_iff.mp used free).trans (if_pos same))

theorem configurePoint_rebinds (h : ¬ pointFieldsOut fields k) (free : pointMayTake s k slot) (other : (pointOf s k).slot ≠ slot) :
    configurePoint fields k s = .taken (rebindPoint k slot (num fields 3 2) (num fields 5 2) (num fields 7 4) s) [] := by
  simp only [configurePoint, hr]
  exact (if_neg h).trans ((if_neg fun used => pointBindingInUse_iff.mp used free).trans (if_neg other))

end

/-- Stored settings with the binding kept are the other settings stored. -/
theorem storePoint_same {weight ceiling capacity : Nat} (h : (pointOf s k).slot = slot) :
    storePoint k slot weight ceiling capacity s
      = alterPoint k (fun p => { p with weight := weight, ceiling := ceiling, capacity := capacity }) s := by
  subst h
  rfl

end

/-! ### A new binding (R42, R53) -/

/-- What a direction keeps when its point leaves a binding (R53). -/
def unboundDirection (d : Direction) : Direction := { d with baseline := none, rate := 0, fresh := false, implausible := false }

/-- The point taken from its old slot and bound anew, before its readers follow. -/
def pointMoved (k : Fin 7) (slot : Option (Fin 16)) (weight ceiling capacity : Nat) (s : State) : State :=
  storePoint k slot weight ceiling capacity (unbindPoint k s)

/-- The state once the caverns have followed, before the CDT and the DIR take it. -/
def pointFollowed (k : Fin 7) (slot : Option (Fin 16)) (weight ceiling capacity : Nat) (s : State) : State :=
  bandOfPoint k (pointMoved k slot weight ceiling capacity s)

/-- The conditions that a changed binding can change. -/
def pointConditions (k : Fin 7) : List (Fin 56) :=
  condCounter k :: ((List.finRange 4).filter fun c => decide (wellhead c = k)).map condBand

theorem pointConditions_nodup : ∀ k, (pointConditions k).Nodup := by decide

theorem pointConditions_turn : ∀ k, condOverrun ∉ pointConditions k := by decide

theorem pointReports_keys (s : State) (k : Fin 7) : (pointReports s k).map Prod.fst = pointConditions k := by
  rw [pointReports, pointConditions, List.map_cons, List.map_map]
  rfl

section
variable (k : Fin 7) (slot : Option (Fin 16)) (weight ceiling capacity : Nat) (s : State)

theorem rebindPoint_eq :
    rebindPoint k slot weight ceiling capacity s =
      quietReported s (reportAll (pointReports (pointFollowed k slot weight ceiling capacity s) k)
        (pointFollowed k slot weight ceiling capacity s)) := rfl

theorem pointMoved_changes : ChangesOnly [.mtu] s (pointMoved k slot weight ceiling capacity s) :=
  (unbindPoint_changes k s).trans (alterPoint_changes k _ _)

theorem bandOfPoint_changes (s : State) : ChangesOnly [.dir] s (bandOfPoint k s) :=
  ChangesOnly.overFin (fun c s => by
    split
    · exact evaluateBand_changes c s
    · exact .refl _ s) s

theorem direction_bandOfPoint (s : State) : (bandOfPoint k s).dir.direction = s.dir.direction :=
  overFin_keeps (fun u : State => u.dir.direction = s.dir.direction) _ (fun c u hu => by
    split
    · exact hu
    · exact hu) rfl

/-- The reports and the test of the changeover leave the metering and the slots. -/
theorem rebindPoint_mtu : (rebindPoint k slot weight ceiling capacity s).mtu = (pointMoved k slot weight ceiling capacity s).mtu := by
  have turned := quietReported_turned s (reportAll (pointReports (pointFollowed k slot weight ceiling capacity s) k)
    (pointFollowed k slot weight ceiling capacity s))
  rw [rebindPoint_eq, ← turned.changes .mtu (by decide), ← reportAll_changes _ _ .mtu (by decide)]
  exact (bandOfPoint_changes k _ .mtu (by decide)).symm

theorem rebindPoint_fsu : (rebindPoint k slot weight ceiling capacity s).fsu = s.fsu :=
  fsu_of_changes (rebindPoint_changes k slot weight ceiling capacity s) (by decide)

theorem pointOf_rebindPoint_other {j : Fin 7} (h : j ≠ k) : pointOf (rebindPoint k slot weight ceiling capacity s) j = pointOf s j := by
  rw [pointOf, rebindPoint_mtu, ← pointOf, pointMoved, storePoint, pointOf_alterPoint_other _ _ h, unbindPoint,
    pointOf_alterPoint_other _ _ h, pointOf_closeGap_other k s h]

/-- The point in its new binding (R42, R53). -/
theorem pointOf_pointMoved :
    pointOf (pointMoved k slot weight ceiling capacity s) k =
      { pointOf (closeGap k s) k with
        slot := slot, weight := weight, ceiling := ceiling, capacity := capacity, gap := none, readingTime := none
        forward := unboundDirection (pointOf (closeGap k s) k).forward
        reverse := if hasReverse k then unboundDirection (pointOf (closeGap k s) k).reverse else (pointOf s k).reverse } := by
  have gone : (if hasReverse k then unboundDirection (pointOf (closeGap k s) k).reverse else (pointOf s k).reverse)
      = if hasReverse k then unboundDirection (pointOf (closeGap k s) k).reverse else (pointOf (closeGap k s) k).reverse := by
    cases reverse : hasReverse k with
    | false => rw [if_neg Bool.false_ne_true, if_neg Bool.false_ne_true, reverse_closeGap k s reverse]
    | true => rfl
  rw [gone, pointMoved, storePoint, pointOf_alterPoint_same, unbindPoint, pointOf_alterPoint_same]
  exact congrArg
    (fun gap : Option Nat =>
      { pointOf (closeGap k s) k with
        slot := slot, weight := weight, ceiling := ceiling, capacity := capacity, gap := gap, readingTime := none
        forward := unboundDirection (pointOf (closeGap k s) k).forward
        reverse := if hasReverse k then unboundDirection (pointOf (closeGap k s) k).reverse else (pointOf (closeGap k s) k).reverse })
    (gap_closeGap k s)

theorem pointOf_rebindPoint_same :
    pointOf (rebindPoint k slot weight ceiling capacity s) k = pointOf (pointMoved k slot weight ceiling capacity s) k := by
  rw [pointOf, rebindPoint_mtu, pointOf]

/-- A report of the changed binding stands at its end. -/
theorem conditionActive_rebindPoint {r : Fin 56 × Bool} (hr : r ∈ pointReports (pointFollowed k slot weight ceiling capacity s) k) :
    conditionActive (rebindPoint k slot weight ceiling capacity s) r.1 = r.2 := by
  have keys := pointReports_keys (pointFollowed k slot weight ceiling capacity s) k
  have known : r.1 ∈ pointConditions k := keys ▸ List.mem_map_of_mem hr
  have turned := quietReported_turned s (reportAll (pointReports (pointFollowed k slot weight ceiling capacity s) k)
    (pointFollowed k slot weight ceiling capacity s))
  rw [rebindPoint_eq, turned.conditions r.1 fun e => pointConditions_turn k (e ▸ known)]
  exact conditionActive_reportAll (keys ▸ pointConditions_nodup k) _ hr

/-- COUNTER of the rebound point: nothing of the old counters but the reverse mark of M3, which has no reverse counter. -/
theorem rebindPoint_counter :
    conditionActive (rebindPoint k slot weight ceiling capacity s) (condCounter k)
      = (!hasReverse k && (pointOf s k).reverse.implausible) := by
  refine (conditionActive_rebindPoint k slot weight ceiling capacity s (r := (condCounter k, _)) List.mem_cons_self).trans ?_
  have point : pointOf (pointFollowed k slot weight ceiling capacity s) k = pointOf (pointMoved k slot weight ceiling capacity s) k := by
    rw [pointOf, pointFollowed, ← bandOfPoint_changes k _ .mtu (by decide), pointOf]
  rw [point, pointOf_pointMoved, counterActive]
  cases hasReverse k with
  | false => rfl
  | true => rfl

/-- The reports and the test of the changeover leave the caverns. -/
theorem cavernOf_pointFollowed (j : Fin 4) :
    cavernOf (rebindPoint k slot weight ceiling capacity s) j = cavernOf (pointFollowed k slot weight ceiling capacity s) j := by
  have turned := quietReported_turned s (reportAll (pointReports (pointFollowed k slot weight ceiling capacity s) k)
    (pointFollowed k slot weight ceiling capacity s))
  refine cavernOf_congr ?_ j
  rw [rebindPoint_eq, turned.dir, ← reportAll_changes _ _ .dir (by decide)]

/-- The caverns of the rebound point (R81, R82). -/
theorem cavernOf_rebindPoint (j : Fin 4) :
    cavernOf (rebindPoint k slot weight ceiling capacity s) j =
      if wellhead j = k then
        rebanded (cavernPressure (rebindPoint k slot weight ceiling capacity s) j) (cavernOf s j)
      else cavernOf s j := by
  have moved := pointMoved_changes k slot weight ceiling capacity s
  have pressure : cavernPressure (rebindPoint k slot weight ceiling capacity s) j
      = cavernPressure (pointMoved k slot weight ceiling capacity s) j :=
    cavernPressure_of_blocks (rebindPoint_mtu k slot weight ceiling capacity s)
      ((rebindPoint_fsu k slot weight ceiling capacity s).trans (moved .fsu (by decide))) j
  have stood : cavernOf (pointMoved k slot weight ceiling capacity s) j = cavernOf s j :=
    cavernOf_congr (congrArg Dir.caverns (moved .dir (by decide)).symm) j
  rw [cavernOf_pointFollowed, pointFollowed, cavernOf_bandOfPoint, stood, pressure]

theorem rebindPoint_band {j : Fin 4} (h : wellhead j = k) :
    conditionActive (rebindPoint k slot weight ceiling capacity s) (condBand j)
      = decide ((cavernOf (rebindPoint k slot weight ceiling capacity s) j).band ≠ .normal) := by
  rw [cavernOf_pointFollowed]
  refine conditionActive_rebindPoint k slot weight ceiling capacity s (r := bandReport _ j) (List.mem_cons_of_mem _ ?_)
  exact List.mem_map_of_mem (List.mem_filter.mpr ⟨List.mem_finRange j, decide_eq_true h⟩)

theorem rebindPoint_tested : quietChangeTested s (rebindPoint k slot weight ceiling capacity s) := by
  refine quietReported_tested ?_
  rw [← reportAll_changes _ _ .dir (by decide)]
  have moved : (pointMoved k slot weight ceiling capacity s).dir = s.dir :=
    (pointMoved_changes k slot weight ceiling capacity s .dir (by decide)).symm
  exact (direction_bandOfPoint k _).trans (congrArg Dir.direction moved)

end

theorem quietChangeTested_accepted {s t : State} (h : quietChangeTested s t) (p : Port) (code bytes : Nat) :
    quietChangeTested s (accepted p code bytes t) := h

section
variable {fields : List Byte} {k : Fin 7} {m : Bool} {s : State} (hs : heldInReset s = false) (hf : fits 0x30 fields = true)
  (hk : ordinal? 7 (byteAt fields 0) = some k) (hm : mark fields 1 = some m)
include hs hf hk hm

theorem exec_setPoint_refused {status : Status} (h : configurePoint fields k s = .refuse status) :
    exec (.setPoint .ops fields) s = .next (answered .ops 13 status [0x30] s) := by
  have length : fields.length = 11 := length_of_fits hf rfl
  have served := serve_refused (owner := some .ops) (p := .ops) hs hf rfl ((setPoint_configures hk hm).trans h)
  rw [length] at served
  exact served

theorem exec_setPoint_taken {u : State} (h : configurePoint fields k s = .taken u []) :
    exec (.setPoint .ops fields) s = .next (accepted .ops 0x30 11 u) := by
  have length : fields.length = 11 := length_of_fits hf rfl
  have served := serve_taken (owner := some .ops) (p := .ops) hs hf rfl ((setPoint_configures hk hm).trans h)
  rw [length] at served
  exact served

end

/-- Settles O28: the checks in their order, the binding kept, and the binding changed. -/
theorem setPointStoresAndRebinds : Obligations.SetPointStoresAndRebinds := by
  refine ⟨fun fields k s hs hf hk hm outside =>
      exec_setPoint_refused hs hf hk hm (configurePoint_unread (readSlotNumber_outside hm outside)),
    fun fields k slot s hs hf hk hr => ?_⟩
  obtain ⟨m, hm⟩ := mark_of_readSlotNumber hr
  refine ⟨fun out => exec_setPoint_refused hs hf hk hm (configurePoint_range hr out), fun weight ceiling capacity third => ?_⟩
  have within : ¬ pointFieldsOut fields k := by omega
  refine ⟨fun taken => exec_setPoint_refused hs hf hk hm (configurePoint_inUse hr within taken), fun free same => ?_,
    fun free other => ?_⟩
  · rw [exec_setPoint_taken hs hf hk hm (configurePoint_stores hr within free same), storePoint_same same]
  · have changes := rebindPoint_changes k slot (num fields 3 2) (num fields 5 2) (num fields 7 4) s
    exact ⟨_, exec_setPoint_taken hs hf hk hm (configurePoint_rebinds hr within free other),
      (pointOf_rebindPoint_same k slot _ _ _ s).trans (pointOf_pointMoved k slot _ _ _ s),
      fun j hj => pointOf_rebindPoint_other k slot _ _ _ s hj, rebindPoint_counter k slot _ _ _ s, cavernOf_rebindPoint k slot _ _ _ s,
      fun j hj => rebindPoint_band k slot _ _ _ s hj, quietChangeTested_accepted (rebindPoint_tested k slot _ _ _ s) _ _ _,
      accepted_pif (changes .pif (by decide)).symm,
      (changes.mono (by decide)).trans ((accepted_changes _ _ _ _).mono (by decide))⟩

end Sys2Proof.Machine

/-! SUPPORT. The settings of the metering block that belong to no point, and the statement on SET-BETA and SET-CV (R37, R43). -/

namespace Sys2Proof.Machine

open Sys2Proof.Safety

/-! ### SET-BETA (R43) -/

section
variable {fields : List Byte} {s : State}

theorem setBeta_taken (h : ∀ i : Fin 4, num fields (2 * i.val) 2 ≤ 1023) :
    setBeta fields s = .taken (s.withMtu { s.mtu with beta := tab fun i => num fields (2 * i.val) 2 }) [] := by
  refine if_neg ?_
  simpa only [someFin_eq_true, nth_tab, decide_eq_true_eq, not_exists, not_lt] using h

theorem setBeta_range (h : ∃ i : Fin 4, 1023 < num fields (2 * i.val) 2) : setBeta fields s = .refuse .range := by
  refine if_pos ?_
  simpa only [someFin_eq_true, nth_tab, decide_eq_true_eq] using h

/-! ### SET-CV (R37, R43) -/

/-- A slot number above 15 names no slot. -/
theorem readSlotNumber_above {i : Nat} (hm : mark fields i = some true) (h : 15 < byteAt fields (i + 1)) :
    readSlotNumber fields i = none := by
  simp only [readSlotNumber, hm, index?_of_le (n := 16) h, Option.map_none]

theorem channelOutOfRange_iff {b : Option Binding} : channelOutOfRange b = true ↔ ∃ x, b = some x ∧ 3 < x.channel := by
  cases b with
  | none => simp [channelOutOfRange]
  | some x => simp [channelOutOfRange]

theorem cvBindingInUse_iff {b : Option Binding} : cvBindingInUse s b = true ↔ ¬ mayBind s .u16 b := by
  cases b with
  | none => simp [cvBindingInUse, mayBind]
  | some x =>
    have lacks : (!cvFits (slotOf s x.slot) x.channel) = true ↔ ¬ hasChannel (slotOf s x.slot) x.channel [.u16] := by
      rw [Bool.not_eq_true', ← Bool.not_eq_true, cvFits_iff]
    have one : mayBind s .u16 (some x)
        ↔ (slotOf s x.slot).state = .disabled ∨ hasChannel (slotOf s x.slot) x.channel [.u16] :=
      ⟨fun h => h x rfl, fun h y hy => Option.some.inj hy ▸ h⟩
    rw [one, not_or, cvBindingInUse, Bool.and_eq_true, decide_eq_true_eq, lacks]

theorem setCv_malformed (hm : mark fields 2 = some true) (h : 15 < byteAt fields 3) : setCv fields s = .refuse .malformed := by
  have unread : readBinding fields 2 = none := by rw [readBinding, readSlotNumber_above hm h, Option.map_none]
  simp only [setCv, unread]

section
variable {source : Option Binding} (hr : readBinding fields 2 = some source)
include hr

theorem setCv_range (h : num fields 0 2 < 8000 ∨ 13500 < num fields 0 2 ∨ ∃ b, source = some b ∧ 3 < b.channel) :
    setCv fields s = .refuse .range := by
  simp only [setCv, hr]
  by_cases cv : num fields 0 2 < 8000 ∨ 13500 < num fields 0 2
  · exact if_pos cv
  · rw [← or_assoc, or_iff_right cv, ← channelOutOfRange_iff] at h
    exact (if_neg cv).trans (if_pos h)

variable (low : 8000 ≤ num fields 0 2) (high : num fields 0 2 ≤ 13500) (channel : ∀ b, source = some b → b.channel ≤ 3)
include low high channel

/-- A SET-CV whose settings are in range comes to the check of R37. -/
theorem setCv_inRange_eq :
    setCv fields s =
      if cvBindingInUse s source then .refuse .inUse
      else .taken (s.withMtu { s.mtu with cvDefault := num fields 0 2, cvSource := source }) [] := by
  have inside : ¬ channelOutOfRange source = true := by
    rw [channelOutOfRange_iff]
    rintro ⟨b, hb, above⟩
    exact absurd (channel b hb) (not_le.mpr above)
  simp only [setCv, hr]
  rw [if_neg (by omega), if_neg inside]

theorem setCv_inUse (h : ¬ mayBind s .u16 source) : setCv fields s = .refuse .inUse := by
  rw [setCv_inRange_eq hr low high channel, if_pos (cvBindingInUse_iff.mpr h)]

theorem setCv_taken (h : mayBind s .u16 source) :
    setCv fields s = .taken (s.withMtu { s.mtu with cvDefault := num fields 0 2, cvSource := source }) [] := by
  rw [setCv_inRange_eq hr low high channel, if_neg fun used => cvBindingInUse_iff.mp used h]

end

/-! ### The two requests -/

section
variable (hs : heldInReset s = false)
include hs

theorem exec_setBeta_refused (hf : fits 0x31 fields = true) {status : Status} (h : setBeta fields s = .refuse status) :
    exec (.setBeta .ops fields) s = .next (answered .ops 10 status [0x31] s) := by
  have served := serve_refused (owner := some .ops) (p := .ops) hs hf rfl h
  rwa [length_of_fits hf rfl] at served

theorem exec_setBeta_taken (hf : fits 0x31 fields = true) {t : State} (h : setBeta fields s = .taken t []) :
    exec (.setBeta .ops fields) s = .next (accepted .ops 0x31 8 t) := by
  have served := serve_taken (owner := some .ops) (p := .ops) hs hf rfl h
  rwa [length_of_fits hf rfl] at served

theorem exec_setCv_refused (hf : fits 0x32 fields = true) {status : Status} (h : setCv fields s = .refuse status) :
    exec (.setCv .ops fields) s = .next (answered .ops 7 status [0x32] s) := by
  have served := serve_refused (owner := some .ops) (p := .ops) hs hf rfl h
  rwa [length_of_fits hf rfl] at served

theorem exec_setCv_taken (hf : fits 0x32 fields = true) {t : State} (h : setCv fields s = .taken t []) :
    exec (.setCv .ops fields) s = .next (accepted .ops 0x32 5 t) := by
  have served := serve_taken (owner := some .ops) (p := .ops) hs hf rfl h
  rwa [length_of_fits hf rfl] at served

end

end

/-- Settles O29: each request by its checks in their order. -/
theorem betaAndCvSettingsAreStored : Obligations.BetaAndCvSettingsAreStored :=
  ⟨fun _ _ hs hf => ⟨fun h => exec_setBeta_taken hs hf (setBeta_taken h), fun h => exec_setBeta_refused hs hf (setBeta_range h)⟩,
    fun _ _ hs hf hm h => exec_setCv_refused hs hf (setCv_malformed hm h),
    fun _ _ _ hs hf hr =>
      ⟨fun h => exec_setCv_refused hs hf (setCv_range hr h),
        fun low high channel =>
          ⟨fun h => exec_setCv_refused hs hf (setCv_inUse hr low high channel h),
            fun h => exec_setCv_taken hs hf (setCv_taken hr low high channel h)⟩⟩⟩

end Sys2Proof.Machine

/-! SUPPORT. The base volume of a delta and what a good reading makes of one direction (R43, R46 to R49), and the statement on them. -/

namespace Sys2Proof.Machine

open Sys2Proof.Safety

/-! ### Rounding (00_scope.md) -/

theorem roundsTo_roundDiv (a : Nat) {b : Nat} (hb : 0 < b) : roundsTo a b (roundDiv a b) :=
  ⟨Nat.mul_div_le _ _, Nat.lt_mul_div_succ _ (by omega)⟩

/-! ### The base volume (R43, R48) -/

section
variable (pressure temperature : Int)

theorem clampPressure_eq : (clampPressure pressure : Int) = max 0 (min 25000 pressure) := by
  unfold clampPressure
  omega

theorem clampTemperature_kelvin :
    ((clampTemperature temperature + 27315).toNat : Int) = clampTemperature temperature + 27315
      ∧ 0 < (clampTemperature temperature + 27315).toNat := by
  unfold clampTemperature
  omega

/-- The limits act outside the ranges of pressure and temperature. -/
theorem clamps_eq :
    clamps pressure temperature = decide (pressure < 0 ∨ 25000 < pressure ∨ temperature < -4000 ∨ 8000 < temperature) := by
  rw [clamps, ← Bool.decide_or, clampPressure_eq, clampTemperature]
  congr 1
  exact propext (by omega)

end

/-- The base volume as the last of its stages, each a quotient rounded half up. -/
theorem baseVolume_stages (beta : Vector Nat 4) (weight : Nat) (pressure temperature : Int) (pulses : Nat) :
    ∃ (p tk fp ft fz fc fcz : Nat) (t : Int) (i : Fin 4),
      (p : Int) = max 0 (min 25000 pressure) ∧ t = max (-4000) (min 8000 temperature) ∧ (tk : Int) = t + 27315
        ∧ i = (if t < 0 then 0 else if t < 2000 then 1 else if t < 4000 then 2 else 3)
        ∧ roundsTo (p * 65536000) 101325 fp ∧ roundsTo 1790115840 tk ft
        ∧ 65536 ≤ fz ∧ roundsTo (p * nth beta i) 256 (fz - 65536)
        ∧ roundsTo (fp * ft) 65536 fc ∧ roundsTo (fc * fz) 65536 fcz
        ∧ roundsTo (pulses * weight * fcz) 65536 (baseVolume beta weight pressure temperature pulses) := by
  obtain ⟨kelvin, warm⟩ := clampTemperature_kelvin temperature
  refine ⟨clampPressure pressure, (clampTemperature temperature + 27315).toNat, _, _,
    65536 + roundDiv (clampPressure pressure * nth beta (betaBand (clampTemperature temperature))) 256, _, _,
    clampTemperature temperature, _, clampPressure_eq pressure, rfl, kelvin, rfl, roundsTo_roundDiv _ (by decide),
    roundsTo_roundDiv _ warm, Nat.le_add_right _ _, ?_, roundsTo_roundDiv _ (by decide), roundsTo_roundDiv _ (by decide),
    roundsTo_roundDiv _ (by decide)⟩
  rw [Nat.add_sub_cancel_left]
  exact roundsTo_roundDiv _ (by decide)

/-! ### The delta of a counter (R47) -/

/-- The delta is the one number below the modulus that carries the baseline to the new value. -/
theorem counterDelta_spec {modulus : Nat} (h : 0 < modulus) (baseline value : Nat) :
    counterDelta modulus baseline value < modulus ∧ (baseline + counterDelta modulus baseline value) % modulus = value % modulus := by
  have inside : 0 ≤ ((value : Int) - baseline) % modulus := Int.emod_nonneg _ (by omega)
  have delta : (counterDelta modulus baseline value : Int) = ((value : Int) - baseline) % modulus := Int.toNat_of_nonneg inside
  constructor
  · have below : ((value : Int) - baseline) % modulus < modulus := Int.emod_lt_of_pos _ (by omega)
    omega
  · zify
    rw [delta, Int.add_emod_emod, add_sub_cancel]

/-! ### One direction (R46, R47, R49) -/

/-- A booking adds to the accumulator of the receiving hour, which holds at its end (R44). -/
theorem Direction.book_eq (toHour : Bool) (volume : Nat) (d : Direction) :
    d.book toHour volume = { d with
      hourVolume := if toHour then min (2 ^ 64 - 1) (d.hourVolume + volume) else d.hourVolume
      unclocked := if toHour then d.unclocked else min (2 ^ 64 - 1) (d.unclocked + volume) } := by
  cases toHour with
  | false => rfl
  | true => rfl

section
variable {beta : Vector Nat 4} {p : Point} {r : Reading} {modulus value : Nat} {d : Direction}

theorem takeDirection_rebases (h : d.baseline = none ∨ r.recovered = true) :
    takeDirection beta p r modulus value d
      = ⟨{ d with baseline := some value, fresh := false }, { MeterFlags.clear with rebased := true }, 0⟩ := by
  unfold takeDirection
  split
  · next baseline recovered =>
    rw [baseline, recovered] at h
    simp at h
  · rfl

section
variable {b : Nat} (hb : d.baseline = some b) (hr : r.recovered = false)
include hb hr

theorem takeDirection_plausible (h : counterDelta modulus b value ≤ p.ceiling) :
    takeDirection beta p r modulus value d =
      { direction :=
          { d.book r.toHour (baseVolume beta p.weight r.pressure r.temperature (counterDelta modulus b value)) with
            baseline := some value
            rate := baseVolume beta p.weight r.pressure r.temperature (counterDelta modulus b value) * 10 / r.interval
            fresh := true, implausible := false }
        flags := { MeterFlags.clear with clamped := clamps r.pressure r.temperature }
        estimated := 0 } := by
  simp only [takeDirection, hb, hr, if_pos h]

theorem takeDirection_implausible (h : p.ceiling < counterDelta modulus b value) :
    takeDirection beta p r modulus value d =
      { direction := { d.book r.toHour (d.rate * r.interval / 10) with baseline := some value, implausible := true }
        flags := { MeterFlags.clear with estimated := true }
        estimated := r.interval } := by
  simp only [takeDirection, hb, hr, if_neg (not_le.mpr h)]
  rfl

end

end

/-- Settles O30: the stages of the base volume, the delta, and a direction by what its reading is. -/
theorem goodReadingBooksItsDelta : Obligations.GoodReadingBooksItsDelta := by
  refine ⟨baseVolume_stages, fun modulus baseline value h => counterDelta_spec (by omega) baseline value,
    fun beta p r modulus value d => ⟨takeDirection_rebases, fun b hb hr => ⟨fun plausible => ?_, fun implausible => ?_⟩⟩⟩
  · rw [takeDirection_plausible hb hr plausible, clamps_eq, Direction.book_eq]
    exact ⟨rfl, rfl, rfl⟩
  · rw [takeDirection_implausible hb hr implausible, Direction.book_eq]
    exact ⟨rfl, rfl, rfl⟩

end Sys2Proof.Machine

/-! SUPPORT. What the booking of a gap makes of its point and of the flags, one gap and all of them (R44, R52 to R54), and the statement on
gaps. -/

namespace Sys2Proof.Machine

open Sys2Proof.Safety

/-! ### One gap (R52) -/

/-- A point whose gap is booked from the time `from_` to `now`. -/
def bookedFrom (toHour : Bool) (k : Fin 7) (now from_ : Nat) (p : Point) : Point :=
  { (p.eachDirection k fun d => d.book toHour (d.substitute (now - from_))).estimate (now - from_) with gap := some now }

/-- What a booking at the time `now` makes of a point. -/
def gapBookedPoint (toHour : Bool) (k : Fin 7) (now : Nat) (p : Point) : Point :=
  match p.gap with
  | none => p
  | some from_ => bookedFrom toHour k now from_ p

/-- A flag set with ESTIMATED set where `here` holds. -/
def estimatedWhere (here : Bool) (f : MeterFlags) : MeterFlags := { f with estimated := f.estimated || here }

theorem merge_estimatedFlag (f : MeterFlags) : f.merge estimatedFlag = estimatedWhere true f := by
  simp [MeterFlags.merge, estimatedFlag, MeterFlags.clear, estimatedWhere]

theorem estimatedWhere_false (f : MeterFlags) : estimatedWhere false f = f := by
  simp [estimatedWhere]

section
variable (toHour : Bool) (k : Fin 7) (s : State)

theorem bookGap_none (h : (pointOf s k).gap = none) : bookGap toHour k s = s := by
  simp only [bookGap, h]

theorem bookGap_some {from_ : Nat} (h : (pointOf s k).gap = some from_) :
    bookGap toHour k s = setMeterFlags toHour estimatedFlag (alterPoint k (bookedFrom toHour k (timeBase s) from_) s) := by
  simp only [bookGap, h]
  rfl

theorem pointOf_bookGap : pointOf (bookGap toHour k s) k = gapBookedPoint toHour k (timeBase s) (pointOf s k) := by
  unfold gapBookedPoint
  cases h : (pointOf s k).gap with
  | none => rw [bookGap_none toHour k s h]
  | some from_ => rw [bookGap_some toHour k s h, pointOf_setMeterFlags, pointOf_alterPoint_same]

theorem timeBase_bookGap : timeBase (bookGap toHour k s) = timeBase s := by
  rw [timeBase, ← bookGap_changes toHour k s .fine (by decide), timeBase]

/-- The flags of the receiving hour, and the others, after a booking. -/
theorem receivingFlags_bookGap :
    receivingFlags toHour (bookGap toHour k s).mtu = estimatedWhere (pointOf s k).gap.isSome (receivingFlags toHour s.mtu)
      ∧ receivingFlags (!toHour) (bookGap toHour k s).mtu = receivingFlags (!toHour) s.mtu := by
  cases h : (pointOf s k).gap with
  | none => rw [bookGap_none toHour k s h, Option.isSome_none, estimatedWhere_false]; exact ⟨rfl, rfl⟩
  | some from_ =>
    have flags (hour : Bool) (f : Point → Point) : receivingFlags hour (alterPoint k f s).mtu = receivingFlags hour s.mtu := rfl
    obtain ⟨set, stood⟩ :=
      receivingFlags_setMeterFlags toHour estimatedFlag (alterPoint k (bookedFrom toHour k (timeBase s) from_) s)
    rw [bookGap_some toHour k s h, set, stood, flags, flags, merge_estimatedFlag]
    exact ⟨rfl, rfl⟩

theorem gap_isSome_bookGap (j : Fin 7) : (pointOf (bookGap toHour k s) j).gap.isSome = (pointOf s j).gap.isSome := by
  by_cases here : j = k
  · subst here
    rw [pointOf_bookGap, gapBookedPoint]
    split
    · rfl
    · next h => rw [h, bookedFrom, Option.isSome_some, Option.isSome_some]
  · rw [pointOf_bookGap_other k s toHour here]

end

section
variable {p : Point} {from_ : Nat}

theorem gapBookedPoint_none (toHour : Bool) (k : Fin 7) (now : Nat) (h : p.gap = none) : gapBookedPoint toHour k now p = p := by
  simp only [gapBookedPoint, h]

theorem gapBookedPoint_some (toHour : Bool) (k : Fin 7) (now : Nat) (h : p.gap = some from_) :
    gapBookedPoint toHour k now p = bookedFrom toHour k now from_ p := by
  simp only [gapBookedPoint, h]

end

/-- A booking in a gap is a booking of the stored rate over its time. -/
theorem gapBooked_substitute (toHour : Bool) (tenths : Nat) (d : Direction) :
    gapBooked toHour tenths d (d.book toHour (d.substitute tenths)) := Direction.book_eq toHour _ d

section
variable (k : Fin 7) (s : State)

theorem slot_bookGap (toHour : Bool) : (pointOf (bookGap toHour k s) k).slot = (pointOf s k).slot :=
  (congrArg Point.slot (pointOf_bookGap_same k s toHour) :)

theorem capacity_bookGap (toHour : Bool) : (pointOf (bookGap toHour k s) k).capacity = (pointOf s k).capacity :=
  (congrArg Point.capacity (pointOf_bookGap_same k s toHour) :)

/-- A booking into the unclocked accumulators leaves those of the hour. -/
theorem hourVolume_bookGap_unclocked :
    (pointOf (bookGap false k s) k).forward.hourVolume = (pointOf s k).forward.hourVolume
      ∧ (pointOf (bookGap false k s) k).reverse.hourVolume = (pointOf s k).reverse.hourVolume := by
  rw [pointOf_bookGap]
  cases h : (pointOf s k).gap with
  | none => rw [gapBookedPoint_none false k _ h]; exact ⟨rfl, rfl⟩
  | some from_ =>
    rw [gapBookedPoint_some false k _ h]
    refine ⟨rfl, ?_⟩
    simp only [bookedFrom, Point.estimate, Point.eachDirection]
    split
    · rfl
    · rfl

/-! ### Every gap (R52, R54) -/

/-- Every open gap booked. -/
abbrev gapsBooked (toHour : Bool) (s : State) : State := overFin 7 (fun k s => bookGap toHour k s) s

/-- A walk over the gaps books each as it would be booked alone. -/
theorem pointOf_gapsBooked (toHour : Bool) : pointOf (gapsBooked toHour s) k = pointOf (bookGap toHour k s) k := by
  rw [pointOf_bookGap]
  refine read_overFin (fun u => timeBase u = timeBase s) (fun j u => pointOf u j) (fun j => gapBookedPoint toHour j (timeBase s))
    (fun i u hu => (timeBase_bookGap toHour i u).trans hu) (fun i j u hu => ?_) rfl k
  split
  · next here => rw [here, pointOf_bookGap, hu]
  · next other => exact pointOf_bookGap_other i u toHour other

/-- A walk over the gaps sets ESTIMATED on the receiving hour where one of them is open. -/
theorem receivingFlags_gapsBooked (toHour : Bool) :
    receivingFlags toHour (gapsBooked toHour s).mtu
        = estimatedWhere (decide (∃ j, (pointOf s j).gap ≠ none)) (receivingFlags toHour s.mtu)
      ∧ receivingFlags (!toHour) (gapsBooked toHour s).mtu = receivingFlags (!toHour) s.mtu := by
  have walk (l : List (Fin 7)) (u : State) :
      receivingFlags toHour (l.foldl (fun s i => bookGap toHour i s) u).mtu
          = estimatedWhere (l.any fun j => (pointOf u j).gap.isSome) (receivingFlags toHour u.mtu)
        ∧ receivingFlags (!toHour) (l.foldl (fun s i => bookGap toHour i s) u).mtu = receivingFlags (!toHour) u.mtu := by
    induction l generalizing u with
    | nil => exact ⟨(estimatedWhere_false _).symm, rfl⟩
    | cons i l ih =>
      obtain ⟨rest, restStood⟩ := ih (bookGap toHour i u)
      obtain ⟨first, firstStood⟩ := receivingFlags_bookGap toHour i u
      refine ⟨?_, restStood.trans firstStood⟩
      rw [List.foldl_cons, rest, first]
      simp only [gap_isSome_bookGap, estimatedWhere, List.any_cons, Bool.or_assoc]
  have whole : ((List.finRange 7).any fun j => (pointOf s j).gap.isSome) = decide (∃ j, (pointOf s j).gap ≠ none) := by
    rw [Bool.eq_iff_iff, decide_eq_true_iff]
    simp [Option.isSome_iff_ne_none]
  obtain ⟨set, stood⟩ := walk (List.finRange 7) s
  exact ⟨whole ▸ set, stood⟩

/-! ### The unclocked measurement (R54) -/

/-- A direction whose unclocked accumulator has passed to the set hour. -/
def clockedDirection (d : Direction) : Direction := { d.book true d.unclocked with unclocked := 0 }

theorem pointOf_mergedUnclocked : pointOf (mergedUnclocked s) k = (pointOf s k).eachDirection k clockedDirection := nth_tab _ k

theorem mergedUnclocked_flags :
    (mergedUnclocked s).mtu.flags = (s.mtu.flags.merge s.mtu.unclockedFlags).merge { MeterFlags.clear with restart := true } := rfl

theorem pointOf_mergeUnclocked :
    pointOf (mergeUnclocked s) k = (pointOf (bookGap false k s) k).eachDirection k clockedDirection := by
  rw [mergeUnclocked_eq, pointOf_mergedUnclocked, pointOf_gapsBooked]

theorem clockedDirection_eq {d : Direction} {hour : Nat} (h : d.hourVolume = hour) :
    clockedDirection d = { d with hourVolume := min (2 ^ 64 - 1) (hour + d.unclocked), unclocked := 0 } := by
  subst h
  rfl

/-- The flags of the set hour: both flag sets, ESTIMATED for an open gap, and RESTART. -/
theorem mergeUnclocked_flags :
    (mergeUnclocked s).mtu.flags =
      { restart := true
        estimated := s.mtu.flags.estimated || s.mtu.unclockedFlags.estimated || decide (∃ j : Fin 7, (pointOf s j).gap ≠ none)
        clamped := s.mtu.flags.clamped || s.mtu.unclockedFlags.clamped
        cvHeld := s.mtu.flags.cvHeld || s.mtu.unclockedFlags.cvHeld
        rebased := s.mtu.flags.rebased || s.mtu.unclockedFlags.rebased } := by
  obtain ⟨unclocked, hour⟩ := receivingFlags_gapsBooked s false
  have unclocked : (gapsBooked false s).mtu.unclockedFlags
      = estimatedWhere (decide (∃ j, (pointOf s j).gap ≠ none)) s.mtu.unclockedFlags := unclocked
  have hour : (gapsBooked false s).mtu.flags = s.mtu.flags := hour
  rw [mergeUnclocked_eq, mergedUnclocked_flags, unclocked, hour]
  simp only [MeterFlags.merge, MeterFlags.clear, estimatedWhere, Bool.or_false, Bool.or_true, Bool.or_assoc]

end

/-- Settles O25: the booking of one gap, its closing, and the walks over all gaps at a close and at SET-CLOCK. -/
theorem gapsBookTheStoredRate : Obligations.GapsBookTheStoredRate := by
  refine ⟨fun toHour k s => ⟨bookGap_none toHour k s, fun j hj => pointOf_bookGap_other k s toHour hj, fun from_ hfrom => ?_⟩,
    fun k s => ⟨?_, fun j hj => pointOf_closeGap_other k s hj, rfl, rfl⟩, fun k s => pointOf_gapsBooked k s true, fun k s => ?_⟩
  · obtain ⟨set, -⟩ := receivingFlags_bookGap toHour k s
    rw [pointOf_bookGap, gapBookedPoint_some toHour k _ hfrom]
    refine ⟨rfl, rfl, gapBooked_substitute toHour _ _, ?_, ?_⟩
    · cases reverse : hasReverse k with
      | false => simp [bookedFrom, Point.estimate, Point.eachDirection, reverse]
      | true => simpa [bookedFrom, Point.estimate, Point.eachDirection, reverse] using gapBooked_substitute toHour _ _
    · have estimated : (receivingFlags toHour (bookGap toHour k s).mtu).estimated = true := by
        rw [set, hfrom]
        exact Bool.or_true _
      cases toHour with
      | false => exact estimated
      | true => exact estimated
  · rw [closeGap, pointOf_alterPoint_same]
  · obtain ⟨forward, reverse⟩ := hourVolume_bookGap_unclocked k s
    rw [pointOf_mergeUnclocked]
    refine ⟨clockedDirection_eq forward, fun hk => ?_, rfl, rfl, fun hk => ?_, mergeUnclocked_flags s, ?_⟩
    · rw [Point.eachDirection, if_pos hk]
      exact clockedDirection_eq reverse
    · simp only [Point.eachDirection, hk, if_neg Bool.false_ne_true]
      exact reverse_bookGap k s false hk
    · rw [mergeUnclocked_mtu]

end Sys2Proof.Machine

/-! SUPPORT. The quantities of a close: the allocations of PRO_RATA, the fuel, and the accounts from which both are formed (R176 to R181). -/

namespace Sys2Proof.Machine

open Sys2Proof.Safety

/-! ### PRO_RATA (R178 to R180) -/

/-- A magnitude that flows in a direction, as a signed quantity. -/
def signedFlow (positive : Bool) (n : Int) : Int := if positive then n else -n

theorem nth_flowing_in (q : Vector Int 16) (a : Fin 16) : nth (flowing true q) a = (nth q a).toNat := nth_each q Int.toNat a

theorem nth_flowing_out (q : Vector Int 16) (a : Fin 16) : nth (flowing false q) a = (-(nth q a)).toNat :=
  nth_each q (fun x => (-x).toNat) a

section
variable {s : State} {q : Vector Int 16} {m : Int}

theorem proRata_exact (h : m = sumInt (nth q) ∨ sumInt (nth q) = 0) : proRata s q m = q := if_pos (by omega)

section
variable {positive : Bool} (inexact : m ≠ sumInt (nth q)) (flows : sumInt (nth q) ≠ 0) (sign : decide (0 < sumInt (nth q)) = positive)
include inexact flows sign

/-- An over-flow adds to each share of the flow its extra, within its cap (R180). -/
theorem nth_proRata_over (more : decide (0 < m - sumInt (nth q)) = positive) (a : Fin 16) :
    nth (proRata s q m) a =
      if nth (flowing positive q) a = 0 then nth q a
      else signedFlow positive (((nth (flowing positive q) a : Nat) : Int)
        + min ((nth (largestRemainder (m - sumInt (nth q)).natAbs (flowing positive q)) a : Nat) : Int) (extraCap s positive a)) := by
  unfold proRata
  dsimp only
  rw [if_neg (by omega), sign, more, if_pos rfl, nth_tab]
  rfl

/-- An under-flow is shared anew (R179). -/
theorem nth_proRata_under (under : decide (0 < m - sumInt (nth q)) ≠ positive) (a : Fin 16) :
    nth (proRata s q m) a =
      if nth (flowing positive q) a = 0 then nth q a
      else signedFlow positive
        ((nth (largestRemainder (sumNat (nth (flowing positive q)) - (m - sumInt (nth q)).natAbs) (flowing positive q)) a : Nat) : Int) := by
  have shared (total x : Nat) : total - min x total = total - x := by omega
  unfold proRata
  dsimp only
  rw [if_neg (by omega), sign, if_neg under, nth_tab, shared]
  rfl

end

/-- A quantity that does not flow with the net is allocated as it was confirmed. -/
theorem nth_proRata_counterflow {a : Fin 16} (h : nth (flowing (decide (0 < sumInt (nth q))) q) a = 0) :
    nth (proRata s q m) a = nth q a := by
  by_cases exact : m = sumInt (nth q) ∨ sumInt (nth q) = 0
  · rw [proRata_exact exact]
  · obtain ⟨inexact, flows⟩ := not_or.mp exact
    by_cases more : decide (0 < m - sumInt (nth q)) = decide (0 < sumInt (nth q))
    · rw [nth_proRata_over inexact flows rfl more, if_pos h]
    · rw [nth_proRata_under inexact flows rfl more, if_pos h]

theorem proRata_allocated (s : State) (q : Vector Int 16) (m : Int) : ProRataAllocated s q m (proRata s q m) := by
  have sign_in (h : 0 < sumInt (nth q)) : decide (0 < sumInt (nth q)) = true := decide_eq_true h
  have sign_out (h : sumInt (nth q) < 0) : decide (0 < sumInt (nth q)) = false := decide_eq_false (by omega)
  refine ⟨proRata_exact, fun a h => ?_, fun net less a ha => ?_, fun net less a ha => ?_, fun net more a ha => ?_, fun net more a ha => ?_⟩
  · rcases h with ⟨net, ha⟩ | ⟨net, ha⟩
    · exact nth_proRata_counterflow (by rw [sign_in net, nth_flowing_in]; omega)
    · exact nth_proRata_counterflow (by rw [sign_out net, nth_flowing_out]; omega)
  · rw [nth_proRata_under less.ne net.ne' (sign_in net) (by rw [ne_eq, decide_eq_true_eq]; omega), nth_flowing_in, if_neg (by omega),
      show (m - sumInt (nth q)).natAbs = (sumInt (nth q) - m).toNat by omega]
    rfl
  · rw [nth_proRata_under less.ne' net.ne (sign_out net) (by rw [ne_eq, decide_eq_false_iff_not]; omega), nth_flowing_out, if_neg (by omega),
      show (m - sumInt (nth q)).natAbs = (m - sumInt (nth q)).toNat by omega]
    rfl
  · have cap : extraCap s true a = if (accountOf s a).state = .active then freeSpace s a else 0 := by
      unfold extraCap
      cases (accountOf s a).state <;> rfl
    rw [nth_proRata_over more.ne' net.ne' (sign_in net) (decide_eq_true (by omega)), nth_flowing_in, if_neg (by omega), cap,
      Int.toNat_of_nonneg ha.le, show (m - sumInt (nth q)).natAbs = (m - sumInt (nth q)).toNat by omega]
    rfl
  · rw [nth_proRata_over more.ne net.ne (sign_out net) (decide_eq_false (by omega)), nth_flowing_out, if_neg (by omega),
      Int.toNat_of_nonneg (by omega), show (m - sumInt (nth q)).natAbs = (sumInt (nth q) - m).toNat by omega]
    exact (neg_add _ _).trans (by rw [neg_neg, ← sub_eq_add_neg]; rfl)

/-! ### Fuel (R181) -/

theorem shareFuel_charged (s : State) (q al : Vector Int 16) (fuel : Nat) : FuelCharged s q al fuel (shareFuel s q al fuel) :=
  fun a => nth_tab _ a

end

/-! ### What the quantities rest on -/

section
variable {s t : State}

theorem accountOf_of_act (act : t.act = s.act) : accountOf t = accountOf s := by
  funext a
  rw [accountOf, act, accountOf]

theorem hourOf_of_nfu (nfu : t.nfu = s.nfu) : hourOf t = hourOf s := by
  funext p
  rw [hourOf, nfu, hourOf]

theorem confirmedOf_of_nfu (nfu : t.nfu = s.nfu) : confirmedOf t = confirmedOf s := by
  funext p a
  rw [confirmedOf, entryOf, hourOf_of_nfu nfu, confirmedOf, entryOf]

theorem firmedUnclosed_of_nfu (nfu : t.nfu = s.nfu) : firmedUnclosed t = firmedUnclosed s := by
  funext p
  rw [firmedUnclosed, hourOf_of_nfu nfu, firmedUnclosed]

theorem withdrawalReserve_of_nfu (nfu : t.nfu = s.nfu) : withdrawalReserve t = withdrawalReserve s := by
  funext a
  rw [withdrawalReserve, firmedUnclosed_of_nfu nfu, confirmedOf_of_nfu nfu, withdrawalReserve]

theorem injectionReserve_of_nfu (nfu : t.nfu = s.nfu) : injectionReserve t = injectionReserve s := by
  funext a
  rw [injectionReserve, firmedUnclosed_of_nfu nfu, confirmedOf_of_nfu nfu, injectionReserve]

section
variable (act : t.act = s.act) (nfu : t.nfu = s.nfu)
include act nfu

theorem closingConfirmed_congr : closingConfirmed t = closingQuantity s := by
  funext p
  rw [closingConfirmed, accountOf_of_act act, confirmedOf_of_nfu nfu, closingQuantity]

theorem extraCap_congr : extraCap t = extraCap s := by
  funext positive a
  rw [extraCap, freeSpace, freeInventory, accountOf_of_act act, withdrawalReserve_of_nfu nfu, injectionReserve_of_nfu nfu, extraCap,
    freeSpace, freeInventory]

theorem allocate_congr (mode : t.cau.mode = s.cau.mode) (q : Vector Int 16) (m : Int) : allocate t q m = allocate s q m := by
  rw [allocate, mode, proRata, extraCap_congr act nfu, allocate, proRata]

theorem shareFuel_congr (q al : Vector Int 16) (fuel : Nat) : shareFuel t q al fuel = shareFuel s q al fuel := by
  have cap (a : Fin 16) : fuelCap t q al a = fuelCap s q al a := by
    rw [fuelCap, accountOf_of_act act, withdrawalReserve_of_nfu nfu, fuelCap]
  simp only [shareFuel, cap]

end

end

theorem allocate_asNominated {s : State} (h : s.cau.mode = .asNominated) (q : Vector Int 16) (m : Int) : allocate s q m = q := by
  simp only [allocate, h]

theorem allocate_proRata {s : State} (h : s.cau.mode = .proRata) (q : Vector Int 16) (m : Int) :
    ProRataAllocated s q m (allocate s q m) := by
  simp only [allocate, h]
  exact proRata_allocated s q m

end Sys2Proof.Machine

/-! SUPPORT. What the metering unit hands to a close: the energies, the estimated seconds and the flags of the hour (R52, R55, R57). -/

namespace Sys2Proof.Machine

open Sys2Proof.Safety

/-! ### Energies (R55) -/

/-- A quotient rounded half up is one number. -/
theorem roundsTo_iff {a b x : Nat} (hb : 0 < b) : roundsTo a b x ↔ x = roundDiv a b := by
  refine ⟨fun ⟨low, high⟩ => ?_, fun h => h ▸ roundsTo_roundDiv a hb⟩
  rw [Nat.mul_comm (2 * b)] at low high
  exact (Nat.div_eq_of_lt_le low high).symm

theorem rawEnergy_iff {cv volume raw : Nat} : roundsTo (volume * cv) 1000000000 raw ↔ raw = rawEnergy cv volume :=
  roundsTo_iff (by decide)

theorem energyOf_hourEnergy (cv volume : Nat) : hourEnergy volume cv (energyOf cv volume) := ⟨_, rawEnergy_iff.mpr rfl, rfl⟩

section
variable (u : State)

theorem hourMetering_forward (k : Fin 7) :
    nth (hourMetering u.mtu).forward k = energyOf u.mtu.latchedCv (pointOf u k).forward.hourVolume := nth_each _ _ k

/-- A point without a reverse direction hands no reverse energy. -/
theorem hourMetering_reverse (k : Fin 7) :
    nth (hourMetering u.mtu).reverse k = if hasReverse k then energyOf u.mtu.latchedCv (pointOf u k).reverse.hourVolume else 0 := nth_tab _ k

/-- The energies by direction, under the latched CV. -/
theorem hourMetering_energies (k : Fin 7) :
    hourEnergy (pointOf u k).forward.hourVolume u.mtu.latchedCv (nth (hourMetering u.mtu).forward k)
      ∧ (hasReverse k = true → hourEnergy (pointOf u k).reverse.hourVolume u.mtu.latchedCv (nth (hourMetering u.mtu).reverse k))
      ∧ (hasReverse k = false → nth (hourMetering u.mtu).reverse k = 0) := by
  rw [hourMetering_forward, hourMetering_reverse]
  refine ⟨energyOf_hourEnergy _ _, fun reverse => ?_, fun reverse => ?_⟩
  · rw [if_pos reverse]
    exact energyOf_hourEnergy _ _
  · rw [reverse, if_neg Bool.false_ne_true]

/-! ### Estimated seconds (R55) -/

/-- The largest of a list and of the number it is compared with first. -/
theorem foldl_max_spec (l : List Nat) (a : Nat) :
    a ≤ l.foldl max a ∧ (∀ y ∈ l, y ≤ l.foldl max a) ∧ (l.foldl max a = a ∨ l.foldl max a ∈ l) := by
  induction l generalizing a with
  | nil => exact ⟨le_rfl, nofun, .inl rfl⟩
  | cons y l ih =>
    obtain ⟨first, rest, found⟩ := ih (max a y)
    simp only [List.foldl_cons, List.mem_cons, forall_eq_or_imp]
    refine ⟨(le_max_left a y).trans first, ⟨(le_max_right a y).trans first, rest⟩, ?_⟩
    rcases found with h | h
    · rcases max_choice a y with top | top
      · exact .inl (h.trans top)
      · exact .inr (.inl (h.trans top))
    · exact .inr (.inr h)

theorem hourMetering_estimatedSeconds :
    ∃ x, (hourMetering u.mtu).estimatedSeconds = min 3600 x ∧ (∀ k, (pointOf u k).estimatedTenths / 10 ≤ x)
      ∧ ∃ k, (pointOf u k).estimatedTenths / 10 = x := by
  obtain ⟨-, bound, found⟩ := foldl_max_spec (u.mtu.points.toList.map fun p => p.estimatedTenths / 10) 0
  have below (k : Fin 7) := bound _ (List.mem_map_of_mem (Vector.mem_toList_iff.mpr (Vector.getElem_mem k.isLt)))
  refine ⟨_, rfl, below, ?_⟩
  rcases found with none | some
  · exact ⟨0, (Nat.le_zero.mp (none ▸ below 0)).trans none.symm⟩
  · obtain ⟨p, hp, top⟩ := List.mem_map.mp some
    obtain ⟨i, hi, rfl⟩ := Vector.mem_iff_getElem.mp (Vector.mem_toList_iff.mp hp)
    exact ⟨⟨i, hi⟩, top⟩

/-! ### Flags (R55, R57) -/

/-- CLAMPED is set on the record where an energy was cut. -/
theorem hourMetering_clamped :
    (hourMetering u.mtu).flags.clamped = true ↔
      u.mtu.flags.clamped = true
        ∨ ∃ (k : Fin 7) (volume raw : Nat),
            (volume = (pointOf u k).forward.hourVolume
                ∨ (hasReverse k = true ∧ volume = (pointOf u k).reverse.hourVolume))
              ∧ roundsTo (volume * u.mtu.latchedCv) 1000000000 raw ∧ 100000000 < raw := by
  simp only [hourMetering, Bool.or_eq_true, someFin_eq_true, Bool.and_eq_true, decide_eq_true_eq, rawEnergy_iff]
  refine or_congr_right (exists_congr fun k => ⟨?_, ?_⟩)
  · rintro (cut | ⟨reverse, cut⟩)
    · exact ⟨_, _, .inl rfl, rfl, cut⟩
    · exact ⟨_, _, .inr ⟨reverse, rfl⟩, rfl, cut⟩
  · rintro ⟨_, _, rfl | ⟨reverse, rfl⟩, rfl, cut⟩
    · exact .inl cut
    · exact .inr ⟨reverse, cut⟩

end

section
variable (s : State)

/-- The flags of the closing hour once its open gaps are booked. -/
theorem bookOpenGaps_eq : bookOpenGaps s = gapsBooked true s := rfl

theorem bookOpenGaps_flags :
    (bookOpenGaps s).mtu.flags = estimatedWhere (decide (∃ k, (pointOf s k).gap ≠ none)) s.mtu.flags := by
  obtain ⟨set, -⟩ := receivingFlags_gapsBooked s true
  rw [bookOpenGaps_eq]
  exact set

theorem bookOpenGaps_latchedCv : (bookOpenGaps s).mtu.latchedCv = s.mtu.latchedCv := by
  obtain ⟨_, _, _, h⟩ := bookOpenGaps_mtu s
  rw [h]

/-- What the hour's record takes of the flags: CLAMPED by the energies, ESTIMATED by the open gaps, the others as they were. -/
theorem hourMetering_booked_flags :
    ((hourMetering (bookOpenGaps s).mtu).flags.estimated = true ↔ s.mtu.flags.estimated = true ∨ ∃ k, (pointOf s k).gap ≠ none)
      ∧ (hourMetering (bookOpenGaps s).mtu).flags.cvHeld = s.mtu.flags.cvHeld
      ∧ (hourMetering (bookOpenGaps s).mtu).flags.rebased = s.mtu.flags.rebased
      ∧ (hourMetering (bookOpenGaps s).mtu).flags.restart = s.mtu.flags.restart := by
  simp only [hourMetering, bookOpenGaps_flags, estimatedWhere, Bool.or_eq_true, decide_eq_true_eq, and_self]

end

end Sys2Proof.Machine

/-! SUPPORT. The hours that a report reaches by its re-firm, in two states that offer the same capacities, and the rows of a VACANT slot
(R60, R70, R84, R112, R134, R138, R166, R170). -/

namespace Sys2Proof.Machine

open Sys2Proof.Safety

/-! ### The hours after a report (R70, R170) -/

/-- A report that raises the derate class re-firms the hours that a re-firm reaches, to the capacities under the new class. -/
theorem hourOf_report_eq (n : Fin 56) (active : Bool) (s : State) (q : Fin 72) :
    hourOf (report n active s) q =
      if s.cdt.derateClass < (s.cdt.follow n active).derateClass ∧ refirmReaches s q = true then
        refirmCell (injectionCapacity (s.withCdt (s.cdt.follow n active))) (withdrawalCapacity (s.withCdt (s.cdt.follow n active)))
          (hourOf s q)
      else hourOf s q := by
  by_cases rises : s.cdt.derateClass < (s.cdt.follow n active).derateClass
  · have refirmed : report n active s = refirm (s.withCdt (s.cdt.follow n active)) := if_pos rises
    rw [refirmed, hourOf_refirm]
    exact if_congr (and_iff_right rises).symm rfl rfl
  · have followed : report n active s = s.withCdt (s.cdt.follow n active) := if_neg rises
    rw [followed, if_neg fun both => rises both.1]
    rfl

/-! ### Capacities that agree (R166) -/

/-- Two states in which every contribution to the hour's capacities is the same: the gas in a cavern, what a point has metered and what a
train has counted are no part of one. -/
structure CapacityAlike (s t : State) : Prop where
  cdt : t.cdt = s.cdt
  fsu : t.fsu = s.fsu
  cpd : t.cpd = s.cpd
  site : t.dir.site = s.dir.site
  banks : t.dsq.banks = s.dsq.banks
  slot : ∀ k, (pointOf t k).slot = (pointOf s k).slot
  capacity : ∀ k, (pointOf t k).capacity = (pointOf s k).capacity
  caverns : ∀ k, { cavernOf t k with gas := (cavernOf s k).gas } = cavernOf s k
  trains : ∀ d, { trainOf t d with offSpecTenths := (trainOf s d).offSpecTenths } = trainOf s d

section
variable {s t : State} (h : CapacityAlike s t)
include h

theorem CapacityAlike.withCdt (c : Cdt) : CapacityAlike (s.withCdt c) (t.withCdt c) :=
  ⟨rfl, h.fsu, h.cpd, h.site, h.banks, h.slot, h.capacity, h.caverns, h.trains⟩

theorem CapacityAlike.trans {u : State} (h' : CapacityAlike t u) : CapacityAlike s u where
  cdt := h'.cdt.trans h.cdt
  fsu := h'.fsu.trans h.fsu
  cpd := h'.cpd.trans h.cpd
  site := h'.site.trans h.site
  banks := h'.banks.trans h.banks
  slot k := (h'.slot k).trans (h.slot k)
  capacity k := (h'.capacity k).trans (h.capacity k)
  caverns k := by rw [← h.caverns k, ← h'.caverns k]
  trains d := by rw [← h.trains d, ← h'.trains d]

theorem CapacityAlike.slotOf (n : Fin 16) : slotOf t n = Machine.slotOf s n := slotOf_congr h.fsu n

theorem CapacityAlike.cavernPressure (k : Fin 4) : cavernPressure t k = Machine.cavernPressure s k :=
  cavernPressure_congr (h.slot _) fun m => by rw [h.slotOf]

theorem CapacityAlike.compressors : compressorContribution t = compressorContribution s := by
  simp only [compressorContribution, unitOf, h.cpd, h.site]

theorem CapacityAlike.boundary : boundaryCapacity t = boundaryCapacity s := by
  simp only [boundaryCapacity, pointCapacity, h.slot, h.capacity, h.slotOf]

theorem CapacityAlike.cavernsIn : cavernInjectionSum t = cavernInjectionSum s := by
  have cavern : cavernInjection t = cavernInjection s := by
    funext k
    rw [cavernInjection, cavernInjection, h.cavernPressure, ← h.caverns k]
  rw [cavernInjectionSum, cavern, cavernInjectionSum]

theorem CapacityAlike.cavernsOut : cavernWithdrawalSum t = cavernWithdrawalSum s := by
  have cavern : cavernWithdrawal t = cavernWithdrawal s := by
    funext k
    rw [cavernWithdrawal, cavernWithdrawal, h.cavernPressure, ← h.caverns k]
  rw [cavernWithdrawalSum, cavern, cavernWithdrawalSum]

theorem CapacityAlike.dryers : dryerContribution t = dryerContribution s := by
  have train : trainContribution t = trainContribution s := by
    funext d
    rw [trainContribution, trainContribution, trainAvailable, trainAvailable, selectedBank, selectedBank, h.banks, h.site, ← h.trains d]
  rw [dryerContribution, train, dryerContribution]

theorem CapacityAlike.injection : injectionCapacity t = injectionCapacity s := by
  rw [injectionCapacity, h.compressors, h.cavernsIn, h.boundary, h.site, h.cdt, injectionCapacity]

theorem CapacityAlike.withdrawal : withdrawalCapacity t = withdrawalCapacity s := by
  rw [withdrawalCapacity, h.dryers, h.cavernsOut, h.boundary, h.site, h.cdt, withdrawalCapacity]

/-- A report leaves an hour that stands the same in both states the same, whether it raises a re-firm or not. -/
theorem CapacityAlike.hourOf_report (clock : t.clock = s.clock) {q : Fin 72} (hour : hourOf t q = hourOf s q) (n : Fin 56) (active : Bool) :
    hourOf (report n active t) q = hourOf (report n active s) q := by
  have followed := h.withCdt (s.cdt.follow n active)
  have reached : refirmReaches t q = refirmReaches s q := by
    rw [refirmReaches, firmedUnclosed, notStarted, hour, openPosition_congr clock, refirmReaches, firmedUnclosed, notStarted]
  rw [hourOf_report_eq, hourOf_report_eq, reached, hour, h.cdt, followed.injection, followed.withdrawal]

end

/-! ### The rows of a VACANT slot (R138) -/

/-- A quantity of 0 is not lowered. -/
theorem lowered_zero (x : Int) : lowered 0 x = false := by
  rw [lowered]
  exact decide_eq_false (Nat.not_lt_zero _)

/-- A slot is VACANT, and its entries are clear. -/
def RowClear (a : Fin 16) (s : State) : Prop := (accountOf s a).state = .vacant ∧ ∀ q, entryOf s q a = HourEntry.clear

section
variable {a : Fin 16} {s t : State} (h : RowClear a s)
include h

theorem RowClear.of_eq (act : t.act = s.act) (nfu : t.nfu.hours = s.nfu.hours) : RowClear a t := by
  obtain ⟨vacant, clear⟩ := h
  refine ⟨by rw [accountOf, act, ← accountOf, vacant], fun q => ?_⟩
  rw [entryOf, hourOf, nfu, ← hourOf, ← entryOf, clear]

theorem RowClear.of_changes {l : List Block} (changes : ChangesOnly l s t) (act : Block.act ∉ l) (nfu : Block.nfu ∉ l) : RowClear a t :=
  h.of_eq (changes .act act).symm (congrArg Nfu.hours (changes .nfu nfu).symm)

theorem RowClear.refirm : RowClear a (refirm s) := by
  obtain ⟨vacant, clear⟩ := h
  refine ⟨by rw [accountOf, ← refirm_changes s .act (by decide), ← accountOf, vacant], fun q => ?_⟩
  have none : (nth (hourOf s q).entries a).confirmed.getD 0 = 0 := by
    have entry : nth (hourOf s q).entries a = HourEntry.clear := clear q
    rw [entry]
    rfl
  have before : nth (each (hourOf s q).entries fun e => e.confirmed.getD 0) a = 0 := (nth_each _ _ a).trans none
  rw [entryOf, hourOf_refirm]
  split
  · simp only [refirmCell, nth_tab]
    rw [before, lowered_zero, if_neg Bool.false_ne_true]
    exact clear q
  · exact clear q

theorem RowClear.report (n : Fin 56) (active : Bool) : RowClear a (report n active s) := by
  have followed : RowClear a (s.withCdt (s.cdt.follow n active)) := h.of_eq rfl rfl
  unfold Machine.report
  dsimp only
  split
  · exact followed.refirm
  · exact followed

/-- A firm writes the entries of the slots that hold an account. -/
theorem RowClear.firm (p : Fin 72) : RowClear a (firm p s) := by
  obtain ⟨vacant, clear⟩ := h
  unfold Machine.firm
  split
  · exact ⟨vacant, clear⟩
  · refine ⟨vacant, fun q => ?_⟩
    have free : (accountOf s a).held = false := by rw [Account.held, vacant]; rfl
    rw [entryOf, hourOf_setEventCom]
    by_cases here : q = p
    · subst here
      rw [hourOf_alterHour_same]
      simp only [firmedCell, nth_tab, free, if_neg Bool.false_ne_true]
      exact clear q
    · rw [hourOf_alterHour_other _ _ here]
      exact clear q

theorem RowClear.firmRun (start count : Nat) : RowClear a (firmRun start count s) := by
  induction count generalizing start s with
  | zero => exact h
  | succ count ih =>
    simp only [Machine.firmRun]
    split
    · exact ih (h.firm _) _
    · exact h

theorem RowClear.latchCv : RowClear a (latchCv s) := by
  rcases latchCv_cases s with ⟨-, latched⟩ | ⟨b, -, -, latched⟩ | ⟨b, -, -, latched⟩
  all_goals
    rw [latched]
    apply RowClear.report
    exact h.of_eq rfl rfl

theorem RowClear.changeLead (p : Fin 72) : RowClear a (changeLead p s) := by
  unfold Machine.changeLead
  split
  · exact h
  · apply RowClear.firmRun
    exact h.of_eq rfl rfl

theorem RowClear.changeDirection (new : SiteDirection) : RowClear a (changeDirection new s) := by
  have act : (turned new s).act = s.act := by
    have changed := changeDirection_changes new s .act (by decide)
    rw [changeDirection_eq] at changed
    exact (report_changes _ _ _ .act (by decide)).trans changed.symm
  exact (h.of_eq act (by rw [turned_nfu])).report _ _

theorem RowClear.testCompletion : RowClear a (testCompletion s) := by
  unfold Machine.testCompletion
  split
  · split
    · exact h.changeDirection _
    · exact h
  · exact h

theorem RowClear.unitsReported (before : State) : RowClear a (unitsReported before s) := by
  unfold Machine.unitsReported
  split
  · exact h
  · exact h.testCompletion

theorem RowClear.dutyEvaluation : RowClear a (dutyEvaluation s) :=
  (h.of_changes (evaluate_changes s) (by decide) (by decide)).unitsReported s

theorem RowClear.takeTarget (p : Fin 72) : RowClear a (takeTarget p s) := by
  unfold Machine.takeTarget
  dsimp only
  split
  · exact h
  · exact (h.changeDirection _).unitsReported s

theorem RowClear.startHour (p : Fin 72) : RowClear a (startHour p s) :=
  (((h.latchCv.changeLead p).takeTarget p).dutyEvaluation).of_eq rfl rfl

theorem RowClear.rolloverAfter (i : HourId) : RowClear a (rolloverAfter i s) := by
  obtain ⟨vacant, clear⟩ := h
  refine ⟨by rw [accountOf, ← rolloverAfter_changes i s .act (by decide), ← accountOf, vacant], fun q => ?_⟩
  have hour := rowBefore_rolloverAfter i s q.val
  rw [rowBefore_of_lt q.isLt] at hour
  rw [entryOf, hour]
  by_cases inside : q.val + dayShift i < 72
  · rw [rowBefore_of_lt inside]
    exact clear _
  · rw [rowBefore_of_le (not_lt.mp inside)]
    exact nth_fill _ _

end

end Sys2Proof.Machine

/-! SUPPORT. What the close of the open hour posts, reports, vacates and records (R145, R175 to R187), and the statement on it. -/

namespace Sys2Proof.Machine

open Sys2Proof.Safety

/-! ### The accounts after a close (R145, R182) -/

section
variable (h : HourId) (g : Gathered) (s : State)

theorem accountOf_closePosted (a : Fin 16) :
    accountOf (closePosted h g s) a =
      if (accountOf s a).held then
        { accountOf s a with inventory := (accountOf s a).inventory + (nth (closeAllocations h g s) a - nth (closeFuel h g s) a) }
      else accountOf s a := by
  have act : (closePosted h g s).act = (hourPosted h g s).act := (report_changes _ _ _ .act (by decide)).symm
  rw [accountOf, act]
  exact nth_tab _ a

theorem accountOf_finishClose (r : HourRecord) (x : State) (a : Fin 16) :
    accountOf (finishClose h (keepRecord r x)) a = if vacates x a then Account.vacant else accountOf x a :=
  accountOf_vacancy (setEventOps evHourClosedOps (setEventCom evHourClosedCom (keepRecord r x))) a

theorem entryOf_finishClose_vacated (r : HourRecord) (x : State) (q : Fin 72) (a : Fin 16) :
    entryOf (finishClose h (keepRecord r x)) q a = if vacates x a then HourEntry.clear else entryOf x q a :=
  entryOf_vacancy (setEventOps evHourClosedOps (setEventCom evHourClosedCom (keepRecord r x))) q a

theorem accountOf_completeClose (a : Fin 16) :
    accountOf (completeClose h g s) a =
      if vacates (closePosted h g s) a then Account.vacant else accountOf (closePosted h g s) a := by
  rw [completeClose_eq, accountOf_finishClose]

/-- A slot that the vacancy test empties has no entries left. -/
theorem rowClear_completeClose {a : Fin 16} (ha : vacates (closePosted h g s) a = true) : RowClear a (completeClose h g s) := by
  refine ⟨by rw [accountOf_completeClose, if_pos ha]; rfl, fun q => ?_⟩
  rw [completeClose_eq, entryOf_finishClose_vacated, if_pos ha]

theorem closed_closePosted (q : Fin 72) :
    (hourOf (closePosted h g s) q).site.closed = (decide (q = todayPosition h.hour) || (hourOf s q).site.closed) := by
  rw [(closePosted_refirmed h g s).closed]
  by_cases here : q = todayPosition h.hour
  · subst here
    rw [hourOf_hourPosted_same, decide_eq_true rfl]
    rfl
  · rw [hourOf_hourPosted_other h g s here, decide_eq_false here, Bool.false_or]

/-- The vacancy test of a close: a CLOSING slot, no inventory once posted, and no confirmation left in another hour not closed. -/
theorem vacates_closePosted (a : Fin 16) :
    vacates (closePosted h g s) a = true ↔
      (accountOf s a).state = .closing
        ∧ (accountOf s a).inventory + (nth (closeAllocations h g s) a - nth (closeFuel h g s) a) = 0
        ∧ ∀ q, q ≠ todayPosition h.hour → (hourOf s q).site.closed = true ∨ confirmedOf (closePosted h g s) q a = 0 := by
  simp only [vacates, Bool.and_eq_true, allFin_eq_true, Bool.or_eq_true, decide_eq_true_eq, closed_closePosted,
    accountOf_closePosted_state, and_assoc]
  refine and_congr_right fun closing => and_congr ?_ (forall_congr' fun q => ?_)
  · have held : (accountOf s a).held = true := by rw [Account.held, closing]; rfl
    rw [accountOf_closePosted, if_pos held]
  · rw [or_assoc, or_iff_not_imp_left]

theorem suspense_completeClose :
    (completeClose h g s).act.suspense
      = wrapTotal (s.act.suspense + suspenseChange g.metering (closeAllocations h g s) (closeFuel h g s)) := by
  have finished (r : HourRecord) (x : State) : (finishClose h (keepRecord r x)).act.suspense = x.act.suspense := rfl
  have posted : (closePosted h g s).act = (hourPosted h g s).act := (report_changes _ _ _ .act (by decide)).symm
  rw [completeClose_eq, finished, posted]
  rfl

/-! ### The caverns and condition 52 (R183, R184) -/

theorem conditionActive_finishClose (r : HourRecord) (x : State) (n : Fin 56) :
    conditionActive (finishClose h (keepRecord r x)) n = conditionActive x n := rfl

theorem meterDiff_completeClose : conditionActive (completeClose h g s) condMeterDiff = differs s g.metering := by
  rw [completeClose_eq, conditionActive_finishClose, closePosted_eq, conditionActive_report, if_pos rfl]

theorem cavernOf_hourPosted (k : Fin 4) :
    cavernOf (hourPosted h g s) k
      = { cavernOf s k with gas := addGas (cavernOf s k).gas (nth (cavernNets g.metering) k) } := nth_tab _ k

theorem cavernOf_completeClose (k : Fin 4) :
    cavernOf (completeClose h g s) k
      = { cavernOf s k with gas := addGas (cavernOf s k).gas (nth (cavernNets g.metering) k) } := by
  have finished : (completeClose h g s).dir = (closePosted h g s).dir :=
    (finishClose_tested_changes (closeRecorded h g s) .dir (by decide)).symm
  have posted : (closePosted h g s).dir = (hourPosted h g s).dir := (report_changes _ _ _ .dir (by decide)).symm
  rw [cavernOf, finished, posted, ← cavernOf, cavernOf_hourPosted]

end

/-- Gas-in-place stays within its ends (R85). -/
theorem addGas_eq (gas : Nat) (net : Int) : (addGas gas net : Int) = max 0 (min 4000000000 (gas + net)) := by
  unfold addGas Config.maxInventory
  omega

/-- The difference lies above the tolerance (R184). -/
theorem differs_eq (s : State) (m : HourMetering) :
    differs s m = decide ((s.dir.site.tolerance : Int) < |measuredNet m - energyFuel m - sumInt (nth (cavernNets m))|) := by
  rw [differs, reconciliation, Int.abs_eq_natAbs]
  congr 1
  exact propext (by omega)

/-! ### What follows the close in its event -/

theorem cavernOf_startHour (p : Fin 72) (s : State) (k : Fin 4) : cavernOf (startHour p s) k = cavernOf s k := by
  have prepared : (hourPrepared p s).dir = s.dir := (hourPrepared_changes p s .dir (by decide)).symm
  refine cavernOf_congr ?_ k
  show (hourTurn p (hourPrepared p s)).dir.caverns = s.dir.caverns
  rw [(hourTurn_turned p (hourPrepared p s)).dir, prepared]

theorem cavernOf_rolloverAfter (h : HourId) (s : State) (k : Fin 4) : cavernOf (rolloverAfter h s) k = cavernOf s k :=
  cavernOf_congr (congrArg Dir.caverns (rolloverAfter_changes h s .dir (by decide)).symm) k

theorem conditionActive_rolloverAfter (h : HourId) (s : State) (n : Fin 56) :
    conditionActive (rolloverAfter h s) n = conditionActive s n := by
  unfold rolloverAfter
  split
  · rfl
  · rfl

/-- Where the closed hour stands once the rows have rolled over after an hour 23 (R155). -/
theorem hourOf_rolloverAfter {h : HourId} {p after : Fin 72} (hafter : after.val + dayShift h = p.val) (s : State) :
    hourOf (rolloverAfter h s) after = hourOf s p := by
  have row := rowBefore_rolloverAfter h s after.val
  rwa [rowBefore_of_lt after.isLt, hafter, rowBefore_of_lt p.isLt] at row

/-! ### The close of the open hour (R175) -/

/-- The metering of the closing hour. -/
abbrev boundaryMetering (s : State) : HourMetering := hourMetering (bookOpenGaps s).mtu

/-- The allocations of the closing hour, from the accounts as they stand before its close. -/
abbrev boundaryAllocations (h : HourId) (s : State) : Vector Int 16 :=
  allocate s (closingQuantity s (todayPosition h.hour)) (measuredNet (boundaryMetering s))

/-- The fuel of the closing hour. -/
abbrev boundaryFuel (h : HourId) (s : State) : Vector Int 16 :=
  shareFuel s (closingQuantity s (todayPosition h.hour)) (boundaryAllocations h s) (energyFuel (boundaryMetering s))

/-- The close of the open hour, once it has gathered. -/
abbrev boundaryClosed (h : HourId) (s : State) : State := completeClose h (gather (bookOpenGaps s)) (gathered s)

/-- The same before its completion. -/
abbrev boundaryPosted (h : HourId) (s : State) : State := closePosted h (gather (bookOpenGaps s)) (gathered s)

/-- The record of the closing hour. -/
abbrev boundaryRecord (h : HourId) (s : State) : HourRecord := closingRecord h (gather (bookOpenGaps s)) (gathered s)

section
variable (h : HourId) (s : State)

theorem gathered_act : (gathered s).act = s.act := (gathered_changes s .act (by decide)).symm

theorem gathered_nfu : (gathered s).nfu = s.nfu := (gathered_changes s .nfu (by decide)).symm

theorem gathered_cau : (gathered s).cau = s.cau := (gathered_changes s .cau (by decide)).symm

theorem gathered_dir : (gathered s).dir = s.dir := (gathered_changes s .dir (by decide)).symm

theorem accountOf_gathered : accountOf (gathered s) = accountOf s := accountOf_of_act (gathered_act s)

theorem hourOf_gathered : hourOf (gathered s) = hourOf s := hourOf_of_nfu (gathered_nfu s)

theorem closeQuantities_gathered : closeQuantities h (gathered s) = closingQuantity s (todayPosition h.hour) := by
  rw [closeQuantities, closingConfirmed_congr (gathered_act s) (gathered_nfu s)]

theorem closeAllocations_gathered : closeAllocations h (gather (bookOpenGaps s)) (gathered s) = boundaryAllocations h s := by
  rw [closeAllocations, closeQuantities_gathered,
    allocate_congr (gathered_act s) (gathered_nfu s) (congrArg Cau.mode (gathered_cau s)), gather_metering]

theorem closeFuel_gathered : closeFuel h (gather (bookOpenGaps s)) (gathered s) = boundaryFuel h s := by
  rw [closeFuel, closeQuantities_gathered, closeAllocations_gathered, shareFuel_congr (gathered_act s) (gathered_nfu s), gather_metering]

theorem differs_gathered (m : HourMetering) : differs (gathered s) m = differs s m := by
  rw [differs, gathered_dir, differs]

/-- The gathering leaves every contribution to the hour's capacities as it was. -/
theorem gathered_capacityAlike : CapacityAlike s (gathered s) := by
  have booked : (bookOpenGaps s).dsq = s.dsq := (bookOpenGaps_changes s .dsq (by decide)).symm
  refine ⟨(gathered_changes s .cdt (by decide)).symm, (gathered_changes s .fsu (by decide)).symm,
    (gathered_changes s .cpd (by decide)).symm, congrArg Dir.site (gathered_dir s), ?_, fun k => ?_, fun k => ?_, fun k => ?_, fun d => ?_⟩
  · rw [clearGathered_banks, booked]
  · rw [pointOf_clearGathered, bookOpenGaps_eq, pointOf_gapsBooked]
    exact slot_bookGap k s true
  · rw [pointOf_clearGathered, bookOpenGaps_eq, pointOf_gapsBooked]
    exact capacity_bookGap k s true
  · rw [cavernOf_congr (congrArg Dir.caverns (gathered_dir s))]
  · rw [trainOf_clearGathered, trainOf, booked, trainOf]

/-- The posting offers the same capacities to a re-firm as the state before it. -/
theorem hourPosted_capacityAlike (g : Gathered) : CapacityAlike s (hourPosted h g s) :=
  ⟨rfl, rfl, rfl, rfl, rfl, fun _ => rfl, fun _ => rfl, fun k => by rw [cavernOf_hourPosted], fun _ => rfl⟩

theorem hourPosted_clock (g : Gathered) : (hourPosted h g s).clock = s.clock := rfl

/-- The confirmations of the other hours after the report of condition 52 are those that the report leaves without the close. -/
theorem confirmedOf_boundaryPosted {q : Fin 72} (hq : q ≠ todayPosition h.hour) (a : Fin 16) :
    confirmedOf (boundaryPosted h s) q a = confirmedOf (report condMeterDiff (differs s (boundaryMetering s)) s) q a := by
  have alike := (gathered_capacityAlike s).trans (hourPosted_capacityAlike h (gathered s) (gather (bookOpenGaps s)))
  have clock := (hourPosted_clock h (gathered s) (gather (bookOpenGaps s))).trans (clock_of_changes (gathered_changes s) (by decide))
  have hour : hourOf (hourPosted h (gather (bookOpenGaps s)) (gathered s)) q = hourOf s q := by
    rw [hourOf_hourPosted_other _ _ _ hq, hourOf_gathered]
  rw [confirmedOf, entryOf, boundaryPosted, closePosted_eq, differs_gathered, gather_metering, alike.hourOf_report clock hour, ← entryOf,
    ← confirmedOf]

/-- The accounts of the closing hour posted. -/
theorem accountOf_boundaryPosted (a : Fin 16) :
    accountOf (boundaryPosted h s) a =
      if (accountOf s a).held then
        { accountOf s a with inventory := (accountOf s a).inventory + (nth (boundaryAllocations h s) a - nth (boundaryFuel h s) a) }
      else accountOf s a := by
  rw [boundaryPosted, accountOf_closePosted, accountOf_gathered, closeAllocations_gathered, closeFuel_gathered]

theorem vacates_boundaryPosted (a : Fin 16) :
    vacates (boundaryPosted h s) a = true ↔
      (accountOf s a).state = .closing
        ∧ (accountOf s a).inventory + (nth (boundaryAllocations h s) a - nth (boundaryFuel h s) a) = 0
        ∧ ∀ q, q ≠ todayPosition h.hour → (hourOf s q).site.closed = true
            ∨ confirmedOf (report condMeterDiff (differs s (boundaryMetering s)) s) q a = 0 := by
  rw [boundaryPosted, vacates_closePosted, accountOf_gathered, hourOf_gathered, closeAllocations_gathered, closeFuel_gathered]
  refine and_congr_right fun _ => and_congr_right fun _ => forall_congr' fun q => imp_congr_right fun hq => ?_
  rw [confirmedOf_boundaryPosted h s hq]

/-- The entries of the closed hour. -/
theorem entryOf_boundaryClosed {a : Fin 16} (ha : (accountOf (boundaryClosed h s) a).held = true) :
    (entryOf (boundaryClosed h s) (todayPosition h.hour) a).allocated = some (nth (boundaryAllocations h s) a)
      ∧ (entryOf (boundaryClosed h s) (todayPosition h.hour) a).fuel = some (nth (boundaryFuel h s) a) := by
  have state := state_of_completeClose_held h _ (gathered s) ha
  have held : (accountOf (gathered s) a).held = true := by rwa [Account.held, ← state]
  rw [entryOf_completeClose h _ _ state, entryOf, hourOf_closePosted_same]
  simp only [postHour, nth_tab, held, if_true, closeAllocations_gathered, closeFuel_gathered, and_self]

end

/-! ### The part after the boundary -/

section
variable {h : HourId} {s : State} (ho : openHour s = some h)
include ho

theorem accountOf_hourBoundaryEvent (a : Fin 16) : accountOf (hourBoundaryEvent s) a = accountOf (boundaryClosed h s) a := by
  rw [accountOf, hourBoundaryEvent_eq ho, startHour_act, closedAndRolled_act, accountOf]

theorem account_stands {a : Fin 16} (ha : vacates (boundaryPosted h s) a = false) :
    accountOf (hourBoundaryEvent s) a = accountOf (boundaryPosted h s) a := by
  rw [accountOf_hourBoundaryEvent ho, boundaryClosed, accountOf_completeClose, ha, if_neg Bool.false_ne_true]

/-- A slot that is not CLOSING passes no vacancy test. -/
theorem account_posted {a : Fin 16} (ha : (accountOf s a).state ≠ .closing) :
    accountOf (hourBoundaryEvent s) a = accountOf (boundaryPosted h s) a :=
  account_stands ho (Bool.eq_false_iff.mpr fun passes => ha ((vacates_boundaryPosted h s a).mp passes).1)

/-- A slot that passes the vacancy test is VACANT after the event, and its entries are clear. -/
theorem account_vacated {a : Fin 16} (ha : vacates (boundaryPosted h s) a = true) :
    accountOf (hourBoundaryEvent s) a = Account.vacant ∧ ∀ q, entryOf (hourBoundaryEvent s) q a = HourEntry.clear := by
  have clear := ((rowClear_completeClose h _ _ ha).rolloverAfter h).startHour (todayPosition h.next.hour)
  rw [accountOf_hourBoundaryEvent ho, boundaryClosed, accountOf_completeClose, if_pos ha, hourBoundaryEvent_eq ho]
  exact ⟨rfl, clear.2⟩

theorem account_vacant {a : Fin 16} (ha : (accountOf s a).state = .vacant) : accountOf (hourBoundaryEvent s) a = accountOf s a := by
  have free : (accountOf s a).held = false := by rw [Account.held, ha]; rfl
  rw [account_posted ho (by rw [ha]; nofun), accountOf_boundaryPosted, free, if_neg Bool.false_ne_true]

theorem account_active {a : Fin 16} (ha : (accountOf s a).state = .active) :
    accountOf (hourBoundaryEvent s) a
      = { accountOf s a with inventory := (accountOf s a).inventory + (nth (boundaryAllocations h s) a - nth (boundaryFuel h s) a) } := by
  have held : (accountOf s a).held = true := by rw [Account.held, ha]; rfl
  rw [account_posted ho (by rw [ha]; nofun), accountOf_boundaryPosted, if_pos held]

/-- A CLOSING slot that keeps inventory, or a confirmation in an hour not closed, stays (R145). -/
theorem account_closing {a : Fin 16} (ha : (accountOf s a).state = .closing)
    (stays : (accountOf s a).inventory + (nth (boundaryAllocations h s) a - nth (boundaryFuel h s) a) ≠ 0
      ∨ ∃ q, q ≠ todayPosition h.hour ∧ (hourOf s q).site.closed = false
          ∧ confirmedOf (report condMeterDiff (differs s (boundaryMetering s)) s) q a ≠ 0) :
    accountOf (hourBoundaryEvent s) a
      = { accountOf s a with inventory := (accountOf s a).inventory + (nth (boundaryAllocations h s) a - nth (boundaryFuel h s) a) } := by
  have held : (accountOf s a).held = true := by rw [Account.held, ha]; rfl
  have fails : vacates (boundaryPosted h s) a = false := by
    refine Bool.eq_false_iff.mpr fun passes => ?_
    obtain ⟨-, empty, unconfirmed⟩ := (vacates_boundaryPosted h s a).mp passes
    rcases stays with kept | ⟨q, hq, unclosed, confirmed⟩
    · exact kept empty
    · rcases unconfirmed q hq with closed | zero
      · rw [unclosed] at closed
        cases closed
      · exact confirmed zero
  rw [account_stands ho fails, accountOf_boundaryPosted, if_pos held]

theorem suspense_hourBoundaryEvent :
    (hourBoundaryEvent s).act.suspense
      = wrapTotal (s.act.suspense + suspenseChange (boundaryMetering s) (boundaryAllocations h s) (boundaryFuel h s)) := by
  rw [hourBoundaryEvent_eq ho, startHour_act, closedAndRolled_act, suspense_completeClose, gathered_act, closeAllocations_gathered,
    closeFuel_gathered, gather_metering]

theorem cavernOf_hourBoundaryEvent (k : Fin 4) :
    ((cavernOf (hourBoundaryEvent s) k).gas : Int)
      = max 0 (min 4000000000 ((cavernOf s k).gas + nth (cavernNets (boundaryMetering s)) k)) := by
  rw [hourBoundaryEvent_eq ho, cavernOf_startHour, cavernOf_rolloverAfter, cavernOf_completeClose, addGas_eq,
    cavernOf_congr (congrArg Dir.caverns (gathered_dir s)), gather_metering]

theorem meterDiff_hourBoundaryEvent :
    conditionActive (hourBoundaryEvent s) condMeterDiff = differs s (boundaryMetering s) := by
  rw [hourBoundaryEvent_eq ho, startHour_conditions _ _ (by decide) (by decide), conditionActive_rolloverAfter, meterDiff_completeClose,
    differs_gathered, gather_metering]

section
variable {after : Fin 72} (hafter : after.val + dayShift h = (todayPosition h.hour).val)
include hafter

/-- The closed hour, where the rollover has left it. -/
theorem closed_hourBoundaryEvent : (hourOf (hourBoundaryEvent s) after).site.closed = true := by
  rw [hourBoundaryEvent_eq ho, (startHour_kept _ _).closed, hourOf_rolloverAfter hafter, completeClose_site, closed_closePosted,
    decide_eq_true rfl, Bool.true_or]

theorem entries_hourBoundaryEvent {a : Fin 16} (ha : (accountOf (hourBoundaryEvent s) a).held = true) :
    (entryOf (hourBoundaryEvent s) after a).allocated = some (nth (boundaryAllocations h s) a)
      ∧ (entryOf (hourBoundaryEvent s) after a).fuel = some (nth (boundaryFuel h s) a) := by
  rw [accountOf_hourBoundaryEvent ho] at ha
  have kept := startHour_kept (todayPosition h.next.hour) (hourClosed h s)
  have moved : entryOf (hourClosed h s) after a = entryOf (boundaryClosed h s) (todayPosition h.hour) a := by
    rw [entryOf, hourClosed, closedAndRolled, hourOf_rolloverAfter hafter, entryOf]
  rw [hourBoundaryEvent_eq ho, kept.allocated, kept.fuel, moved]
  exact entryOf_boundaryClosed h s ha

end

/-- The off-spec tenths of the closed hour are gone (R133). -/
theorem offSpecTenths_hourBoundaryEvent (d : Fin 2) : (trainOf (hourBoundaryEvent s) d).offSpecTenths = 0 := by
  rw [hourBoundaryEvent_eq ho, startHour_offSpecTenths, trainOf_hourClosed]

end

/-! ### The record (R185) -/

section
variable (h : HourId) (s : State)

theorem boundaryRecord_postings :
    (boundaryRecord h s).net = sumInt (nth (closingQuantity s (todayPosition h.hour)))
      ∧ (boundaryRecord h s).suspensePosting
          = measuredNet (boundaryMetering s) - energyFuel (boundaryMetering s)
            - sumInt (fun a : Fin 16 => nth (boundaryAllocations h s) a - nth (boundaryFuel h s) a)
      ∧ (boundaryRecord h s).fuelToSuspense = energyFuel (boundaryMetering s) - sumInt (nth (boundaryFuel h s)) := by
  rw [boundaryRecord, closingRecord, closeAllocations_gathered, closeFuel_gathered, closeQuantities_gathered]
  exact ⟨rfl, rfl, rfl⟩

/-- What the record takes of the hour's own marks and of the off-spec seconds gathered. -/
theorem closingRecord_marks (g : Gathered) :
    (closingRecord h g s).curtailed = (hourOf s (todayPosition h.hour)).site.curtailed
      ∧ (closingRecord h g s).refirmed = (hourOf s (todayPosition h.hour)).site.refirmed
      ∧ (closingRecord h g s).offSpecSeconds = g.offSpecSeconds := ⟨rfl, rfl, rfl⟩

theorem closingRecord_offSpec (g : Gathered) :
    (closingRecord h g s).offSpec = true ↔ ∃ d, 0 < nth (closingRecord h g s).offSpecSeconds d := by
  simp only [hourRecord, someFin_eq_true, decide_eq_true_eq]

theorem boundaryRecord_marks :
    (boundaryRecord h s).curtailed = (hourOf s (todayPosition h.hour)).site.curtailed
      ∧ (boundaryRecord h s).refirmed = (hourOf s (todayPosition h.hour)).site.refirmed
      ∧ (boundaryRecord h s).trimmed = s.clock.trimmed ∧ (boundaryRecord h s).cv = s.mtu.latchedCv
      ∧ (boundaryRecord h s).mode = s.cau.mode := by
  obtain ⟨-, -, trimmed, cv, mode⟩ := closingRecord_gather h (bookOpenGaps s) (gathered s)
  obtain ⟨curtailed, refirmed, -⟩ := closingRecord_marks h (gathered s) (gather (bookOpenGaps s))
  rw [hourOf_gathered] at curtailed refirmed
  rw [clock_of_changes (bookOpenGaps_changes s) (by decide)] at trimmed
  exact ⟨curtailed, refirmed, trimmed, cv.trans (bookOpenGaps_latchedCv s), mode.trans (congrArg Cau.mode (gathered_cau s))⟩

theorem gather_offSpecSeconds (d : Fin 2) :
    nth (gather s).offSpecSeconds d = min 3600 ((trainOf s d).offSpecTenths / 10) := nth_tab _ d

theorem boundaryRecord_offSpecSeconds (d : Fin 2) :
    nth (boundaryRecord h s).offSpecSeconds d = min 3600 ((trainOf s d).offSpecTenths / 10) := by
  obtain ⟨-, -, seconds⟩ := closingRecord_marks h (gathered s) (gather (bookOpenGaps s))
  have booked : trainOf (bookOpenGaps s) d = trainOf s d := by rw [trainOf, ← bookOpenGaps_changes s .dsq (by decide), trainOf]
  rw [boundaryRecord, seconds, gather_offSpecSeconds, booked]

theorem boundaryMetering_clamped :
    (boundaryMetering s).flags.clamped = true ↔
      s.mtu.flags.clamped = true
        ∨ ∃ (k : Fin 7) (volume raw : Nat),
            (volume = (pointOf (bookOpenGaps s) k).forward.hourVolume
                ∨ (hasReverse k = true ∧ volume = (pointOf (bookOpenGaps s) k).reverse.hourVolume))
              ∧ roundsTo (volume * s.mtu.latchedCv) 1000000000 raw ∧ 100000000 < raw := by
  rw [hourMetering_clamped, bookOpenGaps_flags, bookOpenGaps_latchedCv, estimatedWhere]

end

/-- Settles O17: the quantities, what is posted from them, the vacancy test after the report of condition 52, and the record. -/
theorem closeAllocatesAndPosts : Obligations.CloseAllocatesAndPosts := by
  rintro s l _ _ after _ _ _ hheld hrun hl hdue rfl rfl hafter rfl rfl rfl
  have ho : openHour s = some l.next := openHour_of_lastClosed hrun hl
  have cau := hourBoundaryEvent_cau ho
  have shift : after.val + dayShift l.next = (todayPosition l.next.hour).val := by
    have today : 24 ≤ (todayPosition l.next.hour).val := Nat.le_add_right _ _
    unfold dayShift
    split at hafter <;> split <;> omega
  obtain ⟨net, suspensePosting, fuelToSuspense⟩ := boundaryRecord_postings l.next s
  obtain ⟨curtailed, refirmed, trimmed, cv, mode⟩ := boundaryRecord_marks l.next s
  obtain ⟨estimated, cvHeld, rebased, restart⟩ := hourMetering_booked_flags s
  rw [← differs_eq]
  refine ⟨hourBoundaryEvent s, boundaryAllocations l.next s, boundaryFuel l.next s, boundaryRecord l.next s, exec_hourBoundary hheld hdue,
    fun nominated => allocate_asNominated nominated _ _, fun shared => allocate_proRata shared _ _, shareFuel_charged s _ _ _,
    fun a => account_vacant ho, fun a => account_active ho,
    fun a closing => ⟨fun ⟨empty, unconfirmed⟩ =>
      account_vacated ho ((vacates_boundaryPosted _ _ a).mpr ⟨closing, empty, unconfirmed⟩), account_closing ho closing⟩,
    suspense_hourBoundaryEvent ho, closed_hourBoundaryEvent ho shift, fun a => entries_hourBoundaryEvent ho shift,
    cavernOf_hourBoundaryEvent ho, meterDiff_hourBoundaryEvent ho, ?_, rfl, rfl, rfl, rfl, net, rfl, rfl, suspensePosting, fuelToSuspense,
    fun k => bookOpenGaps_latchedCv s ▸ hourMetering_energies (bookOpenGaps s) k, hourMetering_estimatedSeconds (bookOpenGaps s),
    fun d => ⟨boundaryRecord_offSpecSeconds l.next s d, offSpecTenths_hourBoundaryEvent ho d⟩, estimated, boundaryMetering_clamped s,
    cvHeld, rebased, restart, closingRecord_offSpec l.next _ _, curtailed, refirmed, trimmed, rfl, cv, mode, fun within => ?_⟩
  · rw [cau, getLast_appendRecord]
  · rw [cau]
    exact length_appendRecord _ within

end Sys2Proof.Machine

/-! SUPPORT. The lead condition of a table, the one that leads among the numbers gone through (R69). Here and in the parts
that follow, as in the tests, elaboration is not parallel: each declaration in wait would take a thread and its memory. -/

namespace Sys2Proof.Machine

open Sys2Proof.Safety

set_option Elab.async false

section
variable (table : Vector Condition 56)

/-- The condition `n` leads among those in `l`: Active at a level of at least 1, and above every Active one of `l` with a lower number. -/
structure LeadsAmong (l : List (Fin 56)) (n : Fin 56) : Prop where
  active : (nth table n).active = true
  positive : 1 ≤ (nth table n).level
  first : ∀ m ∈ l, m < n → (nth table m).active = true → (nth table m).level < (nth table n).level

/-- A condition gone through becomes the lead when it is Active above the level of the lead so far, and else leaves it. -/
theorem betterLead_cases (i : Fin 56) (best : Option (Fin 56)) :
    betterLead table i best = best
      ∨ (betterLead table i best = some i ∧ (nth table i).active = true ∧ leadLevel table best < (nth table i).level) := by
  unfold betterLead
  dsimp only
  split
  · next counts =>
    obtain ⟨active, positive⟩ := Bool.and_eq_true_iff.mp counts
    cases best with
    | none => exact .inr ⟨rfl, active, of_decide_eq_true positive⟩
    | some b =>
      dsimp only
      split
      · next beats => exact .inr ⟨rfl, active, beats⟩
      · exact .inl rfl
  · exact .inl rfl

/-- Going through the numbers upward keeps the lead among those gone through, and none above its level. -/
theorem betterLead_walk {l : List (Fin 56)} (sorted : l.Pairwise (· < ·)) :
    (∀ n, l.foldl (fun best i => betterLead table i best) none = some n → n ∈ l ∧ LeadsAmong table l n)
      ∧ ∀ m ∈ l, (nth table m).active = true →
        (nth table m).level ≤ leadLevel table (l.foldl (fun best i => betterLead table i best) none) := by
  induction l using List.reverseRecOn with
  | nil => exact ⟨nofun, nofun⟩
  | append_singleton l i ih =>
    obtain ⟨before, -, above⟩ := List.pairwise_append.mp sorted
    obtain ⟨leads, bounded⟩ := ih before
    rw [List.foldl_append, List.foldl_cons, List.foldl_nil]
    generalize l.foldl (fun best i => betterLead table i best) none = best at leads bounded
    obtain ⟨up, own⟩ := betterLead_level table i best
    refine ⟨fun n hn => ?_, fun m hm ha => ?_⟩
    · rcases betterLead_cases table i best with kept | ⟨taken, active, beats⟩
      · obtain ⟨mem, lead⟩ := leads n (kept ▸ hn)
        refine ⟨List.mem_append_left _ mem, lead.active, lead.positive, fun m hm below => ?_⟩
        rcases List.mem_append.mp hm with hm | hm
        · exact lead.first m hm below
        · exact absurd (List.mem_singleton.mp hm ▸ below) (above n mem i List.mem_cons_self).asymm
      · obtain rfl : i = n := Option.some.inj (taken.symm.trans hn)
        refine ⟨List.mem_append_right _ List.mem_cons_self, active, Nat.one_le_of_lt beats, fun m hm below ha => ?_⟩
        rcases List.mem_append.mp hm with hm | hm
        · exact (bounded m hm ha).trans_lt beats
        · exact absurd (List.mem_singleton.mp hm) below.ne
    · rcases List.mem_append.mp hm with hm | hm
      · exact (bounded m hm ha).trans up
      · exact List.mem_singleton.mp hm ▸ own (List.mem_singleton.mp hm ▸ ha)

/-- The lead condition is the lowest numbered Active condition of the highest level, if that is at least 1. -/
theorem formLead_eq_some_iff (n : Fin 56) :
    formLead table = some n ↔
      (nth table n).active = true ∧ 1 ≤ (nth table n).level
        ∧ (∀ m, (nth table m).active = true → (nth table m).level ≤ (nth table n).level)
        ∧ ∀ m, m < n → (nth table m).active = true → (nth table m).level < (nth table n).level := by
  have leads (i : Fin 56) (h : formLead table = some i) : LeadsAmong table (List.finRange 56) i :=
    ((betterLead_walk table (List.pairwise_lt_finRange 56)).1 i h).2
  have class_of (i : Fin 56) (h : formLead table = some i) : formClass table = (nth table i).level := by rw [formClass, h]
  constructor
  · intro h
    obtain ⟨active, positive, first⟩ := leads n h
    exact ⟨active, positive, fun m ha => class_of n h ▸ level_le_formClass table ha, fun m => first m (List.mem_finRange m)⟩
  · rintro ⟨active, positive, highest, first⟩
    have reached : (nth table n).level ≤ formClass table := level_le_formClass table active
    cases h : formLead table with
    | none => exact absurd (positive.trans reached) (by rw [formClass_eq, h]; exact Nat.not_succ_le_zero 0)
    | some i =>
      have lead := leads i h
      rw [class_of i h] at reached
      rcases lt_trichotomy i n with below | rfl | above
      · exact absurd (first i below lead.active) (not_lt.mpr reached)
      · rfl
      · exact absurd (lead.first n (List.mem_finRange n) above active) (not_lt.mpr (highest i lead.active))

end

end Sys2Proof.Machine

/-! SUPPORT. What a source's reports make of the condition table (R64, R65, R69), and that every operation shared by the events changes
the table by reports alone. -/

namespace Sys2Proof.Machine

open Sys2Proof.Safety

set_option Elab.async false

/-! ### One entry of the table (R63, R65) -/

/-- From `c` to `d` a condition of level 1 or more that rises is pending at both ports, and none becomes pending at level 0 (R65). -/
structure Condition.Marked (c d : Condition) : Prop where
  risen : c.active = false → d.active = true → 1 ≤ d.level → ∀ p, d.pendingOf p = true
  levelled : ∀ p, c.pendingOf p = false → d.pendingOf p = true → 1 ≤ d.level

/-- From `c` to `d` a condition has at most been reported: its level stands, and its pendings have not fallen (R65, R67). -/
structure Condition.Follows (c d : Condition) : Prop extends Condition.Marked c d where
  level : d.level = c.level
  pending : ∀ p, c.pendingOf p = true → d.pendingOf p = true

theorem Condition.Follows.refl (c : Condition) : c.Follows c :=
  ⟨⟨fun h ha => absurd (h.symm.trans ha) Bool.false_ne_true, fun _ h hp => absurd (h.symm.trans hp) Bool.false_ne_true⟩, rfl, fun _ => id⟩

theorem Condition.Follows.trans {c d e : Condition} (h : c.Follows d) (k : d.Follows e) : c.Follows e where
  risen hc he hl := by
    cases hd : d.active with
    | false => exact k.risen hd he hl
    | true => exact fun p => k.pending p (h.risen hc hd (k.level ▸ hl) p)
  levelled p hc he := by
    cases hd : d.pendingOf p with
    | false => exact k.levelled p hd he
    | true => exact k.level ▸ h.levelled p hc hd
  level := k.level.trans h.level
  pending p hp := k.pending p (h.pending p hp)

theorem pendingOf_rise (c : Condition) (p : Port) : c.rise.pendingOf p = (c.pendingOf p || decide (1 ≤ c.level)) := by
  cases p <;> rfl

theorem Condition.follows_rise (c : Condition) : c.Follows c.rise where
  risen _ _ hl p := by
    rw [pendingOf_rise, decide_eq_true (show 1 ≤ c.level from hl), Bool.or_true]
  levelled p hc hp := by
    rw [pendingOf_rise, hc, Bool.false_or] at hp
    exact of_decide_eq_true hp
  level := rfl
  pending p hp := by rw [pendingOf_rise, hp, Bool.true_or]

theorem Condition.follows_fall (c : Condition) : c.Follows c.fall where
  risen _ ha := absurd ha Bool.false_ne_true
  levelled p hc hp := absurd (hc.symm.trans (show c.pendingOf p = true by cases p <;> exact hp)) Bool.false_ne_true
  level := rfl
  pending p hp := by cases p <;> exact hp

/-! ### The table (R64, R69) -/

/-- From `s` to `t` the condition table has at most been reported to, and the class is formed if it was. -/
structure Reported (s t : State) : Prop where
  entries : ∀ n, (nth s.cdt.conditions n).Follows (nth t.cdt.conditions n)
  formed : ClassFormed s → ClassFormed t

namespace Reported

variable {s t u : State}

theorem refl (s : State) : Reported s s := ⟨fun _ => .refl _, id⟩

theorem trans (h : Reported s t) (k : Reported t u) : Reported s u :=
  ⟨fun n => (h.entries n).trans (k.entries n), fun hs => k.formed (h.formed hs)⟩

/-- A table, class and lead that stand, whatever becomes of the derate table, the alert settings and the event flags. -/
theorem of_eq (conditions : t.cdt.conditions = s.cdt.conditions) (derateClass : t.cdt.derateClass = s.cdt.derateClass)
    (lead : t.cdt.lead = s.cdt.lead) : Reported s t :=
  ⟨fun _ => conditions ▸ .refl _, classFormed_congr derateClass lead conditions⟩

theorem of_changes {l : List Block} (h : ChangesOnly l s t) (hd : Block.cdt ∉ l := by decide) : Reported s t := by
  have cdt : s.cdt = t.cdt := h .cdt hd
  exact of_eq (by rw [cdt]) (by rw [cdt]) (by rw [cdt])

theorem overFin {n : Nat} {f : Fin n → State → State} (h : ∀ i s, Reported s (f i s)) (s : State) : Reported s (overFin n f s) :=
  overFin_keeps (Reported s) f (fun i t ht => ht.trans (h i t)) (refl s)

end Reported

section
variable (s : State)

theorem reported_follow (n : Fin 56) (a : Bool) : Reported s (s.withCdt (s.cdt.follow n a)) := by
  unfold Cdt.follow
  split
  · exact .refl s
  · refine ⟨fun m => ?_, fun _ => ⟨rfl, rfl⟩⟩
    simp only [State.withCdt_cdt, Cdt.formAgain, nth_alter]
    split
    · cases a
      · exact Condition.follows_fall _
      · exact Condition.follows_rise _
    · exact .refl _

theorem reported_setEventCom (e : Fin 4) : Reported s (setEventCom e s) := .of_eq rfl rfl rfl
theorem reported_setEventOps (e : Fin 4) : Reported s (setEventOps e s) := .of_eq rfl rfl rfl

theorem reported_refirm : Reported s (refirm s) := by
  unfold refirm
  dsimp only
  split <;> exact .of_eq rfl rfl rfl

theorem reported_report (n : Fin 56) (a : Bool) : Reported s (report n a s) := by
  unfold report
  dsimp only
  split
  · exact (reported_follow s n a).trans (reported_refirm _)
  · exact reported_follow s n a

theorem reported_takeReports (fuel : Nat) (l : List (Fin 56 × Bool)) : Reported s (takeReports fuel l s) := by
  induction fuel generalizing l s with
  | zero => exact .refl s
  | succ fuel ih =>
    match l with
    | [] => exact .refl s
    | [r] => exact reported_report s r.1 r.2
    | a :: b :: rest =>
      simp only [takeReports]
      split
      · exact ((Reported.of_changes (withFreeReads_changes s _)).trans (reported_report _ _ _)).trans (ih _ _)
      · exact .refl s

theorem reported_reportAll (l : List (Fin 56 × Bool)) : Reported s (reportAll l s) := reported_takeReports s _ _

/-! ### The hour (R4, R5, R8, R175) -/

theorem reported_firm (p : Fin 72) : Reported s (firm p s) := by
  unfold firm
  split <;> exact .of_eq rfl rfl rfl

theorem reported_firmAtZero (p : Fin 72) : Reported s (firmAtZero p s) := by
  unfold firmAtZero
  split <;> exact .of_eq rfl rfl rfl

theorem reported_firmRun (start count : Nat) : Reported s (firmRun start count s) := by
  induction count generalizing start s with
  | zero => exact .refl s
  | succ count ih =>
    unfold firmRun
    split
    · exact (reported_firm s _).trans (ih _ _)
    · exact .refl s

theorem reported_firmPointEvent : Reported s (firmPointEvent s) := by
  unfold firmPointEvent
  split
  · exact reported_firmRun s _ _
  · exact .refl s

theorem reported_latchCv : Reported s (latchCv s) := by
  rcases latchCv_cases s with ⟨-, h⟩ | ⟨b, -, -, h⟩ | ⟨b, -, -, h⟩ <;> rw [h] <;>
    exact (Reported.of_changes (withMtu_changes s _)).trans (reported_report _ _ _)

theorem reported_completeClose (h : HourId) (g : Gathered) : Reported s (completeClose h g s) := by
  have posted (p : Fin 72) (m : HourMetering) (al fu : Vector Int 16) : Reported s (postClose p m al fu s) :=
    (Reported.of_eq (s := s) (t := postCaverns m (alterHour p (postHour s al fu) (s.withAct (postAccounts m al fu s.act)))) rfl rfl rfl).trans
      (reported_report _ _ _)
  have finished (u : State) : Reported u (finishClose h u) := .of_eq rfl rfl rfl
  exact ((posted _ _ _ _).trans (.of_changes (withCau_changes _ _))).trans (finished _)

theorem reported_closeHour (h : HourId) : Reported s (closeHour h s) := by
  have booked : Reported s (bookOpenGaps s) := .of_changes (ChangesOnly.overFin (bookGap_changes true) s)
  have cleared (u : State) : Reported u (clearGathered u) := .of_eq rfl rfl rfl
  exact (booked.trans (cleared _)).trans (reported_completeClose _ h _)

theorem reported_rolloverAfter (h : HourId) : Reported s (rolloverAfter h s) := by
  unfold rolloverAfter
  split <;> exact .of_eq rfl rfl rfl

theorem reported_closeMissedHours (count : Nat) (h : HourId) : Reported s (closeMissedHours count h s) := by
  induction count generalizing h s with
  | zero => exact .refl s
  | succ count ih =>
    have missed : Reported s (missedHour h s) :=
      ((reported_firmAtZero s _).trans (reported_completeClose _ h _)).trans (reported_rolloverAfter _ h)
    exact missed.trans (ih _ h.next)

theorem reported_levelBooks (set : HourId) (abandon : Bool) : Reported s (levelBooks set abandon s) := by
  unfold levelBooks
  split
  · exact .of_eq rfl rfl rfl
  · split
    · exact .of_eq rfl rfl rfl
    · exact reported_closeMissedHours s _ _

/-! ### Direction, units and trains -/

theorem reported_changeDirection (new : SiteDirection) : Reported s (changeDirection new s) := by
  unfold changeDirection
  dsimp only
  refine Reported.trans ?_ (reported_report _ _ _)
  split <;> split <;> exact .of_eq rfl rfl rfl

theorem reported_testCompletion : Reported s (testCompletion s) := by
  unfold testCompletion
  split
  · split
    · exact reported_changeDirection s _
    · exact .refl s
  · exact .refl s

/-- The test of a changeover that may follow a change of units. -/
theorem reported_unitsReported (before : State) : Reported s (unitsReported before s) := by
  unfold unitsReported
  split
  · exact .refl s
  · exact reported_testCompletion s

/-- The test of a changeover that may follow a change of the quiet answers. -/
theorem reported_quietReported (before : State) : Reported s (quietReported before s) := by
  unfold quietReported
  split
  · exact .refl s
  · exact reported_testCompletion s

theorem reported_dutyEvaluation : Reported s (dutyEvaluation s) :=
  (Reported.of_changes (evaluate_changes s)).trans (reported_unitsReported _ s)

theorem reported_takeTarget (p : Fin 72) : Reported s (takeTarget p s) := by
  unfold takeTarget
  dsimp only
  split
  · exact .refl s
  · exact (reported_changeDirection s _).trans (reported_unitsReported _ s)

theorem reported_startHour (p : Fin 72) : Reported s (startHour p s) := by
  have led (u : State) : Reported u (changeLead p u) := by
    unfold changeLead
    split
    · exact .refl u
    · exact (Reported.of_changes (withNfu_changes u _)).trans (reported_firmRun _ _ _)
  exact ((((reported_latchCv s).trans (led _)).trans (reported_takeTarget _ p)).trans (reported_dutyEvaluation _)).trans
    (.of_changes (withClock_changes _ _))

theorem reported_hourBoundaryEvent : Reported s (hourBoundaryEvent s) := by
  unfold hourBoundaryEvent
  split
  · exact ((reported_closeHour s _).trans (reported_rolloverAfter _ _)).trans (reported_startHour _ _)
  · exact .refl s

theorem reported_completeSet (day seconds : Nat) : Reported s (completeSet day seconds s) := by
  have run : Reported s (runClock day seconds s) := (Reported.of_changes (withClock_changes s _)).trans (reported_report _ _ _)
  rw [completeSet_eq]
  exact ((run.trans (reported_firmRun _ _ _)).trans (.of_changes (mergeUnclocked_changes _))).trans (reported_startHour _ _)

theorem reported_trimForward (t : Nat) : Reported s (trimForward t s) := by
  have moved : Reported s (moveTime t (markTrimmed s)) := .of_changes ((withClock_changes s _).trans (moveTime_changes t _))
  unfold trimForward
  dsimp only
  split
  · exact (moved.trans (reported_hourBoundaryEvent _)).trans (.of_changes (withClock_changes _ _))
  · split
    · exact moved.trans (reported_firmPointEvent _)
    · exact moved

theorem reported_overrun (c : Changeover) : Reported s (overrun c s) :=
  (Reported.of_changes (withDir_changes s _)).trans (reported_report _ _ _)

theorem reported_faultUnit (cause : UnitCause) (u : Fin 4) : Reported s (faultUnit cause u s) := by
  have told : Reported s (unitsReported s (setEventOps evUnitTripped (report (condUnit u) true
      (alterUnit u (fun r => { r with state := .faulted, cause := cause, deadline := none }) s)))) :=
    (((Reported.of_changes (alterUnit_changes u _ s)).trans (reported_report _ _ _)).trans (reported_setEventOps _ _)).trans
      (reported_unitsReported _ s)
  unfold faultUnit
  dsimp only
  split
  · exact told.trans (reported_dutyEvaluation _)
  · exact told

theorem reported_changeUnit (u : Fin 4) (f : UnitRecord → UnitRecord) (evaluates : Bool) : Reported s (changeUnit u f evaluates s) := by
  have told : Reported s (unitsReported s (alterUnit u f s)) :=
    (Reported.of_changes (alterUnit_changes u f s)).trans (reported_unitsReported _ s)
  unfold changeUnit
  dsimp only
  split
  · exact told.trans (reported_dutyEvaluation _)
  · exact told

theorem reported_leaveFaulted (u : Fin 4) (leave : UnitRecord → UnitRecord) : Reported s (leaveFaulted u leave s) :=
  (((Reported.of_changes (alterUnit_changes u _ s)).trans (reported_report _ _ _)).trans (reported_unitsReported _ s)).trans
    (reported_dutyEvaluation _)

theorem reported_faultTrain (cause : TrainCause) (d : Fin 2) : Reported s (faultTrain cause d s) :=
  ((Reported.of_changes (alterTrain_changes d _ s)).trans (reported_report _ _ _)).trans (reported_setEventOps _ _)

/-! ### The field line -/

theorem reported_slotEventEnds (before : State) (n : Fin 16) : Reported s (slotEventEnds before n s) :=
  (reported_reportAll s _).trans (reported_quietReported _ before)

theorem reported_failVisit (n : Fin 16) : Reported s (failVisit n s) := by
  have failed : Reported s (gapAfterFailure n s) := by
    unfold gapAfterFailure
    split
    · exact (Reported.of_changes (alterSlot_changes n failedSlot s)).trans (.of_changes (openGapOf_changes n _))
    · exact .of_changes (alterSlot_changes n failedSlot s)
  rw [failVisit_eq]
  exact ((failed.trans (.of_changes (bandsFollow_changes s _))).trans (.of_changes (scheduleNext_changes n _))).trans
    (reported_slotEventEnds _ s n)

theorem reported_faultSlot (n : Fin 16) (code : Nat) : Reported s (faultSlot n code s) := by
  have faulted : Reported s (gapAfterFault n s code) := by
    unfold gapAfterFault
    dsimp only
    split
    · exact .of_changes (alterSlot_changes n _ s)
    · exact (Reported.of_changes (alterSlot_changes n _ s)).trans (.of_changes (openGapOf_changes n _))
  exact (faulted.trans (.of_changes (bandsFollow_changes s _))).trans (reported_slotEventEnds _ s n)

theorem reported_succeedVisit (n : Fin 16) (words : List WordBytes) : Reported s (succeedVisit n words s) :=
  (((Reported.of_changes (alterSlot_changes n _ s)).trans (.of_changes (readHanded_changes n words s))).trans
    (.of_changes (readScheduled_changes n words s))).trans (reported_slotEventEnds _ s n)

theorem reported_restartSlot (n : Fin 16) : Reported s (restartSlot n s) :=
  (((Reported.of_changes ((withdrawSlot_changes n s).trans (alterSlot_changes n _ _))).trans
    (.of_changes (channelsLost_changes n s _))).trans (.of_changes (scheduleVisit_changes n _ _))).trans (reported_slotEventEnds _ s n)

theorem reported_enable (n : Fin 16) : Reported s (enable n s) :=
  (((Reported.of_changes (alterSlot_changes n _ s)).trans (.of_changes (channelsLost_changes n s _))).trans
    (.of_changes (scheduleVisit_changes n _ _))).trans (reported_slotEventEnds _ s n)

theorem reported_disable (n : Fin 16) : Reported s (disable n s) :=
  (((Reported.of_changes (disablePoint_changes n s)).trans
    (.of_changes ((withdrawSlot_changes n _).trans (alterSlot_changes n _ _)))).trans (.of_changes (channelsLost_changes n s _))).trans
    (reported_slotEventEnds _ s n)

theorem reported_rebindPoint (k : Fin 7) (slot : Option (Fin 16)) (weight ceiling capacity : Nat) :
    Reported s (rebindPoint k slot weight ceiling capacity s) :=
  (((Reported.of_changes (pointMoved_changes k slot weight ceiling capacity s)).trans (.of_changes (bandOfPoint_changes k _))).trans
    (reported_reportAll _ _)).trans (reported_quietReported _ s)

end

end Sys2Proof.Machine

/-! SUPPORT. Every command but ACK-CONDITIONS and the resets changes the condition table by reports alone. -/

namespace Sys2Proof.Machine

open Sys2Proof.Safety

set_option Elab.async false

/-! ### Requests -/

/-- An answer changes the condition table by reports alone: not at all when it refuses. -/
def Answer.Reports (s : State) : Answer → Prop
  | .refuse _ => True
  | .taken after _ => Reported s after

section
variable {s : State} {a : Answer}

theorem Answer.reports_guard {c : Prop} [Decidable c] {status : Status} (h : a.Reports s) :
    (if c then Answer.refuse status else a).Reports s := by
  split
  · trivial
  · exact h

theorem setClock_reports (fields : List Byte) : (setClock fields s).Reports s := by
  unfold setClock
  split
  · trivial
  · exact Answer.reports_guard (Answer.reports_guard (Answer.reports_guard
      ((reported_levelBooks s _ _).trans (reported_completeSet _ _ _))))

theorem trimClock_reports (fields : List Byte) : (trimClock fields s).Reports s := by
  have back (t : Int) : Reported s (moveTime t (markTrimmed s)) := .of_changes ((withClock_changes s _).trans (moveTime_changes t _))
  refine Answer.reports_guard (Answer.reports_guard ?_)
  split
  · exact .refl s
  · split
    · exact Answer.reports_guard (back _)
    · exact reported_trimForward s _

theorem setSlot_reports (fields : List Byte) : (setSlot fields s).Reports s := by
  unfold setSlot
  split
  · next n settings _ _ =>
    have stored : Reported s (alterSlot n (fun sl => { sl with settings := settings }) s) := .of_changes (alterSlot_changes n _ s)
    refine Answer.reports_guard (Answer.reports_guard ?_)
    show Reported s (if _ then _ else _)
    split
    · exact stored
    · exact stored.trans (reported_restartSlot _ n)
  · trivial

theorem enableSlot_reports (fields : List Byte) : (enableSlot fields s).Reports s := by
  unfold enableSlot
  split
  · trivial
  · exact Answer.reports_guard (Answer.reports_guard (reported_enable s _))

theorem disableSlot_reports (fields : List Byte) : (disableSlot fields s).Reports s := by
  unfold disableSlot
  split
  · trivial
  · exact Answer.reports_guard (reported_disable s _)

theorem setPoint_reports (fields : List Byte) : (setPoint fields s).Reports s := by
  unfold setPoint
  split
  · unfold configurePoint
    split
    · trivial
    · refine Answer.reports_guard (Answer.reports_guard ?_)
      split
      · exact Reported.of_changes (alterPoint_changes _ _ s)
      · exact reported_rebindPoint s _ _ _ _ _
  · trivial

theorem setDerateTable_reports (fields : List Byte) : (setDerateTable fields s).Reports s :=
  Answer.reports_guard (.of_eq rfl rfl rfl)

theorem reported_alterAlert (p : Port) (f : Alert → Alert) : Reported s (s.withCdt (s.cdt.alterAlert p f)) := by
  cases p <;> exact .of_eq rfl rfl rfl

theorem setAlert_reports (p : Port) (fields : List Byte) : (setAlert p fields s).Reports s := by
  unfold setAlert
  split
  · trivial
  · exact Answer.reports_guard (reported_alterAlert p _)

theorem readEvents_reports (p : Port) : (readEvents p s).Reports s := reported_alterAlert p _

theorem setCavern_reports (fields : List Byte) : (setCavern fields s).Reports s := by
  unfold setCavern
  split
  · exact Answer.reports_guard
      ((Reported.of_changes ((withDir_changes s _).trans (evaluateBand_changes _ _))).trans (reported_reportAll _ _))
  · trivial

theorem reported_storeSite (c : SiteSettings) (s : State) : Reported s (storeSite c s) := by
  have completes (old : SiteSettings) (u : State) : Reported u (siteCompletes old u) := by
    unfold siteCompletes
    split
    · exact .refl u
    · exact reported_testCompletion u
  have overruns (old : SiteSettings) (u : State) : Reported u (siteOverruns old u) := by
    unfold siteOverruns
    split
    · split
      · exact reported_overrun u _
      · exact .refl u
    · exact .refl u
  exact (((Reported.of_changes (withDir_changes s _)).trans (completes _ _)).trans (overruns _ _)).trans (reported_dutyEvaluation _)

theorem setSite_reports (fields : List Byte) : (setSite fields s).Reports s := Answer.reports_guard (reported_storeSite _ s)

theorem setDuty_reports (fields : List Byte) : (setDuty fields s).Reports s :=
  Answer.reports_guard ((Reported.of_changes (withCpd_changes s _)).trans (reported_dutyEvaluation _))

theorem reported_takeOutOfService (u : Fin 4) (s : State) : Reported s (takeOutOfService u s) := by
  refine Reported.trans (.of_changes (alterUnit_changes u (fun r => { r with inService := false }) s)) ?_
  unfold takeOutOfService
  dsimp only
  split
  · exact .refl _
  · exact reported_changeUnit _ u _ _
  · exact reported_changeUnit _ u _ _
  · exact reported_leaveFaulted _ u _
  · exact reported_changeUnit _ u _ _
  · exact reported_changeUnit _ u _ _
  · exact .of_changes (alterUnit_changes u _ _)

theorem reported_returnToService (u : Fin 4) (s : State) : Reported s (returnToService u s) := by
  refine Reported.trans (.of_changes (alterUnit_changes u (fun r => { r with inService := true }) s)) ?_
  unfold returnToService
  dsimp only
  split
  · exact reported_changeUnit _ u _ _
  · exact .of_changes (alterUnit_changes u _ _)
  · exact .refl _

theorem setUnit_reports (fields : List Byte) : (setUnit fields s).Reports s := by
  unfold setUnit
  split
  · next inService _ _ =>
    cases inService
    · exact reported_takeOutOfService _ s
    · exact reported_returnToService _ s
  · trivial

theorem resetUnit_reports (fields : List Byte) : (resetUnit fields s).Reports s := by
  unfold resetUnit
  split
  · trivial
  · exact Answer.reports_guard (reported_leaveFaulted s _ _)

theorem reported_storeTrain (d : Fin 2) (c : TrainSettings) (s : State) : Reported s (storeTrain d c s) := by
  have train (f : Train → Train) (u : State) : Reported u (alterTrain d f u) := .of_changes (alterTrain_changes d f u)
  have judged (old : Train) (u : State) : Reported u (judgeSettings old d u) := by
    unfold judgeSettings
    dsimp only
    split
    · exact train _ u
    · split
      · exact train _ u
      · exact .refl u
  unfold storeTrain
  dsimp only
  refine Reported.trans (Reported.trans ?_ (judged _ _)) (reported_reportAll _ _)
  split
  · exact (train _ s).trans (train _ _)
  · exact train _ s

theorem setTrain_reports (fields : List Byte) : (setTrain fields s).Reports s := by
  unfold setTrain
  split
  · unfold configureTrain
    split
    · trivial
    · exact Answer.reports_guard (Answer.reports_guard (reported_storeTrain _ _ s))
  · trivial

theorem resetTrain_reports (fields : List Byte) : (resetTrain fields s).Reports s := by
  unfold resetTrain
  split
  · trivial
  · exact Answer.reports_guard ((Reported.of_changes ((alterTrain_changes _ _ s).trans (alterTrain_changes _ _ _))).trans
      (reported_reportAll _ _))

end

/-! ### Events -/

section
variable (s : State)

theorem reported_miss (e : Entry) : Reported s (miss e s) := by
  unfold miss
  split
  · exact .of_changes (queueEntry_changes _ s)
  · exact reported_failVisit s _

theorem reported_writeDone (e : Entry) : Reported s (writeDone e s) := by
  unfold writeDone
  dsimp only
  split
  · split
    · exact .of_changes (queueEntry_changes _ s)
    · exact .of_changes ((alterSlot_changes _ _ s).trans (queueEntry_changes _ _))
  · exact .refl s

theorem reported_dataAnswered (e : Entry) (words : List WordBytes) : Reported s (dataAnswered e words s) := by
  unfold dataAnswered
  split
  · unfold readyAnswered
    dsimp only
    split
    · exact .of_changes (queueEntry_changes _ s)
    · split
      · exact .of_changes (queueEntry_changes _ s)
      · exact reported_failVisit s _
  · exact reported_succeedVisit s _ _
  · exact .refl s

theorem reported_endTransaction (f : InFlight) {g : State → State} (hg : ∀ u, Reported u (g u)) : Reported s (endTransaction f g s) := by
  have idle : Reported s (s.withFsu { s.fsu with engine := .idle }) := .of_changes (withFsu_changes s _)
  unfold endTransaction
  dsimp only
  split
  · exact idle
  · exact idle.trans (hg _)

/-- A reply reports what its outcome reports. -/
theorem reported_replyEvent (received : List Byte) {outcome : Reply → Option (Entry → State → State)}
    (ho : ∀ r g, outcome r = some g → ∀ e u, Reported u (g e u)) : Reported s (replyEvent received outcome s) := by
  have heard : Reported s (bytesHeard received s) := .of_changes (bytesHeard_changes received s)
  unfold replyEvent
  split
  · split
    · exact heard
    · split
      · next g hg => exact (Reported.of_changes (receiverHeard_changes s)).trans (reported_endTransaction _ _ (ho _ g hg _))
      · exact .refl s
  · exact heard

theorem reported_windowExpires : Reported s (windowExpires s) := by
  unfold windowExpires
  split
  · exact reported_endTransaction s _ fun u => reported_miss u _
  · exact .refl s

theorem reported_minimumExpires : Reported s (minimumExpires s) := by
  unfold minimumExpires
  split
  · split
    · exact reported_testCompletion s
    · exact .refl s
  · exact .refl s

theorem reported_limitExpires : Reported s (limitExpires s) := by
  unfold limitExpires
  split
  · split
    · exact reported_overrun s _
    · exact .refl s
  · exact .refl s

theorem reported_takeFeedback (u : Fin 4) (level : Bool) : Reported s (takeFeedback u level s) := by
  refine Reported.trans (.of_changes (alterUnit_changes u (fun r => { r with feedback := level }) s)) ?_
  unfold takeFeedback
  dsimp only
  split
  · exact reported_faultUnit _ _ u
  · unfold cooldownFeedback
    split
    · exact reported_changeUnit _ u _ _
    · exact reported_faultUnit _ _ u
  · exact reported_faultUnit _ _ u
  · exact reported_changeUnit _ u _ _
  · exact reported_faultUnit _ _ u
  · exact reported_changeUnit _ u _ _
  · exact .refl _

theorem reported_startFails (u : Fin 4) : Reported s (startFails u s) := by
  unfold startFails
  split
  · exact reported_changeUnit s u _ _
  · exact reported_faultUnit s _ u

theorem reported_cooldownEnds (u : Fin 4) : Reported s (cooldownEnds u s) := by
  unfold cooldownEnds
  split
  · exact reported_faultUnit s _ u
  · exact reported_changeUnit s u _ _

theorem reported_dropStartEntry (u : Fin 4) : Reported s (dropStartEntry u s) :=
  (Reported.of_changes (alterUnit_changes u _ s)).trans (reported_dutyEvaluation _)

theorem reported_inputTimeoutEnds (d : Fin 2) : Reported s (inputTimeoutEnds d s) := by
  unfold inputTimeoutEnds
  split
  · split
    · exact .of_changes (alterTrain_changes d _ s)
    · exact reported_faultTrain s _ d
  · exact .refl s

theorem reported_dwellEnds (d : Fin 2) : Reported s (dwellEnds d s) := by
  unfold dwellEnds
  split
  · split
    · exact .of_changes (alterTrain_changes d _ s)
    · split
      · exact reported_inputTimeoutEnds s d
      · exact .of_changes (alterTrain_changes d _ s)
  · exact .refl s

end

/-! ### Every command -/

/-- A command that stores levels or takes the table to its reset values. -/
def rewritesTable : Instr → Bool
  | .ackConditions _ _ => true
  | c => isReset c

theorem exec_reported {c : Instr} {s t : State} (hc : rewritesTable c = false) (h : exec c s = .next t) : Reported s t := by
  by_cases hb : isReset c = false ∧ (commandBlocks c).contains .cdt = false
  · exact .of_changes (exec_changes hb.1 h) (by simpa using hb.2)
  · have request {owner : Option Port} {code : Nat} {p : Port} {fields : List Byte} {own : State → Answer} (k : (own s).Reports s)
        (h : serve owner code p fields own s = .next t) : Reported s t :=
      serve_keeps (.refl s) (fun _ _ u hu => hu.trans (.of_changes (alterPort_changes _ _ u)))
        (fun after payload e => by rw [e] at k; exact k) h
    have event {f : State → State} (k : Reported s (f s)) (h : unlessHeld f s = .next t) : Reported s t :=
      unlessHeld_keeps (.refl s) k h
    have timed {occasion : Bool} {f : State → State} (k : Reported s (f s)) (h : unlessHeld (onlyIf occasion f) s = .next t) :
        Reported s t := event (onlyIf_keeps (.refl s) k) h
    cases c with
    | ackConditions | resetPart | powerOn | pin => cases hc
    | setClock => exact request (setClock_reports _) h
    | trimClock => exact request (trimClock_reports _) h
    | setSlot => exact request (setSlot_reports _) h
    | enableSlot => exact request (enableSlot_reports _) h
    | disableSlot => exact request (disableSlot_reports _) h
    | setPoint => exact request (setPoint_reports _) h
    | setDerateTable => exact request (setDerateTable_reports _) h
    | setAlert => exact request (setAlert_reports _ _) h
    | readEvents => exact request (readEvents_reports _) h
    | setCavern => exact request (setCavern_reports _) h
    | setSite => exact request (setSite_reports _) h
    | setDuty => exact request (setDuty_reports _) h
    | setUnit => exact request (setUnit_reports _) h
    | resetUnit => exact request (resetUnit_reports _) h
    | setTrain => exact request (setTrain_reports _) h
    | resetTrain => exact request (resetTrain_reports _) h
    | hourBoundary => exact timed (reported_hourBoundaryEvent s) h
    | firmPoint => exact timed (reported_firmPointEvent s) h
    | dataReply received =>
      refine event (reported_replyEvent s received fun r g hg e u => ?_) h
      cases r <;> cases hg
      · exact reported_miss u e
      · exact reported_dataAnswered u e _
    | doneReply received =>
      refine event (reported_replyEvent s received fun r g hg e u => ?_) h
      cases r <;> cases hg
      · exact reported_miss u e
      · exact reported_writeDone u e
    | errorReply received =>
      refine event (reported_replyEvent s received fun r g hg e u => ?_) h
      cases r <;> cases hg
      · exact reported_miss u e
      · exact reported_faultSlot u _ _
    | badReplyFrame received =>
      refine event (reported_replyEvent s received fun r g hg e u => ?_) h
      cases r <;> cases hg
      exact reported_miss u e
    | replyWindowExpiry => exact event (reported_windowExpires s) h
    | changeoverMinimumExpiry => exact event (reported_minimumExpires s) h
    | changeoverLimitExpiry => exact event (reported_limitExpires s) h
    | feedbackChange => exact timed (reported_takeFeedback s _ _) h
    | startTimeout => exact timed (reported_startFails s _) h
    | stopTimeout => exact timed (reported_faultUnit s _ _) h
    | cooldownExpiry => exact timed (reported_cooldownEnds s _) h
    | startListExpiry => exact timed (reported_dropStartEntry s _) h
    | dwellExpiry => exact timed (reported_dwellEnds s _) h
    | inputTimeout => exact timed (reported_inputTimeoutEnds s _) h
    | strokeTimeout => exact timed (reported_faultTrain s _ _) h
    | _ => exact absurd ⟨rfl, rfl⟩ hb

end Sys2Proof.Machine

/-! SUPPORT. What ACK-CONDITIONS and the resets make of the condition table (R63, R66 to R69, R77), and the statements on the derate class
and on ACK-CONDITIONS. -/

namespace Sys2Proof.Machine

open Sys2Proof.Safety

set_option Elab.async false

/-! ### The entries of an ACK-CONDITIONS (R67, R68) -/

/-- A condition that an entry acknowledges. -/
def acked (p : Port) (e : AckEntry) (c : Condition) : Condition :=
  { c.acknowledge p with
    level := e.level.getD c.level
    active := c.active && !(decide (e.condition = condRetainedLost) && decide (p = .ops)) }

/-- The table once every entry is applied. -/
abbrev ackedTable (p : Port) (entries : List AckEntry) (c : Cdt) : Cdt := entries.foldl (fun c e => applyAck p e c) c

section
variable (p q : Port) (e : AckEntry) (c : Cdt) (n : Fin 56)

theorem conditions_applyAck :
    nth (applyAck p e c).conditions n = if n = e.condition then acked p e (nth c.conditions n) else nth c.conditions n := by
  rw [applyAck, nth_alter]
  refine if_congr Iff.rfl ?_ rfl
  unfold acked
  split
  · next h => rw [decide_eq_true h.1, decide_eq_true h.2]; cases p <;> simp [Condition.fall, Condition.acknowledge]
  · next h =>
    have stays : (decide (e.condition = condRetainedLost) && decide (p = .ops)) = false := by simpa using h
    rw [stays]
    cases p <;> simp [Condition.acknowledge]

theorem pendingOf_acked (x : Condition) : (acked p e x).pendingOf q = (x.pendingOf q && !decide (q = p)) := by
  cases p <;> cases q <;> simp [acked, Condition.acknowledge, Condition.pendingOf]

variable (entries : List AckEntry)

/-- An acknowledgement clears the pendings of its port on the conditions that its entries name, and no other. -/
theorem pendingOf_ackedTable :
    (nth (ackedTable p entries c).conditions n).pendingOf q
      = ((nth c.conditions n).pendingOf q && !(decide (q = p) && entries.any fun e => decide (e.condition = n))) := by
  induction entries generalizing c with
  | nil => simp
  | cons e rest ih =>
    rw [ackedTable, List.foldl_cons, ih, conditions_applyAck, List.any_cons]
    split
    · next h => rw [pendingOf_acked, decide_eq_true h.symm]; cases decide (q = p) <;> simp
    · next h => rw [decide_eq_false (Ne.symm h), Bool.false_or]

/-- Of the Active items only that of condition 53 falls, when Operations acknowledges it (R68). -/
theorem active_ackedTable :
    (nth (ackedTable p entries c).conditions n).active
      = ((nth c.conditions n).active && !(decide (n = condRetainedLost) && decide (p = .ops)
          && entries.any fun e => decide (e.condition = condRetainedLost))) := by
  induction entries generalizing c with
  | nil => simp
  | cons e rest ih =>
    rw [ackedTable, List.foldl_cons, ih, conditions_applyAck, List.any_cons]
    split
    · next h =>
      subst h
      simp only [acked]
      cases (nth c.conditions e.condition).active <;> cases decide (e.condition = condRetainedLost) <;> cases decide (p = .ops) <;> simp
    · next h =>
      by_cases h53 : n = condRetainedLost
      · rw [decide_eq_false fun he : e.condition = condRetainedLost => h (h53.trans he.symm), Bool.false_or]
      · simp [h53]

variable {entries n}

theorem conditions_ackedTable_unnamed (h : ∀ e ∈ entries, e.condition ≠ n) :
    nth (ackedTable p entries c).conditions n = nth c.conditions n := by
  induction entries generalizing c with
  | nil => rfl
  | cons e rest ih =>
    rw [ackedTable, List.foldl_cons, ih _ fun x hx => h x (List.mem_cons_of_mem e hx), conditions_applyAck,
      if_neg (h e List.mem_cons_self).symm]

/-- A level stands where no entry gives one. -/
theorem level_ackedTable (h : ∀ e ∈ entries, e.condition = n → e.level = none) :
    (nth (ackedTable p entries c).conditions n).level = (nth c.conditions n).level := by
  induction entries generalizing c with
  | nil => rfl
  | cons e rest ih =>
    rw [ackedTable, List.foldl_cons, ih _ fun x hx => h x (List.mem_cons_of_mem e hx), conditions_applyAck]
    split
    · next hn => rw [acked, h e List.mem_cons_self hn.symm]; rfl
    · rfl

/-- The last entry that gives a condition a level stores it. -/
theorem level_ackedTable_last {before after : List AckEntry} {l : Nat} (hl : e.level = some l)
    (h : ∀ x ∈ after, x.condition = e.condition → x.level = none) :
    (nth (ackedTable p (before ++ e :: after) c).conditions e.condition).level = l := by
  rw [ackedTable, List.foldl_append, List.foldl_cons, level_ackedTable p _ h, conditions_applyAck, if_pos rfl, acked, hl]
  rfl

end

section
variable (p : Port) (entries : List AckEntry) (s : State)

theorem conditions_acknowledge : (acknowledge p entries s).cdt.conditions = (ackedTable p entries s.cdt).conditions := by
  unfold acknowledge
  dsimp only
  split
  · exact conditions_refirm _
  · rfl

/-- The class and the lead are formed from the new table (R67, R69). -/
theorem acknowledge_classFormed : ClassFormed (acknowledge p entries s) := by
  have formed : ClassFormed (s.withCdt (ackedTable p entries s.cdt).formAgain) := ⟨rfl, rfl⟩
  unfold acknowledge
  dsimp only
  split
  · exact (reported_refirm _).formed formed
  · exact formed

/-- An acknowledgement makes no condition rise and none pending. -/
theorem acknowledge_marked (n : Fin 56) :
    (nth s.cdt.conditions n).Marked (nth (acknowledge p entries s).cdt.conditions n) := by
  rw [conditions_acknowledge]
  refine ⟨fun hs ht => ?_, fun q hs ht => ?_⟩
  · rw [active_ackedTable, hs, Bool.false_and] at ht
    exact absurd ht Bool.false_ne_true
  · rw [pendingOf_ackedTable, hs, Bool.false_and] at ht
    exact absurd ht Bool.false_ne_true

end

/-! ### Resets (R77) -/

theorem restart_marked (c d : Condition) (active : Bool) : c.Marked (d.restart active) := by
  cases active
  · exact ⟨fun _ ha => absurd ha Bool.false_ne_true, fun p _ hp => by cases p <;> exact absurd hp Bool.false_ne_true⟩
  · refine ⟨fun _ _ hl p => ?_, fun p _ hp => ?_⟩
    · rw [Condition.restart, if_pos rfl, pendingOf_rise]
      exact (Bool.or_eq_true _ _).mpr (.inr (decide_eq_true hl))
    · rw [Condition.restart, if_pos rfl, pendingOf_rise] at hp
      cases p <;> exact of_decide_eq_true hp

section
variable (kind : ResetKind) (lines : Lines) (s : State)

/-- After a reset each condition has its level, and is Active and pending as its source reports it. -/
theorem takeReset_table :
    (∀ n, ∃ active, nth (takeReset kind lines s).cdt.conditions n = (nth (retained s).cdt.conditions n).restart active)
      ∧ ClassFormed (takeReset kind lines s) := by
  have formed : ClassFormed (restartBlocks kind lines (!s.pif.retainedIntact) (retained s)) := ⟨rfl, rfl⟩
  have refirmed (u : State) : Reported u (refirmAtReset u) ∧ (refirmAtReset u).cdt.conditions = u.cdt.conditions := by
    unfold refirmAtReset
    split
    · exact ⟨reported_refirm u, conditions_refirm u⟩
    · exact ⟨.refl u, rfl⟩
  have resumed (u : State) : ChangesOnly [.dsq] u (overFin 2 resumeTrain u) := ChangesOnly.overFin (fun t u => alterTrain_changes t _ u) u
  refine ⟨fun n => ?_, ?_⟩
  · rw [takeReset, ← resumed _ .cdt (by decide), (refirmed _).2, ← scheduleFirst_changes _ .cdt (by decide)]
    exact ⟨_, nth_tab _ n⟩
  · exact ((Reported.of_changes (scheduleFirst_changes _)).trans ((refirmed _).1.trans (.of_changes (resumed _)))).formed formed

theorem takeReset_marked (n : Fin 56) : (nth s.cdt.conditions n).Marked (nth (takeReset kind lines s).cdt.conditions n) := by
  obtain ⟨active, h⟩ := (takeReset_table kind lines s).1 n
  rw [h]
  exact restart_marked _ _ active

end

/-! ### Every command -/

section
variable {fields : List Byte} {p : Port} {entries : List AckEntry} {s : State}

theorem cdt_answered {n : Nat} {status : Status} {fs : List Byte} : (answered p n status fs s).cdt = s.cdt := rfl

/-- What an ACK-CONDITIONS that is taken has read: entries that give a level only from Operations (R66). -/
theorem ackConditions_taken {after : State} {payload : List Byte} (h : ackConditions p fields s = .taken after payload) :
    ∃ entries, (p = .com → ∀ e ∈ entries, e.level = none) ∧ after = acknowledge p entries s := by
  unfold ackConditions at h
  dsimp only at h
  split at h
  · cases h
  · split at h
    · cases h
    · next entries _ =>
      split at h
      · cases h
      · next owned =>
        split at h <;> cases h
        refine ⟨entries, fun hp e he => ?_, rfl⟩
        cases hl : e.level with
        | none => rfl
        | some l => exact absurd ⟨hp, List.any_eq_true.mpr ⟨e, he, by rw [hl]; rfl⟩⟩ owned

/-- A command that rewrites the table acknowledges, or resets, or, in reset or refused, leaves it. -/
theorem exec_rewrites {c : Instr} {t : State} (hc : rewritesTable c = true) (h : exec c s = .next t) :
    t.cdt = s.cdt
      ∨ (∃ p fields entries, c = .ackConditions p fields ∧ (p = .com → ∀ e ∈ entries, e.level = none)
          ∧ t.cdt = (acknowledge p entries s).cdt)
      ∨ (isReset c = true ∧ ∃ kind lines, t.cdt = (takeReset kind lines s).cdt) := by
  cases c with
  | ackConditions p fields =>
    rcases serve_cases none 0x40 p fields (ackConditions p fields) s with ⟨-, e⟩ | ⟨-, ⟨status, e⟩ | ⟨after, payload, ha, e⟩⟩ <;>
      obtain rfl := Host.Outcome.next.inj (e.symm.trans h)
    · exact .inl rfl
    · exact .inl rfl
    · obtain ⟨entries, owned, rfl⟩ := ackConditions_taken ha
      exact .inr (.inl ⟨p, fields, entries, rfl, owned, cdt_answered⟩)
  | resetPart p fields lines =>
    rcases serve_cases (some .ops) 0xB1 p fields (fun s => .taken (takeReset .command lines s) []) s with
      ⟨-, e⟩ | ⟨-, ⟨status, e⟩ | ⟨after, payload, ha, e⟩⟩ <;> obtain rfl := Host.Outcome.next.inj (e.symm.trans h)
    · exact .inl rfl
    · exact .inl rfl
    · rw [← (Answer.taken.inj ha).1]
      exact .inr (.inr ⟨rfl, .command, lines, cdt_answered⟩)
  | powerOn lines =>
    obtain rfl : takeReset .powerOn lines s = t := Host.Outcome.next.inj h
    exact .inr (.inr ⟨rfl, .powerOn, lines, rfl⟩)
  | pin micros lines =>
    obtain rfl : releasePin micros lines s = t := Host.Outcome.next.inj h
    unfold releasePin
    split
    · exact .inl rfl
    · exact .inr (.inr ⟨rfl, .pin, lines, rfl⟩)
  | _ => cases hc

/-- Whatever command is taken, a condition that rises is marked pending by its level. -/
theorem exec_marked {c : Instr} {t : State} (h : exec c s = .next t) (n : Fin 56) :
    (nth s.cdt.conditions n).Marked (nth t.cdt.conditions n) := by
  cases hc : rewritesTable c with
  | false => exact ((exec_reported hc h).entries n).toMarked
  | true =>
    rcases exec_rewrites hc h with e | ⟨p, fields, entries, -, -, e⟩ | ⟨-, kind, lines, e⟩ <;> rw [e]
    · exact (Condition.Follows.refl _).toMarked
    · exact acknowledge_marked p entries s n
    · exact takeReset_marked kind lines s n

theorem exec_classFormed {c : Instr} {t : State} (hs : ClassFormed s) (h : exec c s = .next t) : ClassFormed t := by
  cases hc : rewritesTable c with
  | false => exact (exec_reported hc h).formed hs
  | true =>
    have told {u : State} (hu : ClassFormed u) (e : t.cdt = u.cdt) : ClassFormed t :=
      classFormed_congr (by rw [e]) (by rw [e]) (by rw [e]) hu
    rcases exec_rewrites hc h with e | ⟨p, fields, entries, -, -, e⟩ | ⟨-, kind, lines, e⟩
    · exact told hs e
    · exact told (acknowledge_classFormed p entries s) e
    · exact told (takeReset_table kind lines s).2 e

/-- Settles O54: the lead found going through the table upward is the lowest of the highest level, and each command forms it again when it
changes the table. -/
theorem stepKeepsDerateClassFormed : Obligations.StepKeepsDerateClassFormed := by
  refine ⟨fun table => ⟨fun n => level_le_formClass table, formClass_attained table, formLead_eq_some_iff table⟩, fun s t hs h => ?_⟩
  unfold step at h
  split at h
  · next c rest _ => exact exec_classFormed (classFormed_congr (s := s) (t := s.withPending rest) rfl rfl rfl hs) h
  · obtain rfl := Host.Outcome.next.inj h
    exact (Reported.of_changes (idle_changes s)).formed hs

end

end Sys2Proof.Machine

/-! SUPPORT. The request ACK-CONDITIONS and its statement (R63, R65 to R69, R77). -/

namespace Sys2Proof.Machine

open Sys2Proof.Safety

set_option Elab.async false

/-! ### What every command leaves of a condition (R63, R65, R67, R77) -/

section
variable {c : Instr} {s t : State}

/-- Only an ACK-CONDITIONS of its port clears a pending, and only one of Operations stores a level, but for the resets. -/
theorem exec_condition (hr : isReset c = false) (h : exec c s = .next t) (n : Fin 56) :
    (∀ p, (∀ fields, c ≠ .ackConditions p fields) → (nth s.cdt.conditions n).pendingOf p = true →
        (nth t.cdt.conditions n).pendingOf p = true)
      ∧ ((∀ fields, c ≠ .ackConditions .ops fields) → (nth t.cdt.conditions n).level = (nth s.cdt.conditions n).level) := by
  cases hc : rewritesTable c with
  | false =>
    have follows := (exec_reported hc h).entries n
    exact ⟨fun p _ => follows.pending p, fun _ => follows.level⟩
  | true =>
    rcases exec_rewrites hc h with e | ⟨q, fields, entries, rfl, owned, e⟩ | ⟨reset, -⟩
    · rw [e]
      exact ⟨fun _ _ => id, fun _ => rfl⟩
    · rw [e, conditions_acknowledge]
      refine ⟨fun p other hp => ?_, fun other => level_ackedTable q s.cdt fun x hx _ => owned ?_ x hx⟩
      · have apart : p ≠ q := fun same => other fields (same ▸ rfl)
        rw [pendingOf_ackedTable, hp, decide_eq_false apart]
        rfl
      · cases q
        · exact absurd rfl (other fields)
        · rfl
    · exact absurd (hr.symm.trans reset) Bool.false_ne_true

theorem isReset_eq_false (h1 : ∀ p fields lines, c ≠ .resetPart p fields lines) (h2 : ∀ lines, c ≠ .powerOn lines)
    (h3 : ∀ micros lines, c ≠ .pin micros lines) : isReset c = false := by
  cases c with
  | resetPart p fields lines => exact absurd rfl (h1 p fields lines)
  | powerOn lines => exact absurd rfl (h2 lines)
  | pin micros lines => exact absurd rfl (h3 micros lines)
  | _ => rfl

end

/-! ### The checks (R66) -/

section
variable {p : Port} {fields : List Byte} {entries : List AckEntry} {s : State}

/-- A condition above 55 makes no entries. -/
theorem readAckEntries_above {start count : Nat} (h : ∃ j, j < count ∧ 55 < byteAt fields (start + 3 * j)) :
    readAckEntries fields start count = none := by
  obtain ⟨j, hj, high⟩ := h
  induction count generalizing start j with
  | zero => omega
  | succ count ih =>
    cases j with
    | zero =>
      have outside : index? 56 (byteAt fields start) = none := index?_of_le high
      simp [readAckEntries, outside]
    | succ j =>
      have rest := ih j (start := start + 3) (by omega) (by rwa [show start + 3 + 3 * j = start + 3 * (j + 1) by ring])
      simp [readAckEntries, rest]

theorem ackConditions_malformed
    (h : byteAt fields 0 = 0 ∨ 8 < byteAt fields 0 ∨ ∃ j, j < byteAt fields 0 ∧ 55 < byteAt fields (1 + 3 * j)) :
    ackConditions p fields s = .refuse .malformed := by
  unfold ackConditions
  dsimp only
  split
  · rfl
  · next count =>
    rw [readAckEntries_above (by tauto)]

section
variable (low : 1 ≤ byteAt fields 0) (high : byteAt fields 0 ≤ 8) (read : readAckEntries fields 1 (byteAt fields 0) = some entries)
include low high read

/-- With its entries read, an ACK-CONDITIONS comes to the checks of levels and its effect. -/
theorem ackConditions_read :
    ackConditions p fields s =
      if p = .com ∧ entries.any (fun e => e.level.isSome) then .refuse .owner
      else if entries.any (fun e => decide (7 < e.level.getD 0)) then .refuse .range
      else .taken (acknowledge p entries s)
        (ubytes 1 (acknowledge p entries s).cdt.derateClass ++ leadBytes (acknowledge p entries s).cdt) := by
  unfold ackConditions
  dsimp only
  rw [if_neg (by omega), read]

theorem ackConditions_owner (hp : p = .com) (h : ∃ e ∈ entries, e.level ≠ none) : ackConditions p fields s = .refuse .owner := by
  obtain ⟨e, he, hl⟩ := h
  rw [ackConditions_read low high read, if_pos ⟨hp, List.any_eq_true.mpr ⟨e, he, Option.isSome_iff_ne_none.mpr hl⟩⟩]

theorem ackConditions_range (hp : p = .ops) (h : ∃ e ∈ entries, ∃ l, e.level = some l ∧ 7 < l) :
    ackConditions p fields s = .refuse .range := by
  obtain ⟨e, he, l, hl, above⟩ := h
  rw [ackConditions_read low high read, if_neg (by rw [hp]; exact fun both => nomatch both.1),
    if_pos (List.any_eq_true.mpr ⟨e, he, by rw [hl]; exact decide_eq_true above⟩)]

theorem ackConditions_acknowledges (h : ∀ e ∈ entries, ∀ l, e.level = some l → p = .ops ∧ l ≤ 7) :
    ackConditions p fields s = .taken (acknowledge p entries s)
      (ubytes 1 (acknowledge p entries s).cdt.derateClass ++ leadBytes (acknowledge p entries s).cdt) := by
  rw [ackConditions_read low high read, if_neg, if_neg]
  · rw [List.any_eq_true]
    rintro ⟨e, he, above⟩
    cases hl : e.level with
    | none => rw [hl] at above; exact absurd above (by decide)
    | some l =>
      rw [hl] at above
      exact absurd (h e he l hl).2 (not_le.mpr (of_decide_eq_true above))
  · rintro ⟨rfl, given⟩
    obtain ⟨e, he, given⟩ := List.any_eq_true.mp given
    obtain ⟨l, hl⟩ := Option.isSome_iff_exists.mp given
    exact nomatch (h e he l hl).1

end

end

/-! ### The statement -/

/-- Settles O31: what every command leaves of a condition, then the checks of ACK-CONDITIONS in their order and the acknowledged table. -/
theorem ackConditionsClearsAndLevels : Obligations.AckConditionsClearsAndLevels := by
  refine ⟨fun c s t n h => ?_, fun p fields s held fit bad => ?_, fun p fields entries s held fit low high read => ⟨?_, ?_, ?_⟩⟩
  · obtain ⟨risen, levelled⟩ := exec_marked h n
    exact ⟨fun hs ht hl => ⟨risen hs ht hl .ops, risen hs ht hl .com⟩, levelled,
      fun noReset noPower noPin => exec_condition (isReset_eq_false noReset noPower noPin) h n⟩
  · exact serve_refused held fit rfl (ackConditions_malformed bad)
  · exact fun hp h => serve_refused held fit rfl (ackConditions_owner low high read hp h)
  · exact fun hp h => serve_refused held fit rfl (ackConditions_range low high read hp h)
  · intro h
    refine ⟨_, serve_taken held fit rfl (ackConditions_acknowledges low high read h), ?_⟩
    have changes := acknowledge_changes p entries s
    have table := conditions_acknowledge p entries s
    have formed := acknowledge_classFormed p entries s
    generalize acknowledge p entries s = u at changes table formed
    simp only [conditionActive, cdt_answered, table]
    refine ⟨fun n => conditions_ackedTable_unnamed p s.cdt, fun e he => ?_, fun n q hq => ?_, fun before e after split last l hl => ?_,
      fun n => active_ackedTable p s.cdt n entries, formed, ?_, ?_⟩
    · have named : (entries.any fun x => decide (x.condition = e.condition)) = true := List.any_eq_true.mpr ⟨e, he, decide_eq_true rfl⟩
      rw [pendingOf_ackedTable, named, decide_eq_true rfl, Bool.and_self, Bool.not_true, Bool.and_false]
    · rw [pendingOf_ackedTable, decide_eq_false hq, Bool.false_and, Bool.not_false, Bool.and_true]
    · rw [split]
      exact level_ackedTable_last p e s.cdt hl last
    · show (alterPort p _ u).pif = (alterPort p _ s).pif
      rw [alterPort, alterPort, State.withPif_pif, State.withPif_pif, changes .pif (by decide), leadBytes]
      cases u.cdt.lead <;> rfl
    · exact (changes.mono (by decide)).trans ((alterPort_changes p _ u).mono (by decide))

end Sys2Proof.Machine

/-! SUPPORT. The derate table, the alert settings and the event flags, and the statement on their requests (R71 to R75). -/

namespace Sys2Proof.Machine

open Sys2Proof.Safety

set_option Elab.async false

/-! ### SET-DERATE-TABLE (R71, R72) -/

/-- No column rises from 100 down the classes, class by class (R71). -/
theorem fallsWithClass_iff (table : Vector Percent 7) :
    fallsWithClass table = true ↔
      ((nth table 0).injection ≤ 100 ∧ (nth table 0).withdrawal ≤ 100)
        ∧ ∀ i : Fin 6, (nth table i.succ).injection ≤ (nth table i.castSucc).injection
            ∧ (nth table i.succ).withdrawal ≤ (nth table i.castSucc).withdrawal := by
  have above (i : Fin 6) : index? 7 (i.succ.val - 1) = some i.castSucc := by
    rw [Fin.val_succ, Nat.add_sub_cancel, ← Fin.val_castSucc, index?_val]
  simp only [fallsWithClass, allFin_eq_true, Bool.and_eq_true, decide_eq_true_eq]
  rw [Fin.forall_fin_succ]
  exact and_congr (by simp [index?]) (forall_congr' fun i => by simp only [above, Fin.succ_ne_zero, if_false])

section
variable (fields : List Byte)

/-- The bytes of a SET-DERATE-TABLE never rise from 100 down either column. -/
abbrev derateBytesFall : Prop := byteAt fields 0 ≤ 100 ∧ byteAt fields 1 ≤ 100 ∧ ∀ j, j < 12 → byteAt fields (j + 2) ≤ byteAt fields j

theorem readDerate_falls : fallsWithClass (readDerate fields) = true ↔ derateBytesFall fields := by
  rw [fallsWithClass_iff, and_assoc]
  simp only [readDerate, nth_tab, Fin.val_succ, Fin.val_castSucc]
  refine and_congr Iff.rfl (and_congr Iff.rfl ⟨fun falls j hj => ?_, fun falls i => ⟨falls (2 * i.val) (by omega), falls (2 * i.val + 1) (by omega)⟩⟩)
  obtain ⟨injection, withdrawal⟩ := falls ⟨j / 2, by omega⟩
  rcases Nat.mod_two_eq_zero_or_one j with even | odd
  · rwa [show 2 * (j / 2 + 1) = j + 2 by omega, show 2 * (j / 2) = j by omega] at injection
  · rwa [show 2 * (j / 2 + 1) + 1 = j + 2 by omega, show 2 * (j / 2) + 1 = j by omega] at withdrawal

end

/-! ### SET-ALERT (R73) -/

theorem mark_markByte {fields : List Byte} {i : Nat} {b : Bool} (h : byteAt fields i = if b then 1 else 0) : mark fields i = some b := by
  unfold mark
  rw [h]
  cases b <;> rfl

/-- Four marks read back from their bytes. -/
theorem fourMarks_markBytes (first : Byte) (m : Vector Bool 4) : fourMarks (first :: markBytes m) 1 = some m := by
  obtain ⟨⟨l⟩, size⟩ := m
  match l, size with
  | [a, b, c, d], size =>
    have byte (x : Bool) : (if x then 1 else 0 : Byte).toNat = if x then 1 else 0 := by cases x <;> rfl
    have mark_of (i : Nat) (x : Bool) (hx : byteAt (first :: markBytes ⟨⟨[a, b, c, d]⟩, size⟩) i = (if x then 1 else 0 : Byte).toNat) :
        mark (first :: markBytes ⟨⟨[a, b, c, d]⟩, size⟩) i = some x := mark_markByte (hx.trans (byte x))
    simp only [fourMarks, mark_of 1 a rfl, mark_of 2 b rfl, mark_of 3 c rfl, mark_of 4 d rfl]
    rfl

theorem fits_setAlert (first : Byte) (m : Vector Bool 4) : fits 0x42 (first :: markBytes m) = true := by
  obtain ⟨⟨l⟩, size⟩ := m
  match l, size with
  | [_, _, _, _], _ => rfl

section
variable {p : Port} {threshold : Byte} {m : Vector Bool 4} {s : State}

theorem setAlert_stores (low : 1 ≤ threshold.toNat) (high : threshold.toNat ≤ 7) :
    setAlert p (threshold :: markBytes m) s
      = .taken (s.withCdt (s.cdt.alterAlert p fun a => { a with threshold := threshold.toNat, mask := m })) [] := by
  have byte : byteAt (threshold :: markBytes m) 0 = threshold.toNat := rfl
  simp only [setAlert, fourMarks_markBytes, byte]
  exact if_neg (by omega)

theorem setAlert_range (h : threshold.toNat = 0 ∨ 7 < threshold.toNat) :
    setAlert p (threshold :: markBytes m) s = .refuse .range := by
  have byte : byteAt (threshold :: markBytes m) 0 = threshold.toNat := rfl
  simp only [setAlert, fourMarks_markBytes, byte]
  exact if_pos h

end

/-- Settles O32: each request by its checks and what it stores. -/
theorem derateTableAlertSettingsAndEventFlags : Obligations.DerateTableAlertSettingsAndEventFlags := by
  refine ⟨fun fields s held fit => ⟨fun falls => ?_, fun rises => ?_⟩, fun p threshold m s held => ⟨fun ⟨low, high⟩ => ?_, fun out => ?_⟩,
    fun p s held => ?_⟩
  · have served := serve_taken (owner := some .ops) (p := .ops) (own := setDerateTable fields) held fit rfl
      (if_neg (by rw [(readDerate_falls fields).mpr falls]; decide))
    rwa [length_of_fits fit rfl] at served
  · have not_falls : ¬ fallsWithClass (readDerate fields) = true := by
      rw [readDerate_falls]
      rintro ⟨first, second, falls⟩
      rcases rises with h | h | ⟨j, hj, h⟩
      · omega
      · omega
      · exact absurd (falls j hj) (not_le.mpr h)
    have served := serve_refused (owner := some .ops) (p := .ops) (own := setDerateTable fields) held fit rfl
      (if_pos (by rw [Bool.not_eq_true] at not_falls; rw [not_falls]; rfl))
    rwa [length_of_fits fit rfl] at served
  · have served := serve_taken (owner := none) (p := p) held (fits_setAlert threshold m) rfl (setAlert_stores (p := p) (m := m) low high)
    rwa [length_of_fits (fits_setAlert threshold m) rfl] at served
  · have served := serve_refused (owner := none) (p := p) held (fits_setAlert threshold m) rfl (setAlert_range (p := p) (m := m) out)
    rwa [length_of_fits (fits_setAlert threshold m) rfl] at served
  · refine (serve_taken (owner := none) (fields := []) held rfl rfl rfl).trans ?_
    rw [eventsReport, leadBytes]
    cases s.cdt.lead <;> rfl

end Sys2Proof.Machine

/-! SUPPORT. The state after reset, record by record, and the statement that it meets every property that a step keeps. -/

namespace Sys2Proof.Machine

open Sys2Proof.Safety

set_option Elab.async false

/-! ### The records after reset -/

theorem accountOf_reset (a : Fin 16) : accountOf State.reset a = Account.vacant := nth_fill _ a
theorem hourOf_reset (p : Fin 72) : hourOf State.reset p = HourCell.clear := nth_fill _ p
theorem entryOf_reset (p : Fin 72) (a : Fin 16) : entryOf State.reset p a = HourEntry.clear := by
  rw [entryOf, hourOf_reset]
  exact nth_fill _ a
theorem unitOf_reset (u : Fin 4) : unitOf State.reset u = UnitRecord.initial := nth_fill _ u
theorem slotOf_reset (n : Fin 16) : slotOf State.reset n = Slot.initial n := nth_tab _ n

theorem held_reset (a : Fin 16) : (accountOf State.reset a).held ≠ true := by
  rw [accountOf_reset]
  decide

/-! ### What a step keeps -/

/-- Condition 53 alone is Active at a level, 7 (R77). -/
theorem reset_classFormed : ClassFormed State.reset := by
  have lead : formLead State.reset.cdt.conditions = some 53 := by
    rw [formLead_eq_some_iff]
    simp only [condition_reset]
    decide
  refine ⟨?_, lead.symm⟩
  rw [formClass_eq, lead, leadLevel, condition_reset]
  rfl

/-- All inventories, the suspense balance and the book inventory are 0 (R137, R139). -/
theorem reset_books : BooksBalance State.reset := by
  have total : isTotal 0 := by unfold isTotal; decide
  refine ⟨fun a _ => by rw [accountOf_reset]; rfl, total, total, ?_⟩
  have none : (sumInt fun a : Fin 16 => (accountOf State.reset a).inventory) = 0 := by
    rw [sumInt_eq]
    exact Finset.sum_eq_zero fun a _ => by rw [accountOf_reset]; rfl
  rw [none]
  rfl

theorem reset_rows : RowsKept State.reset := by
  intro p
  refine ⟨fun _ a => by rw [entryOf_reset]; rfl, fun a _ => by rw [entryOf_reset]; rfl, fun closed => ?_⟩
  rw [hourOf_reset] at closed
  cases closed

/-- No slot is enabled, and the queue is empty (R30, R38). -/
theorem reset_queueKept : QueueKept State.reset := by
  have idle : State.reset.fsu.engine = .idle := rfl
  refine ⟨.nil, List.nodup_nil, fun n => iff_of_false (fun polled => polled.1 ?_) ?_, fun n _ => List.not_mem_nil, fun f hf => ?_⟩
  · rw [slotOf_reset]
    rfl
  · exact fun h => h.elim List.not_mem_nil (not_inFlightFor_of_idle idle n)
  · rw [idle] at hf
    cases hf

/-- Settles O53, property by property. -/
theorem resetStateIsSound : Obligations.ResetStateIsSound where
  classFormed := reset_classFormed
  books := reset_books
  codes := ⟨fun a h => absurd h (held_reset a), fun a _ h => absurd h (held_reset a)⟩
  rows := reset_rows
  laws a h := absurd h (held_reset a)
  queue := reset_queueKept
  oneStarting u _ h := by
    rw [unitOf_reset] at h
    cases h
  runs _ u := by
    rw [unitOf_reset]
    decide
  clock := ⟨by decide, by decide, by decide, nofun⟩
  history := Nat.zero_le _
  settings := resetState_inRange

end Sys2Proof.Machine

/-! SUPPORT. Largest remainder (R168): what a share is, that the shares add to the target, and that none exceeds its basis. -/

namespace Sys2Proof.Machine

open Sys2Proof.Safety

set_option Elab.async false

/-! ### Ranks in an order -/

theorem countFin_eq {n : Nat} (p : Fin n → Bool) : countFin p = (Finset.univ.filter fun i => p i = true).card := by
  rw [countFin, sumNat_eq, Finset.card_filter]

section
variable {ι α : Type} [LinearOrder α] {P : Finset ι} {key : ι → α}

/-- The place of `i` in the order of a key: how many members of the set stand before it. -/
abbrev rankIn (P : Finset ι) (key : ι → α) (i : ι) : Nat := (P.filter fun j => key j < key i).card

theorem rankIn_lt_card {i : ι} (hi : i ∈ P) : rankIn P key i < P.card :=
  Finset.card_lt_card ((Finset.ssubset_iff_of_subset (Finset.filter_subset _ P)).mpr
    ⟨i, hi, fun mem => lt_irrefl _ (Finset.mem_filter.mp mem).2⟩)

theorem rankIn_lt_rankIn {i j : ι} (hi : i ∈ P) (h : key i < key j) : rankIn P key i < rankIn P key j := by
  have more : (P.filter fun m => key m < key i) ⊆ P.filter fun m => key m < key j :=
    Finset.monotone_filter_right P fun m _ hm => hm.trans h
  exact Finset.card_lt_card ((Finset.ssubset_iff_of_subset more).mpr
    ⟨i, Finset.mem_filter.mpr ⟨hi, h⟩, fun mem => lt_irrefl _ (Finset.mem_filter.mp mem).2⟩)

theorem rankIn_injOn (inj : Function.Injective key) : Set.InjOn (rankIn P key) P := by
  intro i hi j hj same
  by_contra apart
  rcases lt_or_gt_of_ne fun e => apart (inj e) with h | h
  · exact absurd same (rankIn_lt_rankIn hi h).ne
  · exact absurd same (rankIn_lt_rankIn hj h).ne'

/-- The places are those from 0 to below the number of members. -/
theorem image_rankIn (inj : Function.Injective key) : P.image (rankIn P key) = Finset.range P.card := by
  refine Finset.eq_of_subset_of_card_le (fun r hr => ?_) ?_
  · obtain ⟨i, hi, rfl⟩ := Finset.mem_image.mp hr
    exact Finset.mem_range.mpr (rankIn_lt_card hi)
  · rw [Finset.card_range, Finset.card_image_of_injOn (rankIn_injOn inj)]

/-- As many members as `k` stand at a place below `k`. -/
theorem card_rankIn_lt (inj : Function.Injective key) {k : Nat} (hk : k ≤ P.card) :
    (P.filter fun i => rankIn P key i < k).card = k :=
  calc (P.filter fun i => rankIn P key i < k).card
      = ((P.filter fun i => rankIn P key i < k).image (rankIn P key)).card :=
        (Finset.card_image_of_injOn ((rankIn_injOn inj).mono (Finset.coe_subset.mpr (Finset.filter_subset _ P)))).symm
    _ = ((Finset.range P.card).filter fun r => r < k).card := by rw [← image_rankIn inj, Finset.filter_image]
    _ = (Finset.range k).card := by
        congr 1
        ext r
        simp only [Finset.mem_filter, Finset.mem_range]
        omega
    _ = k := Finset.card_range k

end

/-! ### The shares (R168) -/

section
variable (total : Nat) (basis : Vector Nat 16)

/-- Those that take part: the slots with a basis above 0. -/
abbrev participants : Finset (Fin 16) := Finset.univ.filter fun i => 0 < nth basis i

/-- What the first shares leave of the target. -/
abbrev restOf : Nat := total - ∑ i, total * nth basis i / ∑ j, nth basis j

/-- The place of a slot in the order of remainders: a larger remainder first, the lower slot among equals. -/
def remainderKey (remainder : Vector Nat 16) (i : Fin 16) : Natᵒᵈ ×ₗ Fin 16 := toLex (OrderDual.toDual (nth remainder i), i)

theorem remainderKey_injective (remainder : Vector Nat 16) : Function.Injective (remainderKey remainder) :=
  fun _ _ h => congrArg Prod.snd (toLex.injective h)

theorem remainderBefore_iff (remainder : Vector Nat 16) (i j : Fin 16) :
    remainderBefore remainder j i = true ↔ remainderKey remainder j < remainderKey remainder i := by
  rw [remainderKey, remainderKey, Prod.Lex.toLex_lt_toLex, OrderDual.toDual_lt_toDual, OrderDual.toDual_inj]
  simp only [remainderBefore, Bool.or_eq_true, Bool.and_eq_true, decide_eq_true_eq]

theorem remainderRank_eq (remainder : Vector Nat 16) (i : Fin 16) :
    remainderRank basis remainder i
      = rankIn (participants basis) (remainderKey remainder) i := by
  rw [remainderRank, countFin_eq, rankIn, Finset.filter_filter]
  simp only [Bool.and_eq_true, decide_eq_true_eq, remainderBefore_iff]

/-- The remainders of the first shares. -/
abbrev remaindersOf : Vector Nat 16 := each basis fun b => total * b % ∑ j, nth basis j

theorem nth_largestRemainder (i : Fin 16) :
    nth (largestRemainder total basis) i =
      if nth basis i = 0 then 0
      else total * nth basis i / (∑ j, nth basis j)
        + if remainderRank basis (remaindersOf total basis) i < restOf total basis then 1 else 0 := by
  simp only [largestRemainder, nth_tab, nth_each, sumNat_eq]

variable {total basis}

/-- The rest is shared out among the remainders: there are at least as many participants as units of it. -/
theorem restOf_le (h : 0 < ∑ j, nth basis j) : restOf total basis ≤ (participants basis).card := by
  have parts : ∑ i, total * nth basis i = total * ∑ j, nth basis j := (Finset.mul_sum ..).symm
  generalize hw : ∑ j, nth basis j = weight at h parts
  have split : (∑ i, total * nth basis i / weight) * weight + ∑ i, total * nth basis i % weight = total * weight := by
    rw [← parts, Finset.sum_mul, ← Finset.sum_add_distrib]
    exact Finset.sum_congr rfl fun i _ => Nat.div_add_mod' _ _
  have small : ∑ i, total * nth basis i % weight ≤ (participants basis).card * weight := by
    have zero : ∀ i ∈ Finset.univ, i ∉ participants basis → total * nth basis i % weight = 0 := by
      intro i _ out
      rw [Finset.mem_filter, not_and] at out
      rw [Nat.eq_zero_of_not_pos (out (Finset.mem_univ i)), Nat.mul_zero, Nat.zero_mod]
    rw [← Finset.sum_subset (Finset.filter_subset _ _) zero, ← smul_eq_mul]
    exact Finset.sum_le_card_nsmul _ _ _ fun i _ => (Nat.mod_lt _ h).le
  rw [restOf, hw]
  refine Nat.le_of_mul_le_mul_right ?_ h
  rw [Nat.sub_mul]
  omega

/-- The shares add to the target (R168). -/
theorem sum_largestRemainder (h : 0 < ∑ j, nth basis j) : ∑ i, nth (largestRemainder total basis) i = total := by
  have within : ∑ i, total * nth basis i / ∑ j, nth basis j ≤ total := by
    refine Nat.le_of_mul_le_mul_right ?_ h
    rw [Finset.sum_mul, Finset.mul_sum]
    exact Finset.sum_le_sum fun i _ => Nat.div_mul_le_self _ _
  have units : (∑ i, if 0 < nth basis i ∧ remainderRank basis (remaindersOf total basis) i < restOf total basis then 1 else 0)
      = restOf total basis := by
    rw [← Finset.card_filter, ← Finset.filter_filter]
    simp only [remainderRank_eq]
    exact card_rankIn_lt (remainderKey_injective _) (restOf_le h)
  have share (i : Fin 16) : nth (largestRemainder total basis) i
      = total * nth basis i / (∑ j, nth basis j)
        + if 0 < nth basis i ∧ remainderRank basis (remaindersOf total basis) i < restOf total basis then 1 else 0 := by
    rw [nth_largestRemainder]
    split
    · next none => simp [none]
    · next some => simp only [Nat.pos_of_ne_zero some, true_and]
  rw [Finset.sum_congr rfl fun i _ => share i, Finset.sum_add_distrib, units]
  exact Nat.add_sub_cancel' within

/-- No share exceeds its basis when the target does not exceed the sum of the bases (R168). -/
theorem largestRemainder_le (h : total ≤ ∑ j, nth basis j) (i : Fin 16) : nth (largestRemainder total basis) i ≤ nth basis i := by
  rw [nth_largestRemainder]
  split
  · exact Nat.zero_le _
  · next some =>
    have pos : 0 < ∑ j, nth basis j :=
      (Nat.pos_of_ne_zero some).trans_le (Finset.single_le_sum (f := nth basis) (fun _ _ => Nat.zero_le _) (Finset.mem_univ i))
    rcases h.eq_or_lt with whole | less
    · have exact (j : Fin 16) : total * nth basis j / (∑ j, nth basis j) = nth basis j := by rw [whole, Nat.mul_div_cancel_left _ pos]
      have rest : restOf total basis = 0 := by rw [restOf, Finset.sum_congr rfl fun j _ => exact j, whole, Nat.sub_self]
      rw [exact, rest]
      simp
    · have below : total * nth basis i / (∑ j, nth basis j) < nth basis i := by
        rw [Nat.div_lt_iff_lt_mul pos, Nat.mul_comm]
        exact (Nat.mul_lt_mul_left (Nat.pos_of_ne_zero some)).mpr less
      split <;> omega

end

end Sys2Proof.Machine

/-! SUPPORT. The curtailment of an hour (R167): what it gives each slot, that its net lies within the capacities, and that it lowers
quantities only in magnitude. -/

namespace Sys2Proof.Machine

open Sys2Proof.Safety

set_option Elab.async false

section
variable (q : Vector Int 16) (injection withdrawal : Nat)

/-! ### What each slot gets -/

/-- The shares of the injectors when the net lies above the injection capacity. -/
abbrev injectorShares : Vector Nat 16 :=
  largestRemainder (sumNat (nth (positives q)) - (sumInt (nth q) - injection).toNat) (positives q)

/-- The shares of the withdrawers when the net lies below minus the withdrawal capacity. -/
abbrev withdrawerShares : Vector Nat 16 :=
  largestRemainder (sumNat (nth (negatives q)) - (-sumInt (nth q) - withdrawal).toNat) (negatives q)

variable {q injection withdrawal}

theorem nth_curtail_above (h : (injection : Int) < sumInt (nth q)) (a : Fin 16) :
    nth (curtail q injection withdrawal) a = if 0 < nth q a then ((nth (injectorShares q injection) a : Nat) : Int) else nth q a := by
  unfold curtail
  dsimp only
  rw [if_pos h, nth_tab]

theorem nth_curtail_below (h : sumInt (nth q) < -(withdrawal : Int)) (a : Fin 16) :
    nth (curtail q injection withdrawal) a = if nth q a < 0 then -((nth (withdrawerShares q withdrawal) a : Nat) : Int) else nth q a := by
  unfold curtail
  dsimp only
  rw [if_neg (by omega), if_pos h, nth_tab]

theorem curtail_within (above : sumInt (nth q) ≤ injection) (below : -(withdrawal : Int) ≤ sumInt (nth q)) :
    curtail q injection withdrawal = q := by
  unfold curtail
  dsimp only
  rw [if_neg (not_lt.mpr above), if_neg (not_lt.mpr below)]

/-- The net lies above the capacities, below them, or within (R167). -/
theorem net_cases (q : Vector Int 16) (injection withdrawal : Nat) :
    (injection : Int) < sumInt (nth q) ∨ sumInt (nth q) < -(withdrawal : Int)
      ∨ (sumInt (nth q) ≤ injection ∧ -(withdrawal : Int) ≤ sumInt (nth q)) := by omega

/-- The curtailment gives every slot what R167 says. -/
theorem curtailed_curtail (q : Vector Int 16) (injection withdrawal : Nat) (a : Fin 16) :
    curtailed q injection withdrawal a (nth (curtail q injection withdrawal) a) := by
  rcases net_cases q injection withdrawal with above | below | ⟨top, bottom⟩
  · rw [nth_curtail_above above]
    exact ⟨fun h => if_pos h.2, fun h => by omega, fun h _ => if_neg (by omega)⟩
  · rw [nth_curtail_below below]
    exact ⟨fun h => by omega, fun h => if_pos h.2, fun _ h => if_neg (by omega)⟩
  · rw [curtail_within top bottom]
    exact ⟨fun h => by omega, fun h => by omega, fun _ _ => rfl⟩

/-! ### Shares in place of quantities -/

theorem nth_positives (q : Vector Int 16) (a : Fin 16) : nth (positives q) a = (nth q a).toNat := nth_each _ _ a

theorem nth_negatives (q : Vector Int 16) (a : Fin 16) : nth (negatives q) a = (-nth q a).toNat := nth_each _ _ a

theorem nth_eq_parts (q : Vector Int 16) (a : Fin 16) : nth q a = ((nth (positives q) a : Nat) : Int) - ((nth (negatives q) a : Nat) : Int) := by
  rw [nth_positives, nth_negatives]
  omega


theorem sumInt_sub_of_nth_eq {v : Vector Int 16} {x y : Vector Nat 16} (h : ∀ a, nth v a = ((nth x a : Nat) : Int) - ((nth y a : Nat) : Int)) :
    sumInt (nth v) = ((sumNat (nth x) : Nat) : Int) - ((sumNat (nth y) : Nat) : Int) := by
  rw [sumInt_eq, sumNat_eq, sumNat_eq, Nat.cast_sum, Nat.cast_sum, ← Finset.sum_sub_distrib]
  exact Finset.sum_congr rfl fun a _ => h a

/-- No injector's share exceeds what it would inject (R168). -/
theorem injectorShares_le (q : Vector Int 16) (injection : Nat) (a : Fin 16) : nth (injectorShares q injection) a ≤ (nth q a).toNat :=
  (largestRemainder_le (by rw [sumNat_eq]; exact Nat.sub_le _ _) a).trans_eq (nth_positives q a)

/-- No withdrawer's share exceeds what it would withdraw (R168). -/
theorem withdrawerShares_le (q : Vector Int 16) (withdrawal : Nat) (a : Fin 16) :
    nth (withdrawerShares q withdrawal) a ≤ (-nth q a).toNat :=
  (largestRemainder_le (by rw [sumNat_eq]; exact Nat.sub_le _ _) a).trans_eq (nth_negatives q a)

/-- The shares of what a group has in all less some excess add to that rest (R168). -/
theorem sum_shares (basis : Vector Nat 16) {excess : Nat} (h : 0 < sumNat (nth basis)) :
    sumNat (nth (largestRemainder (sumNat (nth basis) - excess) basis)) = sumNat (nth basis) - excess := by
  rw [sumNat_eq] at h ⊢
  exact sum_largestRemainder h

/-- Above the injection capacity the shares stand in the place of the injections. -/
theorem nth_curtail_injectors (h : (injection : Int) < sumInt (nth q)) (a : Fin 16) :
    nth (curtail q injection withdrawal) a = ((nth (injectorShares q injection) a : Nat) : Int) - ((nth (negatives q) a : Nat) : Int) := by
  have share := injectorShares_le q injection a
  rw [nth_curtail_above h, nth_negatives]
  split <;> omega

/-- Below minus the withdrawal capacity the shares stand in the place of the withdrawals. -/
theorem nth_curtail_withdrawers (h : sumInt (nth q) < -(withdrawal : Int)) (a : Fin 16) :
    nth (curtail q injection withdrawal) a = ((nth (positives q) a : Nat) : Int) - ((nth (withdrawerShares q withdrawal) a : Nat) : Int) := by
  have share := withdrawerShares_le q withdrawal a
  rw [nth_curtail_below h, nth_positives]
  split <;> omega

/-! ### The net after, and the quantities after -/

/-- After the curtailment the net lies within the capacities (R167). -/
theorem sumInt_curtail (q : Vector Int 16) (injection withdrawal : Nat) :
    sumInt (nth (curtail q injection withdrawal)) ≤ injection
      ∧ -(withdrawal : Int) ≤ sumInt (nth (curtail q injection withdrawal)) := by
  have parts := sumInt_sub_of_nth_eq (nth_eq_parts q)
  rcases net_cases q injection withdrawal with above | below | ⟨top, bottom⟩
  · rw [sumInt_sub_of_nth_eq (nth_curtail_injectors above), sum_shares _ (by omega)]
    omega
  · rw [sumInt_sub_of_nth_eq (nth_curtail_withdrawers below), sum_shares _ (by omega)]
    omega
  · rw [curtail_within top bottom]
    exact ⟨top, bottom⟩

/-- From `x` to `y` a quantity is lowered at most, and only in magnitude. -/
def lowersTo (x y : Int) : Prop := (0 ≤ x → 0 ≤ y ∧ y ≤ x) ∧ (x ≤ 0 → x ≤ y ∧ y ≤ 0)

/-- The curtailment lowers quantities only in magnitude (R167). -/
theorem lowersTo_curtail (q : Vector Int 16) (injection withdrawal : Nat) (a : Fin 16) :
    lowersTo (nth q a) (nth (curtail q injection withdrawal) a) := by
  unfold lowersTo
  rcases net_cases q injection withdrawal with above | below | ⟨top, bottom⟩
  · have share := injectorShares_le q injection a
    rw [nth_curtail_above above]
    split <;> omega
  · have share := withdrawerShares_le q withdrawal a
    rw [nth_curtail_below below]
    split <;> omega
  · rw [curtail_within top bottom]
    omega

/-- A quantity lowered at most in magnitude is lowered when it differs. -/
theorem lowered_eq {x y : Int} (h : lowersTo x y) : lowered x y = decide (y ≠ x) := by
  unfold lowersTo at h
  rw [lowered, decide_eq_decide]
  omega

end

end Sys2Proof.Machine

/-! SUPPORT. What a report makes of the condition table, and a re-firm of the hours (O50). -/

namespace Sys2Proof.Machine

open Sys2Proof.Safety

set_option Elab.async false

/-! ### A report (R64, R65, R70) -/

theorem follow_of_same {c : Cdt} {n : Fin 56} {active : Bool} (h : (nth c.conditions n).active = active) : c.follow n active = c :=
  if_pos h

theorem follow_of_changed {c : Cdt} {n : Fin 56} {active : Bool} (h : (nth c.conditions n).active ≠ active) :
    c.follow n active = Cdt.formAgain { c with conditions := alter c.conditions n fun e => if active then e.rise else e.fall } :=
  if_neg h

/-- The Active item follows the report, and a rise at a level of 1 or more sets both pendings (R65). -/
theorem rise_or_fall (active : Bool) (e : Condition) :
    (if active then e.rise else e.fall) =
      { e with
        active := active
        pendingOps := e.pendingOps || (active && decide (1 ≤ e.level))
        pendingCom := e.pendingCom || (active && decide (1 ≤ e.level)) } := by
  cases active
  · simp [Condition.fall]
  · simp [Condition.rise]

/-- A report that changes the Active item alters that condition alone, and the class and the lead are formed again (R64, R65, R69). -/
theorem follow_changed {c : Cdt} {n : Fin 56} {active : Bool} (h : (nth c.conditions n).active ≠ active) :
    nth (c.follow n active).conditions n =
        { nth c.conditions n with
          active := active
          pendingOps := (nth c.conditions n).pendingOps || (active && decide (1 ≤ (nth c.conditions n).level))
          pendingCom := (nth c.conditions n).pendingCom || (active && decide (1 ≤ (nth c.conditions n).level)) }
      ∧ (∀ m, m ≠ n → nth (c.follow n active).conditions m = nth c.conditions m)
      ∧ c.follow n active =
        { c with
          conditions := (c.follow n active).conditions
          derateClass := formClass (c.follow n active).conditions
          lead := formLead (c.follow n active).conditions } := by
  rw [follow_of_changed h]
  exact ⟨(nth_alter_same _ _ _).trans (rise_or_fall _ _), fun m hm => nth_alter_other _ _ hm, rfl⟩

/-! ### The hours that a re-firm reaches (R170) -/

section
variable {p : Fin 72} {s : State}

theorem notStarted_iff : notStarted s p = true ↔ ∀ o, openPosition s = some o → o < p := by
  unfold notStarted
  split
  · next o ho => simp only [ho, decide_eq_true_eq, Option.some.injEq, forall_eq']
  · next ho => simp [ho]

theorem refirmReaches_iff :
    refirmReaches s p = true ↔
      (hourOf s p).site.firmed = true ∧ (hourOf s p).site.closed = false ∧ ∀ o, openPosition s = some o → o < p := by
  rw [refirmReaches, firmedUnclosed, Bool.and_eq_true, Bool.and_eq_true, Bool.not_eq_true', notStarted_iff, and_assoc]

theorem hourOf_refirm_unreached
    (h : (hourOf s p).site.firmed = false ∨ (hourOf s p).site.closed = true ∨ ∃ o, openPosition s = some o ∧ p ≤ o) :
    hourOf (refirm s) p = hourOf s p := by
  rcases h with unfirmed | closed | ⟨o, ho, started⟩
  · exact (refirm_refirmed s).stands p (refirmReaches_unfirmed unfirmed)
  · exact (refirm_refirmed s).stands p (refirmReaches_closed closed)
  · exact (refirm_refirmed s).stands p (refirmReaches_started ho started)

/-- The confirmations of an hour, slot by slot. -/
abbrev confirmations (s : State) (p : Fin 72) : Vector Int 16 := tab fun b => confirmedOf s p b

/-- The capacities that a re-firm records for an hour (R170). -/
abbrev refirmedInjection (s : State) (p : Fin 72) : Nat := min (hourOf s p).site.injectionCapacity (injectionCapacity s)

abbrev refirmedWithdrawal (s : State) (p : Fin 72) : Nat := min (hourOf s p).site.withdrawalCapacity (withdrawalCapacity s)

/-- The confirmations that a re-firm gives an hour it reaches (R171). -/
abbrev reconfirmed (s : State) (p : Fin 72) : Vector Int 16 :=
  curtail (confirmations s p) (refirmedInjection s p) (refirmedWithdrawal s p)

theorem lowersTo_reconfirmed (s : State) (p : Fin 72) (a : Fin 16) : lowersTo (confirmedOf s p a) (nth (reconfirmed s p) a) := by
  have lowers := lowersTo_curtail (confirmations s p) (refirmedInjection s p) (refirmedWithdrawal s p) a
  rwa [nth_tab] at lowers

section
variable (h : refirmReaches s p = true)
include h

theorem hourOf_refirm_reached : hourOf (refirm s) p = refirmCell (injectionCapacity s) (withdrawalCapacity s) (hourOf s p) := by
  rw [hourOf_refirm, if_pos h]

/-- A re-firm marks the entries whose confirmation it lowers, and leaves the others (R171). -/
theorem entryOf_refirm_reached (a : Fin 16) :
    entryOf (refirm s) p a =
      if nth (reconfirmed s p) a = confirmedOf s p a then entryOf s p a
      else { entryOf s p a with confirmed := some (nth (reconfirmed s p) a), refirmed := true } := by
  have entry : entryOf (refirm s) p a =
      if lowered (confirmedOf s p a) (nth (reconfirmed s p) a) then
        { entryOf s p a with confirmed := some (nth (reconfirmed s p) a), refirmed := true }
      else entryOf s p a := by
    rw [entryOf, hourOf_refirm_reached h, refirmCell, nth_tab, nth_each]
    rfl
  rw [entry, lowered_eq (lowersTo_reconfirmed s p a)]
  simp only [decide_eq_true_eq, ite_not]

theorem confirmedOf_refirm_reached (a : Fin 16) : confirmedOf (refirm s) p a = nth (reconfirmed s p) a := by
  rw [confirmedOf, entryOf_refirm_reached h]
  split
  · next same => exact same.symm
  · rfl

theorem sumInt_refirm_reached : sumInt (confirmedOf (refirm s) p) = sumInt (nth (reconfirmed s p)) :=
  congrArg sumInt (funext (confirmedOf_refirm_reached h))

theorem net_refirm_reached : (hourOf (refirm s) p).site.net = sumInt (confirmedOf (refirm s) p) := by
  rw [sumInt_refirm_reached h, hourOf_refirm_reached h]
  rfl

/-- The net of a re-firmed hour lies within its capacities (R171). -/
theorem net_within_refirm_reached :
    (hourOf (refirm s) p).site.net ≤ (hourOf (refirm s) p).site.injectionCapacity
      ∧ -((hourOf (refirm s) p).site.withdrawalCapacity : Int) ≤ (hourOf (refirm s) p).site.net := by
  rw [net_refirm_reached h, sumInt_refirm_reached h, hourOf_refirm_reached h]
  exact sumInt_curtail _ _ _

theorem refirmed_refirm_reached :
    (hourOf (refirm s) p).site.refirmed = true ↔
      (hourOf s p).site.refirmed = true ∨ injectionCapacity s < (hourOf s p).site.injectionCapacity
        ∨ withdrawalCapacity s < (hourOf s p).site.withdrawalCapacity := by
  rw [hourOf_refirm_reached h]
  simp only [refirmCell, Bool.or_eq_true, decide_eq_true_eq, min_lt_iff, lt_irrefl, false_or, or_assoc]

/-- Quantities whose net lies within the capacities stand. -/
theorem entryOf_refirm_within (above : sumInt (confirmedOf s p) ≤ refirmedInjection s p)
    (below : -(refirmedWithdrawal s p : Int) ≤ sumInt (confirmedOf s p)) (a : Fin 16) : entryOf (refirm s) p a = entryOf s p a := by
  have net : sumInt (nth (confirmations s p)) = sumInt (confirmedOf s p) := congrArg sumInt (funext (nth_tab _))
  have stands : nth (reconfirmed s p) a = confirmedOf s p a := by
    rw [reconfirmed, curtail_within (net.trans_le above) (below.trans_eq net.symm), nth_tab]
  rw [entryOf_refirm_reached h, if_pos stands]

theorem confirmed_entry_refirm_reached (a : Fin 16) :
    (confirmedOf (refirm s) p a = confirmedOf s p a → entryOf (refirm s) p a = entryOf s p a)
      ∧ (confirmedOf (refirm s) p a ≠ confirmedOf s p a →
        entryOf (refirm s) p a = { entryOf s p a with confirmed := some (confirmedOf (refirm s) p a), refirmed := true }) := by
  rw [confirmedOf_refirm_reached h, entryOf_refirm_reached h]
  exact ⟨fun same => if_pos same, fun differs => if_neg differs⟩

end

/-- In every hour a re-firm lowers confirmations only in magnitude. -/
theorem confirmedOf_refirm_lowers (s : State) (p : Fin 72) (a : Fin 16) : lowersTo (confirmedOf s p a) (confirmedOf (refirm s) p a) := by
  cases h : refirmReaches s p with
  | true =>
    rw [confirmedOf_refirm_reached h]
    exact lowersTo_reconfirmed s p a
  | false =>
    have stands : confirmedOf (refirm s) p a = confirmedOf s p a := by
      rw [confirmedOf, entryOf, (refirm_refirmed s).stands p h]
      rfl
    rw [stands]
    exact ⟨fun pos => ⟨pos, le_rfl⟩, fun neg => ⟨le_rfl, neg⟩⟩

end

/-! ### The flag, the free inventory and the free space (R150, R170) -/

section
variable (s : State)

theorem refirmMarks_iff (p : Fin 72) :
    refirmMarks s p = true ↔
      (hourOf s p).site.firmed = true ∧ (hourOf s p).site.closed = false ∧ (∀ o, openPosition s = some o → o < p)
        ∧ (injectionCapacity s < (hourOf s p).site.injectionCapacity ∨ withdrawalCapacity s < (hourOf s p).site.withdrawalCapacity) := by
  rw [refirmMarks, Bool.and_eq_true, refirmReaches_iff, Bool.or_eq_true, decide_eq_true_eq, decide_eq_true_eq, and_assoc, and_assoc]

theorem refirmFlag_refirm :
    nth (refirm s).cdt.com.flags evRefirmed = true ↔
      nth s.cdt.com.flags evRefirmed = true ∨ ∃ p, refirmMarks s p = true := by
  unfold refirm
  dsimp only
  split
  · next some => simp only [comFlags_setEventCom_same, (someFin_eq_true _).mp some, or_true]
  · next none =>
    rw [someFin_eq_true] at none
    exact (or_iff_left none).symm

theorem firmedUnclosed_refirm : firmedUnclosed (refirm s) = firmedUnclosed s := by
  funext p
  rw [firmedUnclosed, (refirm_refirmed s).firmed, (refirm_refirmed s).closed, firmedUnclosed]

theorem accountOf_refirm : accountOf (refirm s) = accountOf s :=
  accountOf_of_act (refirm_changes s .act (by decide)).symm

theorem withdrawalReserve_refirm_le (a : Fin 16) : withdrawalReserve (refirm s) a ≤ withdrawalReserve s a := by
  rw [withdrawalReserve, withdrawalReserve, firmedUnclosed_refirm, sumInt_eq, sumInt_eq]
  refine Finset.sum_le_sum fun p _ => ?_
  obtain ⟨injects, withdraws⟩ := confirmedOf_refirm_lowers s p a
  split <;> omega

theorem injectionReserve_refirm_le (a : Fin 16) : injectionReserve (refirm s) a ≤ injectionReserve s a := by
  rw [injectionReserve, injectionReserve, firmedUnclosed_refirm, sumInt_eq, sumInt_eq]
  refine Finset.sum_le_sum fun p _ => ?_
  obtain ⟨injects, withdraws⟩ := confirmedOf_refirm_lowers s p a
  split <;> omega

theorem freeInventory_le_refirm (a : Fin 16) : freeInventory s a ≤ freeInventory (refirm s) a := by
  rw [freeInventory, freeInventory, accountOf_refirm]
  exact Int.sub_le_sub_left (withdrawalReserve_refirm_le s a) _

theorem freeSpace_le_refirm (a : Fin 16) : freeSpace s a ≤ freeSpace (refirm s) a := by
  rw [freeSpace, freeSpace, accountOf_refirm]
  exact Int.sub_le_sub_left (injectionReserve_refirm_le s a) _

end

/-- Settles O50: an hour that a re-firm reaches is recorded as `refirmCell` says, and by the facts about the curtailment its net lies
within the capacities and its confirmations are lowered only in magnitude; the reserves are sums of such confirmations. -/
theorem refirmOnlyLowers : Obligations.RefirmOnlyLowers := by
  unfold Obligations.RefirmOnlyLowers
  refine ⟨fun p s => ⟨hourOf_refirm_unreached, fun firmed unclosed ahead => ?_⟩, fun s => ⟨?_, fun a => ?_, refirm_changes s⟩,
    fun n active c => ⟨follow_of_same, follow_changed⟩, fun n active s => ⟨fun h => if_neg (not_lt.mpr h), fun h => if_pos h⟩⟩
  · have reached : refirmReaches s p = true := refirmReaches_iff.mpr ⟨firmed, unclosed, ahead⟩
    have cell := hourOf_refirm_reached reached
    have net := net_refirm_reached reached
    obtain ⟨top, bottom⟩ := net_within_refirm_reached reached
    refine ⟨by rw [cell]; rfl, by rw [cell]; rfl, cell, net, top, bottom, by rw [cell]; rfl, (refirm_refirmed s).firmed p ▸ firmed,
      (refirm_refirmed s).closed p ▸ unclosed, by rw [cell]; rfl, refirmed_refirm_reached reached, fun a => ?_,
      entryOf_refirm_within reached, fun a => ?_⟩
    · rw [confirmedOf_refirm_reached reached]
      exact curtailed_curtail _ _ _ a
    · obtain ⟨injects, withdraws⟩ := confirmedOf_refirm_lowers s p a
      obtain ⟨same, differs⟩ := confirmed_entry_refirm_reached reached a
      exact ⟨injects, withdraws, same, differs⟩
  · rw [refirmFlag_refirm]
    simp only [refirmMarks_iff]
  · exact ⟨freeInventory_le_refirm s a, freeSpace_le_refirm s a⟩

end Sys2Proof.Machine

/-! SUPPORT. The three tests of a changeover, its completion and its overrun, and the statement on the two expiries of a changeover (R59,
R90 to R92). -/

namespace Sys2Proof.Machine

open Sys2Proof.Safety

section
variable {s : State} {c : Changeover} {flow : Flow}

/-! ### The three tests (R59, R90) -/

theorem changeoverComplete_iff :
    changeoverComplete s c = true ↔ minimumPassed s c = true ∧ boundaryQuiet s c.target.other = true ∧ unitsClear s c = true := by
  simp only [changeoverComplete, Bool.and_eq_true, and_assoc]

theorem changeoverComplete_failed (h : minimumPassed s c = false ∨ boundaryQuiet s c.target.other = false ∨ unitsClear s c = false) :
    changeoverComplete s c = false := by
  simpa only [changeoverComplete, Bool.and_eq_false_iff, or_assoc] using h

theorem minimumPassed_iff : minimumPassed s c = true ↔ c.start + s.dir.site.changeoverMinimum * 10 ≤ timeBase s := decide_eq_true_iff

theorem limitPassed_iff : limitPassed s c = true ↔ c.start + s.dir.site.changeoverLimit * 10 ≤ timeBase s := decide_eq_true_iff

theorem inMotion_eq_false {u : UnitRecord} :
    u.inMotion = false ↔ u.state ≠ .starting ∧ u.state ≠ .running ∧ ∀ d, u.state ≠ .stopping d := by
  unfold UnitRecord.inMotion
  cases u.state <;> simp

theorem unitsClear_iff :
    unitsClear s c = true ↔
      c.target = .injecting
        ∨ ∀ u, (unitOf s u).state ≠ .starting ∧ (unitOf s u).state ≠ .running ∧ ∀ d, (unitOf s u).state ≠ .stopping d := by
  unfold unitsClear
  cases c.target with
  | injecting => exact iff_of_true rfl (.inl rfl)
  | withdrawing => simp only [unitsAtRest, allFin_eq_true, Bool.not_eq_true', inMotion_eq_false, reduceCtorEq, false_or]

/-- A boundary point bound to slot `n`, with its record `d` of the direction asked, is read GOOD and fresh below the threshold (R59). -/
abbrev readsQuiet (s : State) (flow : Flow) (n : Fin 16) (d : Direction) : Prop :=
  (channelAt (slotOf s n) (if flow = .injecting then 0 else 1)).quality = .good
    ∧ (channelAt (slotOf s n) 2).quality = .good ∧ (channelAt (slotOf s n) 3).quality = .good
    ∧ d.fresh = true ∧ d.rate * 36 / 10000 < s.dir.site.quietThreshold

theorem directionOf_eq (p : Point) : p.directionOf flow = if flow = .injecting then p.forward else p.reverse := by
  cases flow <;> rfl

theorem quiet_iff {k : Fin 7} (hk : k.val ≤ 1) :
    quiet s k flow = true ↔ ∀ n, (pointOf s k).slot = some n → readsQuiet s flow n ((pointOf s k).directionOf flow) := by
  have reverse : hasReverse k = true := decide_eq_true fun h => by subst h; contradiction
  have counter : counterIndex flow = if flow = .injecting then 0 else 1 := by cases flow <;> rfl
  unfold quiet
  cases (pointOf s k).slot with
  | none => exact iff_of_true rfl nofun
  | some n =>
    simp only [Bool.and_eq_true, decide_eq_true_eq, and_assoc, pressureIndex, temperatureIndex, reverse, if_true, counter,
      Option.some.injEq, forall_eq', readsQuiet]

theorem boundaryQuiet_iff :
    boundaryQuiet s flow = true ↔
      ∀ (k : Fin 7) (n : Fin 16) (d : Direction), k.val ≤ 1 → (pointOf s k).slot = some n →
        d = (if flow = .injecting then (pointOf s k).forward else (pointOf s k).reverse) → readsQuiet s flow n d := by
  have boundary {P : Fin 7 → Prop} : (P 0 ∧ P 1) ↔ ∀ k : Fin 7, k.val ≤ 1 → P k := by
    refine ⟨fun ⟨first, second⟩ k hk => ?_, fun h => ⟨h 0 (by decide), h 1 (by decide)⟩⟩
    obtain rfl | rfl : k = 0 ∨ k = 1 := by omega
    · exact first
    · exact second
  rw [boundaryQuiet, Bool.and_eq_true, boundary (P := fun k => quiet s k flow = true)]
  refine ⟨fun h k n d hk bound hd => ?_, fun h k hk => (quiet_iff hk).mpr fun n bound => h k n _ hk bound (directionOf_eq _)⟩
  rw [hd, ← directionOf_eq]
  exact (quiet_iff hk).mp (h k hk) n bound

/-! ### The completion (R90, R92) -/

/-- The expiry of the minimum is the test of the changeover, whose first test is that the minimum has passed. -/
theorem minimumExpires_changeover (hd : s.dir.direction = .changeover c) :
    minimumExpires s = if changeoverComplete s c then changeDirection c.target.direction s else s := by
  simp only [minimumExpires, hd]
  split
  · cases complete : changeoverComplete s c with
    | true => exact testCompletion_complete hd complete
    | false => exact testCompletion_incomplete hd complete
  · next early =>
    rw [changeoverComplete_failed (.inl (Bool.not_eq_true _ ▸ early))]
    rfl

theorem minimumExpires_settled (h : ∀ c, s.dir.direction ≠ .changeover c) : minimumExpires s = s := by
  unfold minimumExpires
  split
  · next c hc => exact absurd hc (h c)
  · rfl

theorem flowDirection_eq (f : Flow) : f.direction = if f = .injecting then .injecting else .withdrawing := by cases f <;> rfl

@[simp] theorem ops_refirm (s : State) : (refirm s).cdt.ops = s.cdt.ops := by
  unfold refirm
  dsimp only
  split <;> rfl

@[simp] theorem ops_report (n : Fin 56) (a : Bool) (s : State) : (report n a s).cdt.ops = s.cdt.ops := by
  unfold report
  dsimp only
  split
  · exact (ops_refirm _).trans (follow_ops _ n a)
  · exact follow_ops _ n a

theorem directionChanged_changeDirection (new : SiteDirection) (s : State) :
    nth (changeDirection new s).cdt.ops.flags evDirectionChanged = true := by
  rw [changeDirection_eq, ops_report, turned_cdt, opsFlags_setEventOps, if_pos rfl]

theorem overrunFalls_changeDirection (new : SiteDirection) (s : State) : conditionActive (changeDirection new s) condOverrun = false := by
  rw [changeDirection_eq, conditionActive_report, if_pos rfl]

/-- A train that may run as before stays as it is (R128). -/
theorem trainOf_changeDirection_allowed {new : SiteDirection} {d : Fin 2}
    (h : runningAllowed s.dir.direction (trainOf s d) = runningAllowed new (trainOf s d)) :
    trainOf (changeDirection new s) d = trainOf s d := by
  rw [trainOf_congr (changeDirection_dsq new s), trainOf_dryersFollow, trainFollows, h, followAllowed_same]

/-- Where every train may run as before the dryers stay as they are. -/
theorem changeDirection_dsq_allowed {new : SiteDirection}
    (h : ∀ d, runningAllowed s.dir.direction (trainOf s d) = runningAllowed new (trainOf s d)) : (changeDirection new s).dsq = s.dsq := by
  have trains : (changeDirection new s).dsq.trains = s.dsq.trains := table_ext fun d => trainOf_changeDirection_allowed (h d)
  calc (changeDirection new s).dsq = { s.dsq with trains := (changeDirection new s).dsq.trains } := by rw [changeDirection_dsq]; rfl
    _ = s.dsq := by rw [trains]

section
variable (hd : s.dir.direction = .changeover c)
include hd

/-- Into INJECTING the units take its duty evaluation, and the trains stand: neither state allows a train to run that is no standby. -/
theorem changeDirection_into_injecting (ht : c.target = .injecting) :
    (changeDirection c.target.direction s).cpd = (evaluate (s.withDir { s.dir with direction := .injecting })).cpd
      ∧ (changeDirection c.target.direction s).dsq = s.dsq := by
  rw [ht]
  refine ⟨?_, changeDirection_dsq_allowed fun d => by rw [hd]; rfl⟩
  rw [changeDirection_cpd, turnedCpd_of_changeover hd]
  rfl

/-- Into WITHDRAWING the units stand, and so does a train on standby, which may run throughout. -/
theorem changeDirection_into_withdrawing (ht : c.target = .withdrawing) :
    (changeDirection c.target.direction s).cpd = s.cpd
      ∧ ∀ d, (trainOf s d).standby = true → trainOf (changeDirection c.target.direction s) d = trainOf s d := by
  rw [ht]
  refine ⟨?_, fun d standby => trainOf_changeDirection_allowed (by simp [runningAllowed, standby])⟩
  rw [changeDirection_cpd, turnedCpd_of_changeover hd]
  rfl

end

/-! ### The overrun (R91) -/

theorem limitExpires_changeover (hd : s.dir.direction = .changeover c) :
    limitExpires s = if limitPassed s c ∧ c.overrun = false then overrun c s else s := by
  simp only [limitExpires, hd]

theorem limitExpires_settled (h : ∀ c, s.dir.direction ≠ .changeover c) : limitExpires s = s := by
  unfold limitExpires
  split
  · next c hc => exact absurd hc (h c)
  · rfl

theorem overrun_dir (c : Changeover) (s : State) :
    (overrun c s).dir = { s.dir with direction := .changeover { c with overrun := true } } :=
  ((report_changes condOverrun true _) .dir (by decide)).symm

theorem overrun_active (c : Changeover) (s : State) : conditionActive (overrun c s) condOverrun = true := by
  rw [overrun, conditionActive_report, if_pos rfl]

theorem overrun_changes_dir (c : Changeover) (s : State) : ChangesOnly [.cdt, .dir, .nfu] s (overrun c s) :=
  ((withDir_changes s _).mono (by decide)).trans ((report_changes _ _ _).mono (by decide))

end

/-- Settles O35: the tests one by one, then each expiry in a changeover by what it is a test of, and both outside of one. -/
theorem changeoverCompletesOrOverruns : Obligations.ChangeoverCompletesOrOverruns := by
  refine ⟨fun s c flow => ⟨changeoverComplete_iff, minimumPassed_iff, unitsClear_iff, boundaryQuiet_iff⟩,
    fun s c held hd => ⟨fun passed quiet clear => ?_, fun failed => ?_, fun due fresh => ?_, fun undue => ?_⟩, fun s settled => ?_⟩
  · have complete : changeoverComplete s c = true := changeoverComplete_iff.mpr ⟨passed, quiet, clear⟩
    have turns : minimumExpires s = changeDirection c.target.direction s := by rw [minimumExpires_changeover hd, if_pos complete]
    have direction := changeDirection_direction c.target.direction s
    have dir := changeDirection_dir c.target.direction s
    refine ⟨changeDirection c.target.direction s, ?_, by rw [direction, flowDirection_eq], by rw [direction],
      changeDirection_into_injecting hd, changeDirection_into_withdrawing hd, directionChanged_changeDirection _ s,
      overrunFalls_changeDirection _ s, by rw [dir], by rw [dir], changeDirection_changes _ s⟩
    exact (unlessHeld_released _ held).trans (congrArg _ turns)
  · have stays : minimumExpires s = s := by rw [minimumExpires_changeover hd, changeoverComplete_failed failed]; rfl
    exact (unlessHeld_released _ held).trans (congrArg _ stays)
  · have overruns : limitExpires s = overrun c s := by rw [limitExpires_changeover hd, if_pos ⟨limitPassed_iff.mpr due, fresh⟩]
    exact ⟨_, (unlessHeld_released _ held).trans (congrArg _ overruns), overrun_dir c s, overrun_active c s, overrun_changes_dir c s⟩
  · have stays : limitExpires s = s := by
      rw [limitExpires_changeover hd, if_neg]
      rintro ⟨due, fresh⟩
      rcases undue with early | raised
      · exact absurd (limitPassed_iff.mp due) (not_le.mpr early)
      · rw [fresh] at raised
        cases raised
    exact (unlessHeld_released _ held).trans (congrArg _ stays)
  · have nothing {f : State → State} (stays : f s = s) : unlessHeld f s = .next s := by
      unfold unlessHeld
      rw [stays, ite_self]
    exact ⟨nothing (minimumExpires_settled settled), nothing (limitExpires_settled settled)⟩

end Sys2Proof.Machine

/-! SUPPORT. What SET-SITE makes of a changeover before its duty evaluation, the evaluation after SET-SITE and SET-DUTY, and the statement
on the two requests (R87, R90, R91, R106, R109). -/

namespace Sys2Proof.Machine

open Sys2Proof.Safety

/-! ### The duty evaluation of a request (R105, R106) -/

section
variable {s t : State} {c : Changeover}

theorem demandOf_eq (s : State) :
    demandOf s = if s.dir.direction = .injecting then
        min 4 (((openNet s).toNat + s.dir.site.unitRate - 1) / s.dir.site.unitRate)
      else 0 := by
  split
  · next hd =>
    unfold demandOf
    rw [hd]
    rfl
  · next hd => exact demandOf_other hd

/-- Re-firms reach hours ahead alone: the demand rests on the DIR and the open hour's net. -/
theorem demandOf_refirmed (h : Refirmed s t) : demandOf t = demandOf (s.withDir t.dir) := by
  have net : openNet (s.withDir t.dir) = openNet t := (openNet_refirmed h).symm
  rw [demandOf_eq, demandOf_eq, net]
  rfl

/-- The evaluation after an event that re-firms and turns the DIR, and leaves the units, is the one of the state before it with that DIR. -/
theorem evaluate_cpd_refirmed (h : Refirmed s t) (hfine : t.fine = s.fine) (hcpd : t.cpd = s.cpd) :
    (evaluate t).cpd = (evaluate (s.withDir t.dir)).cpd := by
  have time : timeBase t = timeBase (s.withDir t.dir) := congrArg (· / 100) hfine
  rw [evaluate_eq, evaluate_eq, State.withCpd_cpd, State.withCpd_cpd, demandOf_refirmed h, time, hcpd]
  rfl

theorem atRest_of_run (run : RunOnlyInjecting s) (hd : s.dir.direction ≠ .injecting) : atRest s.cpd := fun u => by
  obtain ⟨starting, running⟩ := run hd u
  simp only [UnitRecord.isActive, unitOf] at starting running ⊢
  simp only [starting, running, decide_false, Bool.or_self]

/-- Where units run only while the site injects, no duty evaluation is an occasion of the DIR. -/
theorem dutyEvaluation_of_run (run : RunOnlyInjecting s) : dutyEvaluation s = evaluate s := by
  by_cases hd : s.dir.direction = .injecting
  · exact dutyEvaluation_settled fun c => by rw [hd]; nofun
  · have rest := atRest_of_run run hd
    rw [dutyEvaluation_atRest rest hd, evaluate_eq, demandOf_other hd, evaluatedCpd_atRest rest]

/-- From units at rest the evaluation that enters INJECTING leaves the one after it nothing to do. -/
theorem evaluate_changeDirection (hd : s.dir.direction = .changeover c) (rest : atRest s.cpd) :
    (evaluate (changeDirection c.target.direction s)).cpd = (evaluate (s.withDir (changeDirection c.target.direction s).dir)).cpd := by
  have turn := changeDirection_turned c.target.direction s
  have fine : (changeDirection c.target.direction s).fine = s.fine := (turn.changes .fine (by decide)).symm
  have cpd := (changeDirection_cpd c.target.direction s).trans (turnedCpd_of_changeover hd _)
  by_cases hi : c.target.direction = .injecting
  · have entered : (changeDirection c.target.direction s).cpd
        = evaluatedCpd (demandOf (changeDirection c.target.direction s)) (timeBase (changeDirection c.target.direction s)) s.cpd := by
      rw [cpd, if_pos hi, demandOf_refirmed turn.toRefirmed, timeBase_turned turn, changeDirection_dir]
    calc (evaluate (changeDirection c.target.direction s)).cpd
        = evaluatedCpd (demandOf (changeDirection c.target.direction s)) (timeBase (changeDirection c.target.direction s))
            (changeDirection c.target.direction s).cpd := rfl
      _ = evaluatedCpd (demandOf (changeDirection c.target.direction s)) (timeBase (changeDirection c.target.direction s)) s.cpd := by
          rw [entered, evaluatedCpd_twice rest]
      _ = (evaluate (s.withDir (changeDirection c.target.direction s).dir)).cpd := by
          rw [demandOf_refirmed turn.toRefirmed, timeBase_turned turn]
          rfl
  · exact evaluate_cpd_refirmed turn.toRefirmed fine (cpd.trans (if_neg hi))

/-- The shortfall is what the active units leave of the demand (R106). -/
abbrev shortfallFormed (c : Cpd) : Prop := c.shortfall = c.demand - activeUnits c

theorem shortfallFormed_testCompletion (h : shortfallFormed s.cpd) : shortfallFormed (testCompletion s).cpd := by
  unfold testCompletion
  split
  · next c hd =>
    split
    · rw [changeDirection_cpd, turnedCpd_of_changeover hd]
      split
      · rfl
      · exact h
    · exact h
  · exact h

theorem shortfallFormed_dutyEvaluation (s : State) : shortfallFormed (dutyEvaluation s).cpd := by
  unfold dutyEvaluation unitsReported
  split
  · rfl
  · exact shortfallFormed_testCompletion (s := evaluate s) rfl

/-- A changeover that a duty evaluation leaves going on, it has not touched. -/
theorem dutyEvaluation_goesOn {c' : Changeover} (hd : s.dir.direction = .changeover c)
    (h : (dutyEvaluation s).dir.direction = .changeover c') : dutyEvaluation s = evaluate s := by
  rcases unitsReported_cases (before := s) (after := evaluate s) hd with ⟨same, -⟩ | ⟨completes, -⟩
  · exact same
  · rw [dutyEvaluation, completes, changeDirection_direction] at h
    exact absurd h (direction_ne_changeover _ _)

end

/-! ### What SET-SITE makes of a changeover (R87, R90, R91) -/

theorem overrun_turned (c : Changeover) (s : State) : Turned s (overrun c s) where
  toRefirmed :=
    have marked : Refirmed s (s.withDir { s.dir with direction := .changeover { c with overrun := true } }) := .of_eq rfl rfl rfl rfl
    marked.trans (report_refirmed condOverrun true _)
  changes := overrun_changes c s
  conditions n hn := by
    rw [overrun, conditionActive_report, if_neg hn]
    rfl
  dir := by rw [overrun_dir]

/-- The site settings replaced. -/
abbrev siteStored (new : SiteSettings) (s : State) : State := s.withDir { s.dir with site := new }

/-- SET-SITE before its duty evaluation: the settings stored, the completion test and the overrun. -/
def siteTaken (new : SiteSettings) (s : State) : State := siteOverruns s.dir.site (siteCompletes s.dir.site (siteStored new s))

/-- SET-SITE tests a changeover when it changes the minimum or the quiet threshold (R90). -/
abbrev siteTested (new : SiteSettings) (s : State) : Prop :=
  s.dir.site.changeoverMinimum ≠ new.changeoverMinimum ∨ s.dir.site.quietThreshold ≠ new.quietThreshold

/-- SET-SITE lowers the limit to or below the time that changeover `c` has taken (R91). -/
abbrev siteLimits (new : SiteSettings) (c : Changeover) (s : State) : Prop :=
  new.changeoverLimit < s.dir.site.changeoverLimit ∧ c.start + new.changeoverLimit * 10 ≤ timeBase s

section
variable {new : SiteSettings} {s : State} {c : Changeover}

theorem storeSite_eq (new : SiteSettings) (s : State) : storeSite new s = dutyEvaluation (siteTaken new s) := rfl

theorem siteCompletes_settled {old : SiteSettings} (h : ∀ c, s.dir.direction ≠ .changeover c) : siteCompletes old s = s := by
  unfold siteCompletes
  rw [testCompletion_settled h, ite_self]

theorem siteOverruns_settled {old : SiteSettings} (h : ∀ c, s.dir.direction ≠ .changeover c) : siteOverruns old s = s := by
  unfold siteOverruns
  split
  · next c hc => exact absurd hc (h c)
  · rfl

theorem siteTaken_settled (h : ∀ c, s.dir.direction ≠ .changeover c) : siteTaken new s = siteStored new s := by
  rw [siteTaken, siteCompletes_settled (s := siteStored new s) h, siteOverruns_settled (s := siteStored new s) h]

theorem siteCompletes_changeover (hd : s.dir.direction = .changeover c) :
    siteCompletes s.dir.site (siteStored new s) =
      if siteTested new s ∧ changeoverComplete (siteStored new s) c = true then changeDirection c.target.direction (siteStored new s)
      else siteStored new s := by
  have going : (siteStored new s).dir.direction = .changeover c := hd
  unfold siteCompletes
  by_cases tested : siteTested new s
  · rw [if_neg (by rw [not_and_or]; exact tested)]
    cases complete : changeoverComplete (siteStored new s) c with
    | true => rw [testCompletion_complete going complete, if_pos ⟨tested, rfl⟩]
    | false => rw [testCompletion_incomplete going complete, if_neg (fun h => Bool.false_ne_true h.2)]
  · have same : s.dir.site.changeoverMinimum = new.changeoverMinimum ∧ s.dir.site.quietThreshold = new.quietThreshold := by
      simpa only [siteTested, ne_eq, not_or, not_not] using tested
    exact (if_pos same).trans (if_neg fun h => tested h.1).symm

/-- All that SET-SITE can make of a changeover: it completes it, overruns it or keeps it. -/
theorem siteTaken_cases (new : SiteSettings) (hd : s.dir.direction = .changeover c) :
    ((siteTested new s ∧ changeoverComplete (siteStored new s) c = true)
        ∧ siteTaken new s = changeDirection c.target.direction (siteStored new s))
      ∨ (¬(siteTested new s ∧ changeoverComplete (siteStored new s) c = true)
        ∧ ((siteLimits new c s ∧ c.overrun = false ∧ siteTaken new s = overrun c (siteStored new s))
          ∨ ((siteLimits new c s → c.overrun = true) ∧ siteTaken new s = siteStored new s))) := by
  by_cases completes : siteTested new s ∧ changeoverComplete (siteStored new s) c = true
  · refine .inl ⟨completes, ?_⟩
    rw [siteTaken, siteCompletes_changeover hd, if_pos completes]
    exact siteOverruns_settled fun d => by rw [changeDirection_direction]; exact direction_ne_changeover _ d
  · refine .inr ⟨completes, ?_⟩
    have judged : siteTaken new s =
        if new.changeoverLimit < s.dir.site.changeoverLimit ∧ limitPassed (siteStored new s) c = true ∧ c.overrun = false then
          overrun c (siteStored new s)
        else siteStored new s := by
      rw [siteTaken, siteCompletes_changeover hd, if_neg completes]
      simp only [siteOverruns, State.withDir_dir, hd]
    have limits : limitPassed (siteStored new s) c = true ↔ c.start + new.changeoverLimit * 10 ≤ timeBase s := limitPassed_iff
    by_cases overruns : siteLimits new c s ∧ c.overrun = false
    · obtain ⟨⟨lowered, spent⟩, fresh⟩ := overruns
      exact .inl ⟨⟨lowered, spent⟩, fresh, judged.trans (if_pos ⟨lowered, limits.mpr spent, fresh⟩)⟩
    · refine .inr ⟨fun h => Bool.of_not_eq_false fun fresh => overruns ⟨h, fresh⟩, judged.trans (if_neg ?_)⟩
      exact fun ⟨lowered, spent, fresh⟩ => overruns ⟨⟨lowered, limits.mp spent⟩, fresh⟩

/-! ### What SET-SITE leaves (R87, R90, R91, R106) -/

theorem siteTaken_turned (new : SiteSettings) (s : State) : Turned (siteStored new s) (siteTaken new s) := by
  by_cases settled : ∀ c, s.dir.direction ≠ .changeover c
  · rw [siteTaken_settled settled]
    exact .refl _
  · push Not at settled
    obtain ⟨c, hd⟩ := settled
    rcases siteTaken_cases new hd with ⟨-, taken⟩ | ⟨-, ⟨-, -, taken⟩ | ⟨-, taken⟩⟩ <;> rw [taken]
    · exact changeDirection_turned _ _
    · exact overrun_turned _ _
    · exact .refl _

theorem storeSite_dir (new : SiteSettings) (s : State) :
    (storeSite new s).dir = { s.dir with site := new, direction := (storeSite new s).dir.direction } :=
  ((siteTaken_turned new s).trans (dutyEvaluation_turned _)).dir

theorem storeSite_settled (h : ∀ c, s.dir.direction ≠ .changeover c) : storeSite new s = evaluate (siteStored new s) := by
  rw [storeSite_eq, siteTaken_settled h, dutyEvaluation_settled (s := siteStored new s) h]

theorem storeSite_completed (h : siteTaken new s = changeDirection c.target.direction (siteStored new s)) :
    storeSite new s = evaluate (changeDirection c.target.direction (siteStored new s)) := by
  rw [storeSite_eq, h, dutyEvaluation_settled]
  exact fun d => by rw [changeDirection_direction]; exact direction_ne_changeover _ d

theorem overrun_cpd (c : Changeover) (s : State) : (overrun c s).cpd = s.cpd := ((overrun_changes_dir c s) .cpd (by decide)).symm

theorem storeSite_direction (new : SiteSettings) (hd : s.dir.direction = .changeover c) :
    (storeSite new s).dir.direction =
      if (siteTested new s ∧ changeoverComplete (siteStored new s) c = true)
          ∨ ((∃ u, (unitOf (storeSite new s) u).state ≠ (unitOf s u).state) ∧ changeoverComplete (storeSite new s) c = true) then
        c.target.direction
      else if siteLimits new c s then .changeover { c with overrun := true }
      else .changeover c := by
  rcases siteTaken_cases new hd with ⟨completes, taken⟩ | ⟨not_completes, kept⟩
  · rw [if_pos (.inl completes), storeSite_completed taken]
    exact changeDirection_direction _ _
  · simp only [not_completes, false_or]
    rcases kept with ⟨limits, -, taken⟩ | ⟨raised, taken⟩
    · have units (u : Fin 4) : unitOf s u = unitOf (overrun c (siteStored new s)) u := by rw [unitOf, unitOf, overrun_cpd]; rfl
      have going : (overrun c (siteStored new s)).dir.direction = .changeover { c with overrun := true } := by rw [overrun_dir]
      rw [if_pos limits, storeSite_eq, taken]
      simp only [units]
      exact dutyEvaluation_changeover going
    · have same : (if siteLimits new c s then SiteDirection.changeover { c with overrun := true } else .changeover c) = .changeover c := by
        split
        · next limits => rw [← raised limits]
        · rfl
      rw [same, storeSite_eq, taken]
      exact dutyEvaluation_changeover (s := siteStored new s) hd

/-- Condition 55 stands with a changeover that is kept, and is Active once it overruns. -/
theorem storeSite_overrun (new : SiteSettings) (hd : s.dir.direction = .changeover c) :
    ((storeSite new s).dir.direction = .changeover c → conditionActive (storeSite new s) condOverrun = conditionActive s condOverrun)
      ∧ (c.overrun = false → (storeSite new s).dir.direction = .changeover { c with overrun := true } →
          conditionActive (storeSite new s) condOverrun = true) := by
  rcases siteTaken_cases new hd with ⟨-, taken⟩ | ⟨-, ⟨-, fresh, taken⟩ | ⟨-, taken⟩⟩
  · have turns : (storeSite new s).dir.direction = c.target.direction := by
      rw [storeSite_completed taken]
      exact changeDirection_direction _ _
    rw [turns]
    exact ⟨fun h => absurd h (direction_ne_changeover _ _), fun _ h => absurd h (direction_ne_changeover _ _)⟩
  · have going : (overrun c (siteStored new s)).dir.direction = .changeover { c with overrun := true } := by rw [overrun_dir]
    rw [storeSite_eq, taken]
    refine ⟨fun h => ?_, fun _ h => ?_⟩
    · rw [dutyEvaluation_goesOn going h] at h
      have raised : c.overrun = true := (congrArg Changeover.overrun (SiteDirection.changeover.inj (going.symm.trans h))).symm
      rw [fresh] at raised
      cases raised
    · rw [dutyEvaluation_goesOn going h]
      exact overrun_active c _
  · have going : (siteStored new s).dir.direction = .changeover c := hd
    rw [storeSite_eq, taken]
    refine ⟨fun h => by rw [dutyEvaluation_goesOn going h]; rfl, fun fresh h => ?_⟩
    rw [dutyEvaluation_goesOn going h] at h
    have raised : c.overrun = true := congrArg Changeover.overrun (SiteDirection.changeover.inj (going.symm.trans h))
    rw [fresh] at raised
    cases raised

/-- Where units run only while the site injects, the CPD takes one duty evaluation under the DIR that SET-SITE leaves. -/
theorem storeSite_cpd (new : SiteSettings) (run : RunOnlyInjecting s) :
    (storeSite new s).cpd = (evaluate (s.withDir (storeSite new s).dir)).cpd := by
  by_cases settled : ∀ c, s.dir.direction ≠ .changeover c
  · rw [storeSite_settled settled]
    rfl
  · push Not at settled
    obtain ⟨c, hd⟩ := settled
    have rest : atRest s.cpd := atRest_of_run run (by rw [hd]; nofun)
    rcases siteTaken_cases new hd with ⟨-, taken⟩ | ⟨-, ⟨-, -, taken⟩ | ⟨-, taken⟩⟩
    · rw [storeSite_completed taken]
      exact evaluate_changeDirection (s := siteStored new s) hd rest
    · have turn := overrun_turned c (siteStored new s)
      have cpd : (overrun c (siteStored new s)).cpd = s.cpd := overrun_cpd c _
      have run' : RunOnlyInjecting (overrun c (siteStored new s)) := fun _ u => by
        rw [unitOf, cpd]
        exact run (by rw [hd]; nofun) u
      rw [storeSite_eq, taken, dutyEvaluation_of_run run']
      exact evaluate_cpd_refirmed (s := siteStored new s) turn.toRefirmed (turn.changes .fine (by decide)).symm cpd
    · have run' : RunOnlyInjecting (siteStored new s) := run
      rw [storeSite_eq, taken, dutyEvaluation_of_run run']
      rfl

end

/-! ### What SET-DUTY leaves (R106, R109) -/

/-- The duty settings replaced. -/
abbrev dutyStored (new : DutySettings) (s : State) : State := s.withCpd { s.cpd with settings := new }

/-- SET-DUTY past its check. -/
abbrev storeDuty (new : DutySettings) (s : State) : State := dutyEvaluation (dutyStored new s)

section
variable (new : DutySettings) (s : State)

theorem storeDuty_changes : ChangesOnly directionBlocks s (storeDuty new s) :=
  ((withCpd_changes s _).mono (by decide)).trans (dutyEvaluation_changes _)

theorem storeDuty_settings : (storeDuty new s).cpd.settings = new :=
  congrArg Settings.duty (settingsOf_dutyEvaluation (s := dutyStored new s))

variable {s}

theorem storeDuty_of_run (run : RunOnlyInjecting s) :
    (storeDuty new s).cpd = (evaluate (dutyStored (storeDuty new s).cpd.settings s)).cpd
      ∧ (storeDuty new s).dir = s.dir := by
  have stands : RunOnlyInjecting (dutyStored new s) := run
  rw [storeDuty_settings, storeDuty, dutyEvaluation_of_run stands]
  exact ⟨rfl, rfl⟩

theorem storeDuty_demand (settled : ∀ c, s.dir.direction ≠ .changeover c) :
    (storeDuty new s).cpd.demand = demandOf s := by
  rw [storeDuty, dutyEvaluation_settled (s := dutyStored new s) settled]
  rfl

end

/-! ### The two requests (R87, R109) -/

section
variable {fields : List Byte} {s : State} (held : heldInReset s = false)
include held

theorem exec_setSite_refused (fit : fits 0x52 fields = true) (out : ¬ siteInRange (readSite fields)) :
    exec (.setSite .ops fields) s = .next (answered .ops 30 .range [0x52] s) := by
  rw [← siteSettings_valid_iff, Bool.not_eq_true] at out
  have served := serve_refused (owner := some .ops) (p := .ops) (own := setSite fields) held fit rfl (if_pos (by rw [out]; rfl))
  rwa [length_of_fits fit rfl] at served

theorem exec_setSite_taken (fit : fits 0x52 fields = true) (valid : siteInRange (readSite fields)) :
    exec (.setSite .ops fields) s = .next (accepted .ops 0x52 28 (storeSite (readSite fields) s)) := by
  rw [← siteSettings_valid_iff] at valid
  have served := serve_taken (owner := some .ops) (p := .ops) (own := setSite fields) held fit rfl (if_neg (by rw [valid]; decide))
  rwa [length_of_fits fit rfl] at served

theorem exec_setDuty_refused (fit : fits 0x60 fields = true) (out : ¬ dutyInRange (readDuty fields)) :
    exec (.setDuty .ops fields) s = .next (answered .ops 10 .range [0x60] s) := by
  rw [← dutySettings_valid_iff, Bool.not_eq_true] at out
  have served := serve_refused (owner := some .ops) (p := .ops) (own := setDuty fields) held fit rfl (if_pos (by rw [out]; rfl))
  rwa [length_of_fits fit rfl] at served

theorem exec_setDuty_taken (fit : fits 0x60 fields = true) (valid : dutyInRange (readDuty fields)) :
    exec (.setDuty .ops fields) s
      = .next (accepted .ops 0x60 8 (storeDuty (readDuty fields) s)) := by
  rw [← dutySettings_valid_iff] at valid
  have served := serve_taken (owner := some .ops) (p := .ops) (own := setDuty fields) held fit rfl (if_neg (by rw [valid]; decide))
  rwa [length_of_fits fit rfl] at served

end

/-- Settles O34: each request by its check, and the stored settings by the duty evaluation that follows them. -/
theorem siteAndDutySettingsAreStored : Obligations.SiteAndDutySettingsAreStored := by
  refine ⟨fun fields s held fit => ⟨exec_setSite_refused held fit, fun valid => ?_⟩,
    fun fields s held fit => ⟨exec_setDuty_refused held fit, fun valid => ?_⟩⟩
  · have changes := storeSite_changes (readSite fields) s
    have dir := storeSite_dir (readSite fields) s
    have site : (storeSite (readSite fields) s).dir.site = readSite fields := by rw [dir]
    have caverns : (storeSite (readSite fields) s).dir.caverns = s.dir.caverns := by rw [dir]
    refine ⟨_, exec_setSite_taken held fit valid, site, caverns, site,
      storeSite_cpd _, shortfallFormed_dutyEvaluation _, fun settled => ?_, fun c hd => storeSite_direction _ hd,
      fun c hd => storeSite_overrun _ hd, accepted_pif (changes .pif (by decide)).symm,
      (changes.mono (by decide)).trans ((accepted_changes _ _ _ _).mono (by decide))⟩
    have evaluated := storeSite_settled (new := readSite fields) settled
    exact ⟨congrArg (·.dir.direction) evaluated, (congrArg (·.cpd.demand) evaluated).trans (demandOf_eq _)⟩
  · have changes := storeDuty_changes (readDuty fields) s
    exact ⟨_, exec_setDuty_taken held fit valid, storeDuty_settings _ s, storeDuty_of_run _, shortfallFormed_dutyEvaluation _,
      storeDuty_demand _, accepted_pif (changes .pif (by decide)).symm,
      (changes.mono (by decide)).trans ((accepted_changes _ _ _ _).mono (by decide))⟩

end Sys2Proof.Machine

/-! SUPPORT. The band of a cavern line by line (R82), what SET-CAVERN makes of its cavern and its condition, and the statement on
SET-CAVERN and SET-CAVERN-INVENTORY (R80, R82, R83, R86). -/

namespace Sys2Proof.Machine

open Sys2Proof.Safety

/-! ### The table of R82 -/

section
variable {c : Cavern} {pressure : Channel}

theorem nextBand_none (h : pressure.quality = .noReading) : nextBand c pressure = .normal := if_pos h

section
variable (read : pressure.quality ≠ .noReading)
include read

theorem nextBand_of_normal (h : c.band = .normal) :
    nextBand c pressure = if (c.pmax : Int) ≤ pressure.value then .high else if pressure.value ≤ c.pmin then .low else .normal := by
  simp only [nextBand, if_neg read, h]

theorem nextBand_of_high (h : c.band = .high) :
    nextBand c pressure =
      if pressure.value ≤ c.pmin then .low else if pressure.value ≤ (c.pmax : Int) - c.hysteresis then .normal else .high := by
  simp only [nextBand, if_neg read, h]

theorem nextBand_of_low (h : c.band = .low) :
    nextBand c pressure =
      if (c.pmax : Int) ≤ pressure.value then .high else if (c.pmin : Int) + c.hysteresis ≤ pressure.value then .normal else .low := by
  simp only [nextBand, if_neg read, h]

end

end

/-! ### SET-CAVERN (R80, R83) -/

/-- A single report of an event is taken as itself, or is none. -/
theorem reportAll_single (r : Fin 56 × Bool) (s : State) : reportAll [r] s = s ∨ reportAll [r] s = report r.1 r.2 s := by
  cases changes : conditionActive s r.1 != r.2 with
  | true =>
    have one : realChanges s [r] = [r] := by rw [realChanges, List.filter_cons, if_pos changes, List.filter_nil]
    exact .inr (by rw [reportAll, one, List.length_singleton, takeReports])
  | false =>
    have none : realChanges s [r] = [] := by rw [realChanges, List.filter_cons, if_neg (Bool.eq_false_iff.mp changes), List.filter_nil]
    exact .inl (by rw [reportAll, none, List.length_nil, takeReports])

theorem reportAll_single_changes (r : Fin 56 × Bool) (s : State) : ChangesOnly [.cdt, .nfu] s (reportAll [r] s) := by
  rcases reportAll_single r s with same | told
  · rw [same]
    exact .refl _ s
  · rw [told]
    exact report_changes _ _ s

/-- Cavern `k` changed by `f`, with its band evaluated. -/
abbrev cavernJudged (k : Fin 4) (f : Cavern → Cavern) (s : State) : State := evaluateBand k (alterCavern k f s)

section
variable (k : Fin 4) (f : Cavern → Cavern) (s : State)

theorem storeCavern_eq : storeCavern k f s = reportAll [bandReport (cavernJudged k f s) k] (cavernJudged k f s) := rfl

theorem storeCavern_blocks : ChangesOnly [.dir, .cdt, .nfu] s (storeCavern k f s) :=
  (((withDir_changes s _).trans (evaluateBand_changes k _)).mono (by decide)).trans ((reportAll_single_changes _ _).mono (by decide))

theorem storeCavern_dir : (storeCavern k f s).dir = (cavernJudged k f s).dir :=
  ((reportAll_single_changes (bandReport (cavernJudged k f s) k) _) .dir (by decide)).symm

theorem cavernOf_storeCavern_same : cavernOf (storeCavern k f s) k = rebanded (cavernPressure s k) (f (cavernOf s k)) := by
  have pressure : cavernPressure (alterCavern k f s) k = cavernPressure s k := rfl
  rw [cavernOf_congr (congrArg Dir.caverns (storeCavern_dir k f s)), cavernOf_evaluateBand, if_pos rfl, pressure, cavernOf_alterCavern_same]

theorem cavernOf_storeCavern_other {j : Fin 4} (h : j ≠ k) : cavernOf (storeCavern k f s) j = cavernOf s j := by
  rw [cavernOf_congr (congrArg Dir.caverns (storeCavern_dir k f s)), cavernOf_evaluateBand, if_neg h, cavernOf_alterCavern_other s f h]

/-- Condition BAND Ck follows the band that is stored (R83). -/
theorem band_storeCavern :
    conditionActive (storeCavern k f s) (condBand k) = decide ((cavernOf (storeCavern k f s) k).band ≠ .normal) := by
  have one : ([bandReport (cavernJudged k f s) k].map Prod.fst).Nodup := List.nodup_singleton _
  rw [cavernOf_congr (congrArg Dir.caverns (storeCavern_dir k f s))]
  exact conditionActive_reportAll one _ List.mem_cons_self

end

/-- The settings that SET-CAVERN carries, stored in a cavern (R80). -/
abbrev cavernSet (service : Bool) (fields : List Byte) (c : Cavern) : Cavern :=
  { c with
    inService := service, pmin := num fields 2 2, pmax := num fields 4 2, hysteresis := num fields 6 2
    injectionRate := num fields 8 4, withdrawalRate := num fields 12 4 }

/-- The settings that SET-CAVERN carries lie in their ranges (R80). -/
abbrev cavernFieldsInRange (fields : List Byte) : Prop :=
  cavernInRange (num fields 2 2) (num fields 4 2) (num fields 6 2) (num fields 8 4) (num fields 12 4)

section
variable {fields : List Byte} {k : Fin 4} {service : Bool} {s : State} (hk : ordinal? 4 (byteAt fields 0) = some k)
  (hv : service? (byteAt fields 1) = some service)
include hk hv

theorem setCavern_range (out : ¬ cavernFieldsInRange fields) : setCavern fields s = .refuse .range := by
  rw [cavernFieldsInRange, ← cavernSettingsValid_iff, Bool.not_eq_true] at out
  simp only [setCavern, hk, hv, out, Bool.not_false, if_true]

theorem setCavern_taken (valid : cavernFieldsInRange fields) :
    setCavern fields s = .taken (storeCavern k (cavernSet service fields) s) [] := by
  rw [cavernFieldsInRange, ← cavernSettingsValid_iff] at valid
  simp only [setCavern, hk, hv, valid, Bool.not_true, Bool.false_eq_true, if_false]

variable (held : heldInReset s = false) (fit : fits 0x50 fields = true)
include held fit

theorem exec_setCavern_refused (out : ¬ cavernFieldsInRange fields) :
    exec (.setCavern .ops fields) s = .next (answered .ops 18 .range [0x50] s) := by
  have served := serve_refused (owner := some .ops) (p := .ops) held fit rfl (setCavern_range hk hv out)
  rwa [length_of_fits fit rfl] at served

theorem exec_setCavern_taken (valid : cavernFieldsInRange fields) :
    exec (.setCavern .ops fields) s = .next (accepted .ops 0x50 16 (storeCavern k (cavernSet service fields) s)) := by
  have served := serve_taken (owner := some .ops) (p := .ops) held fit rfl (setCavern_taken hk hv valid)
  rwa [length_of_fits fit rfl] at served

end

/-! ### SET-CAVERN-INVENTORY (R86) -/

/-- A number that names none of the caverns 1 to 4. -/
theorem ordinal?_outside {n x : Nat} (h : x = 0 ∨ n < x) : ordinal? n x = none := by
  unfold ordinal?
  split
  · rfl
  · exact index?_of_le (by omega)

/-- A record's number, counted from 1, read back. -/
theorem ordinal?_succ {n : Nat} (k : Fin n) : ordinal? n (k.val + 1) = some k := by
  rw [ordinal?, if_neg (Nat.succ_ne_zero _), Nat.add_sub_cancel, index?_val]

/-- The fields of a SET-CAVERN-INVENTORY. -/
abbrev inventoryFields (k : Fin 4) (quantity : Nat) : List Byte := ubytes 1 (k.val + 1) ++ ubytes 4 quantity

section
variable {k : Fin 4} {quantity : Nat} {s : State}

theorem inventoryFields_cavern : ordinal? 4 (byteAt (inventoryFields k quantity) 0) = some k := by
  rw [inventoryFields, byteAt_append_left (by rw [length_ubytes]; decide), byteAt_ubytes (by omega), ordinal?_succ]

theorem inventoryFields_quantity (h : quantity < 2 ^ 32) : num (inventoryFields k quantity) 1 4 = quantity := by
  have place := num_append_right (ubytes 1 (k.val + 1)) (ubytes 4 quantity) 0 4
  rw [length_ubytes] at place
  exact place.trans (num_ubytes h)

theorem setCavernInventory_malformed {fields : List Byte} (h : byteAt fields 0 = 0 ∨ 4 < byteAt fields 0) :
    setCavernInventory fields s = .refuse .malformed := by
  simp only [setCavernInventory, ordinal?_outside h]

theorem setCavernInventory_taken (h : quantity ≤ 4000000000) :
    setCavernInventory (inventoryFields k quantity) s = .taken (alterCavern k (fun c => { c with gas := quantity }) s) [] := by
  simp only [setCavernInventory, inventoryFields_cavern, inventoryFields_quantity (show quantity < 2 ^ 32 by omega)]
  exact if_neg (not_lt.mpr h)

theorem setCavernInventory_range (word : quantity < 2 ^ 32) (h : 4000000000 < quantity) :
    setCavernInventory (inventoryFields k quantity) s = .refuse .range := by
  simp only [setCavernInventory, inventoryFields_cavern, inventoryFields_quantity word]
  exact if_pos h

end

/-- Settles O33: the table of R82 by the band before, then each request by its checks and what it stores. -/
theorem cavernRequestsStoreAndBand : Obligations.CavernRequestsStoreAndBand := by
  refine ⟨fun c pressure => ⟨nextBand_none, fun read => ?_⟩,
    fun fields k service s held fit hk hv => ⟨exec_setCavern_refused hk hv held fit, fun valid => ?_⟩,
    fun fields s held fit outside => ?_, fun k quantity s held word => ⟨fun within => ?_, fun above => ?_⟩⟩
  · refine ⟨fun was high => ?_, fun was below low => ?_, fun was below above => ?_, fun was low => ?_, fun was above back => ?_,
      fun was above near => ?_, fun was high => ?_, fun was below back => ?_, fun was below under => ?_⟩
    · rw [nextBand_of_normal read was, if_pos high]
    · rw [nextBand_of_normal read was, if_neg (not_le.mpr below), if_pos low]
    · rw [nextBand_of_normal read was, if_neg (not_le.mpr below), if_neg (not_le.mpr above)]
    · rw [nextBand_of_high read was, if_pos low]
    · rw [nextBand_of_high read was, if_neg (not_le.mpr above), if_pos back]
    · rw [nextBand_of_high read was, if_neg (not_le.mpr above), if_neg (not_le.mpr near)]
    · rw [nextBand_of_low read was, if_pos high]
    · rw [nextBand_of_low read was, if_neg (not_le.mpr below), if_pos back]
    · rw [nextBand_of_low read was, if_neg (not_le.mpr below), if_neg (not_le.mpr under)]
  · have changes := storeCavern_blocks k (cavernSet service fields) s
    have dir := storeCavern_dir k (cavernSet service fields) s
    have cavern := cavernOf_storeCavern_same k (cavernSet service fields) s
    have band := band_storeCavern k (cavernSet service fields) s
    rw [cavern] at band
    have site : (storeCavern k (cavernSet service fields) s).dir.site = s.dir.site := by rw [dir]; rfl
    have direction : (storeCavern k (cavernSet service fields) s).dir.direction = s.dir.direction := by rw [dir]; rfl
    exact ⟨_, _, exec_setCavern_taken hk hv held fit valid, rfl, cavern, fun j other => cavernOf_storeCavern_other k _ s other, band,
      site, direction, accepted_pif (changes .pif (by decide)).symm,
      (changes.mono (by decide)).trans ((accepted_changes _ _ _ _).mono (by decide))⟩
  · have served := serve_refused (owner := some .ops) (p := .ops) held fit rfl (setCavernInventory_malformed (s := s) outside)
    rwa [length_of_fits fit rfl] at served
  · exact serve_taken (owner := some .ops) (p := .ops) held rfl rfl (setCavernInventory_taken within)
  · exact serve_refused (owner := some .ops) (p := .ops) held rfl rfl (setCavernInventory_range word above)

end Sys2Proof.Machine

/-! SUPPORT. The duty evaluation unit by unit: what a stop and a start make of a unit, and which units the evaluation can change (R98,
R101, R106, R107). -/

namespace Sys2Proof.Machine

open Sys2Proof.Safety

/-! ### Stops and starts (R98, R101) -/

section
variable (now : Nat) (d : DutySettings) (u : UnitRecord)

theorem stopUnit_of_feedback (destination : StopDestination) (h : u.feedback = true) :
    stopUnit now d destination u = enterStopping now d destination u := if_pos h

theorem stopUnit_of_no_feedback (destination : StopDestination) (h : u.feedback = false) :
    stopUnit now d destination u = arrive now d destination u := if_neg (Bool.eq_false_iff.mp h)

theorem arrive_notActive (destination : StopDestination) : (arrive now d destination u).isActive = false := by
  cases destination <;> rfl

/-- A stop leaves a unit's counts, its start list and its feedback (R101). -/
theorem stopUnit_keeps :
    (stopUnit now d .cooldown u).startList = u.startList ∧ (stopUnit now d .cooldown u).attempts = u.attempts
      ∧ (stopUnit now d .cooldown u).totalStarts = u.totalStarts ∧ (stopUnit now d .cooldown u).feedback = u.feedback := by
  unfold stopUnit
  split <;> exact ⟨rfl, rfl, rfl, rfl⟩

/-- A stop to COOLDOWN leaves a unit in STOPPING or, its feedback false already, in COOLDOWN. -/
theorem stopUnit_state : (stopUnit now d .cooldown u).state = if u.feedback then .stopping .cooldown else .cooldown := by
  unfold stopUnit
  split <;> rfl

theorem stopUnit_deadline :
    (stopUnit now d .cooldown u).deadline = some (now + (if u.feedback then d.stopTimeout else d.cooldown) * 10) := by
  unfold stopUnit
  split <;> rfl

end

theorem isActive_iff {u : UnitRecord} : u.isActive = true ↔ u.state = .starting ∨ u.state = .running := by
  simp [UnitRecord.isActive]

theorem isActive_eq_false {u : UnitRecord} : u.isActive = false ↔ u.state ≠ .starting ∧ u.state ≠ .running := by
  simp [UnitRecord.isActive]

theorem startChoice_eligible {c : Cpd} {u : Fin 4} (h : startChoice c = some u) : eligible c u = true := by
  have kept : ∀ v, startChoice c = some v → eligible c v = true := by
    refine overFin_keeps (fun best : Option (Fin 4) => ∀ v, best = some v → eligible c v = true) _ (fun u best hb v hv => ?_) nofun
    split at hv
    · next hu =>
      cases best with
      | none => cases hv; exact hu
      | some b =>
        dsimp only at hv
        split at hv <;> cases hv
        · exact hu
        · exact hb _ rfl
    · exact hb v hv
  exact kept u h

theorem eligible_iff {c : Cpd} {u : Fin 4} :
    eligible c u = true ↔ (nth c.units u).state = .ready ∧ (nth c.units u).startList.length < c.settings.maxStarts := by
  simp [eligible]

theorem startChoice_ready {c : Cpd} {u : Fin 4} (h : startChoice c = some u) : (nth c.units u).state = .ready :=
  (eligible_iff.mp (startChoice_eligible h)).1

theorem startingUnit_eq_none {c : Cpd} : startingUnit c = none ↔ ∀ u, (nth c.units u).state ≠ .starting := by
  simp [startingUnit, firstFin_eq_none]

theorem startingUnit_isSome {c : Cpd} : (startingUnit c).isSome = true ↔ ∃ u, (nth c.units u).state = .starting := by
  rw [Option.isSome_iff_ne_none, ne_eq, startingUnit_eq_none, not_forall]
  simp only [not_not]

/-- One stop of the surplus. -/
abbrev stopped (now : Nat) (c : Cpd) (u : Fin 4) : Cpd := { c with units := alter c.units u (stopUnit now c.settings .cooldown) }

/-- One start. -/
abbrev started (now : Nat) (c : Cpd) (u : Fin 4) : Cpd := { c with units := alter c.units u (startUnit now c.settings) }

section
variable {now demand : Nat} {c : Cpd}

theorem stopSurplus_succ_some {fuel : Nat} {u : Fin 4} (h : demand < activeUnits c) (hu : stopChoice c = some u) :
    stopSurplus now demand (fuel + 1) c = stopSurplus now demand fuel (stopped now c u) := by
  rw [stopSurplus, if_pos h, hu]

theorem stopSurplus_succ_none {fuel : Nat} (hu : stopChoice c = none) : stopSurplus now demand (fuel + 1) c = c := by
  rw [stopSurplus, hu]
  exact ite_self c

/-- The stops of the surplus leave a unit or, where it was RUNNING, stop it. -/
theorem stopSurplus_stops (now demand fuel : Nat) (c : Cpd) (u : Fin 4) :
    nth (stopSurplus now demand fuel c).units u = nth c.units u
      ∨ ((nth c.units u).state = .running
        ∧ nth (stopSurplus now demand fuel c).units u = stopUnit now c.settings .cooldown (nth c.units u)) := by
  induction fuel generalizing c with
  | zero => exact .inl rfl
  | succ fuel ih =>
    by_cases enough : activeUnits c ≤ demand
    · exact .inl (by rw [stopSurplus_of_enough enough])
    cases hv : stopChoice c with
    | none => exact .inl (by rw [stopSurplus_succ_none hv])
    | some v =>
      rw [stopSurplus_succ_some (not_le.mp enough) hv]
      have rest := ih (stopped now c v)
      by_cases huv : u = v
      · subst huv
        have now_stopped : nth (stopped now c u).units u = stopUnit now c.settings .cooldown (nth c.units u) := nth_alter_same _ _ _
        rw [now_stopped] at rest
        refine .inr ⟨stopChoice_running hv, rest.resolve_right fun again => ?_⟩
        exact not_running_of_notActive (stopUnit_notActive now c.settings .cooldown (nth c.units u)) again.1
      · rwa [nth_alter_other c.units _ huv] at rest

/-- All that the start can do: nothing, or the start of the unit chosen. -/
theorem startOne_cases (now demand : Nat) (c : Cpd) :
    startOne now demand c = c
      ∨ ∃ u, activeUnits c < demand ∧ startingUnit c = none ∧ startChoice c = some u ∧ startOne now demand c = started now c u := by
  unfold startOne
  split
  · next h =>
    cases hu : startChoice c with
    | none => exact .inl rfl
    | some u => exact .inr ⟨u, h.1, h.2, rfl, rfl⟩
  · exact .inl rfl

theorem startOne_of_enough (h : demand ≤ activeUnits c) : startOne now demand c = c := if_neg fun lack => not_lt.mpr h lack.1

/-- An evaluation leaves a unit, stops it out of RUNNING or starts it out of READY. -/
theorem evaluatedCpd_unit (demand now : Nat) (c : Cpd) (u : Fin 4) :
    nth (evaluatedCpd demand now c).units u = nth c.units u
      ∨ ((nth c.units u).state = .running
        ∧ nth (evaluatedCpd demand now c).units u = stopUnit now c.settings .cooldown (nth c.units u))
      ∨ ((nth c.units u).state = .ready ∧ demand ≠ 0
        ∧ nth (evaluatedCpd demand now c).units u = startUnit now c.settings (nth c.units u)) := by
  rw [formShortfall_units]
  rcases startOne_cases now demand (stopSurplus now demand 4 c) with same | ⟨v, lack, -, chosen, starts⟩
  · rw [same]
    exact (stopSurplus_stops now demand 4 c u).imp_right .inl
  · by_cases huv : u = v
    · subst huv
      have ready := startChoice_ready chosen
      rcases stopSurplus_stops now demand 4 c u with kept | ⟨-, stops⟩
      · rw [starts, nth_alter_same, settings_stopSurplus, kept]
        rw [kept] at ready
        exact .inr (.inr ⟨ready, by omega, rfl⟩)
      · rw [stops, stopUnit_state] at ready
        split at ready <;> cases ready
    · rw [starts, nth_alter_other _ _ huv]
      exact (stopSurplus_stops now demand 4 c u).imp_right .inl

end

end Sys2Proof.Machine

/-! SUPPORT. The two laws of the units under the operations that the events share: at most one unit is STARTING (R107), and units are
STARTING or RUNNING only while the site injects (R105, R108). -/

namespace Sys2Proof.Machine

open Sys2Proof.Safety

set_option Elab.async false

/-! ### Keeping the two laws -/

/-- From `s` to `t` both laws are kept, each by itself. -/
structure UnitLawsKept (s t : State) : Prop where
  one : OneStarting s → OneStarting t
  runs : RunOnlyInjecting s → RunOnlyInjecting t

namespace UnitLawsKept

variable {s t u : State}

theorem refl (s : State) : UnitLawsKept s s := ⟨id, id⟩

theorem trans (h : UnitLawsKept s t) (k : UnitLawsKept t u) : UnitLawsKept s u := ⟨fun x => k.one (h.one x), fun x => k.runs (h.runs x)⟩

/-- In a direction that stands no unit has become STARTING, or active. -/
theorem of_units (direction : t.dir.direction = s.dir.direction)
    (starting : ∀ v, (unitOf t v).state = .starting → (unitOf s v).state = .starting)
    (active : ∀ v, (unitOf t v).isActive = true → (unitOf s v).isActive = true) : UnitLawsKept s t where
  one h v w hv hw := h v w (starting v hv) (starting w hw)
  runs h hd v := by
    have rest := isActive_eq_false.mpr (h (direction ▸ hd) v)
    refine isActive_eq_false.mp (Bool.eq_false_iff.mpr fun ha => ?_)
    rw [active v ha] at rest
    cases rest

theorem of_states (direction : t.dir.direction = s.dir.direction) (states : ∀ v, (unitOf t v).state = (unitOf s v).state) :
    UnitLawsKept s t :=
  of_units direction (fun v h => states v ▸ h) fun v h => by rwa [isActive_iff, ← states v, ← isActive_iff]

theorem of_same (cpd : t.cpd = s.cpd) (direction : t.dir.direction = s.dir.direction) : UnitLawsKept s t :=
  of_states direction fun v => by rw [unitOf, cpd, unitOf]

theorem of_changes {l : List Block} (h : ChangesOnly l s t) (hc : Block.cpd ∉ l := by decide) (hd : Block.dir ∉ l := by decide) :
    UnitLawsKept s t :=
  of_same (h .cpd hc).symm (congrArg Dir.direction (h .dir hd)).symm

/-- With no unit active both laws hold. -/
theorem of_atRest (h : atRest t.cpd) : UnitLawsKept s t where
  one _ v _ hv _ := absurd hv (isActive_eq_false.mp (h v)).1
  runs _ _ v := isActive_eq_false.mp (h v)

end UnitLawsKept

/-! ### The duty evaluation and the site direction (R92, R106 to R108) -/

/-- An evaluation starts no unit while one is STARTING, and one unit at most (R107). -/
theorem evaluatedCpd_oneStarting {c : Cpd} {demand now : Nat}
    (h : ∀ u v, (nth c.units u).state = .starting → (nth c.units v).state = .starting → u = v) :
    ∀ u v, (nth (evaluatedCpd demand now c).units u).state = .starting → (nth (evaluatedCpd demand now c).units v).state = .starting →
      u = v := by
  have stops {w : Fin 4} (hw : (nth (stopSurplus now demand 4 c).units w).state = .starting) : (nth c.units w).state = .starting := by
    rcases stopSurplus_stops now demand 4 c w with kept | ⟨-, stop⟩
    · rwa [kept] at hw
    · exact absurd hw (by rw [stop]; exact (isActive_eq_false.mp (stopUnit_notActive _ _ _ _)).1)
  intro u v hu hv
  rw [formShortfall_units] at hu hv
  rcases startOne_cases now demand (stopSurplus now demand 4 c) with same | ⟨w, -, idle, -, starts⟩
  · rw [same] at hu hv
    exact h u v (stops hu) (stops hv)
  · have only {x : Fin 4} (hx : (nth (startOne now demand (stopSurplus now demand 4 c)).units x).state = .starting) : x = w := by
      by_contra other
      rw [starts, nth_alter_other _ _ other] at hx
      exact startingUnit_eq_none.mp idle x hx
    exact (only hu).trans (only hv).symm

theorem unitLaws_evaluate (s : State) : UnitLawsKept s (evaluate s) where
  one h := evaluatedCpd_oneStarting h
  runs h hd v := by
    have hd : s.dir.direction ≠ .injecting := hd
    rw [unitOf, evaluate_eq, State.withCpd_cpd, demandOf_other hd]
    rcases evaluatedCpd_unit 0 (timeBase s) s.cpd v with same | ⟨running, -⟩ | ⟨-, none, -⟩
    · rw [same]
      exact h hd v
    · exact absurd running (h hd v).2
    · exact absurd rfl none

section
variable (s : State)

/-- A change of direction stops the active units on leaving INJECTING, and evaluates on entering it. -/
theorem unitLaws_changeDirection (new : SiteDirection) : UnitLawsKept s (changeDirection new s) := by
  have cpd := changeDirection_cpd new s
  constructor
  · intro h
    show ∀ u v, (nth (changeDirection new s).cpd.units u).state = .starting → (nth (changeDirection new s).cpd.units v).state = .starting →
      u = v
    have left : ∀ u v : Fin 4, (nth (if s.dir.direction = .injecting then (leaveInjecting s).cpd else s.cpd).units u).state = .starting →
        (nth (if s.dir.direction = .injecting then (leaveInjecting s).cpd else s.cpd).units v).state = .starting → u = v := by
      split
      · exact fun u _ hu _ => absurd hu (isActive_eq_false.mp (leaveInjecting_atRest s u)).1
      · exact h
    rw [cpd, turnedCpd]
    dsimp only
    split
    · exact evaluatedCpd_oneStarting left
    · exact left
  · intro h hn v
    rw [changeDirection_direction] at hn
    rw [unitOf, cpd, turnedCpd]
    simp only [if_neg hn]
    split
    · exact isActive_eq_false.mp (leaveInjecting_atRest s v)
    · next hd => exact h hd v

theorem unitLaws_testCompletion : UnitLawsKept s (testCompletion s) := by
  unfold testCompletion
  split
  · split
    · exact unitLaws_changeDirection s _
    · exact .refl s
  · exact .refl s

theorem unitLaws_unitsReported (before : State) : UnitLawsKept s (unitsReported before s) := by
  unfold unitsReported
  split
  · exact .refl s
  · exact unitLaws_testCompletion s

theorem unitLaws_quietReported (before : State) : UnitLawsKept s (quietReported before s) := by
  unfold quietReported
  split
  · exact .refl s
  · exact unitLaws_testCompletion s

theorem unitLaws_dutyEvaluation : UnitLawsKept s (dutyEvaluation s) := (unitLaws_evaluate s).trans (unitLaws_unitsReported _ s)

theorem unitLaws_takeTarget (p : Fin 72) : UnitLawsKept s (takeTarget p s) := by
  unfold takeTarget
  dsimp only
  split
  · exact .refl s
  · exact (unitLaws_changeDirection s _).trans (unitLaws_unitsReported _ s)

/-- The overrun of a changeover leaves it a changeover. -/
theorem unitLaws_overrun {s : State} {c : Changeover} (hd : s.dir.direction = .changeover c) : UnitLawsKept s (overrun c s) := by
  have units (v : Fin 4) : unitOf (overrun c s) v = unitOf s v := by rw [unitOf, overrun_cpd, unitOf]
  refine ⟨fun h v w => by simpa only [units] using h v w, fun h _ v => ?_⟩
  rw [units]
  exact h (by rw [hd]; nofun) v

/-! ### One unit (R97 to R104, R110, R111) -/

/-- A change of one unit that does not make it STARTING, nor active. -/
theorem unitLaws_alterUnit {s : State} {u : Fin 4} {f : UnitRecord → UnitRecord}
    (starting : (f (unitOf s u)).state = .starting → (unitOf s u).state = .starting)
    (active : (f (unitOf s u)).isActive = true → (unitOf s u).isActive = true) : UnitLawsKept s (alterUnit u f s) := by
  refine .of_units rfl (fun v hv => ?_) fun v hv => ?_ <;> by_cases h : v = u
  · subst h; rw [unitOf_alterUnit_same] at hv; exact starting hv
  · rwa [unitOf_alterUnit_other s f h] at hv
  · subst h; rw [unitOf_alterUnit_same] at hv; exact active hv
  · rwa [unitOf_alterUnit_other s f h] at hv

theorem unitLaws_alterUnit_rest {s : State} {u : Fin 4} {f : UnitRecord → UnitRecord} (h : (f (unitOf s u)).isActive = false) :
    UnitLawsKept s (alterUnit u f s) :=
  unitLaws_alterUnit (fun hs => absurd hs (isActive_eq_false.mp h).1) fun ha => by rw [h] at ha; cases ha

theorem unitLaws_alterUnit_same {s : State} {u : Fin 4} {f : UnitRecord → UnitRecord} (h : (f (unitOf s u)).state = (unitOf s u).state) :
    UnitLawsKept s (alterUnit u f s) :=
  unitLaws_alterUnit (fun hs => h ▸ hs) fun ha => by rwa [isActive_iff, ← h, ← isActive_iff]

theorem unitLaws_changeUnit {s : State} {u : Fin 4} {f : UnitRecord → UnitRecord} (evaluates : Bool)
    (h : UnitLawsKept s (alterUnit u f s)) : UnitLawsKept s (changeUnit u f evaluates s) := by
  have told := h.trans (unitLaws_unitsReported _ s)
  unfold changeUnit
  dsimp only
  split
  · exact told.trans (unitLaws_dutyEvaluation _)
  · exact told

theorem unitLaws_faultUnit (cause : UnitCause) (u : Fin 4) : UnitLawsKept s (faultUnit cause u s) := by
  have marked : UnitLawsKept s (alterUnit u (fun r => { r with state := .faulted, cause := cause, deadline := none }) s) :=
    unitLaws_alterUnit_rest rfl
  have told := ((marked.trans (.of_changes (report_changes (condUnit u) true _))).trans
    (.of_changes (setEventOps_changes evUnitTripped _))).trans (unitLaws_unitsReported _ s)
  unfold faultUnit
  dsimp only
  split
  · exact told.trans (unitLaws_dutyEvaluation _)
  · exact told

theorem unitLaws_leaveFaulted {s : State} {u : Fin 4} {leave : UnitRecord → UnitRecord} (h : (leave (unitOf s u)).isActive = false) :
    UnitLawsKept s (leaveFaulted u leave s) :=
  (((unitLaws_alterUnit_rest (f := fun r => { leave r with cause := .noCause, attempts := 0 }) h).trans
    (.of_changes (report_changes _ _ _))).trans (unitLaws_unitsReported _ s)).trans (unitLaws_dutyEvaluation _)

/-! ### The hour (R4, R7 to R12) -/

theorem unitLaws_startHour (p : Fin 72) : UnitLawsKept s (startHour p s) :=
  ((((UnitLawsKept.of_changes (latchCv_changes s)).trans (.of_changes (changeLead_changes p _))).trans (unitLaws_takeTarget _ p)).trans
    (unitLaws_dutyEvaluation _)).trans (.of_changes (withClock_changes _ _))

theorem unitLaws_completeClose (h : HourId) (g : Gathered) : UnitLawsKept s (completeClose h g s) := by
  refine .of_same (completeClose_changes h g s .cpd (by decide)).symm ?_
  have posted : (closePosted h g s).dir.direction = s.dir.direction := (congrArg Dir.direction (report_changes _ _ _ .dir (by decide))).symm
  exact posted

theorem unitLaws_closeHour (h : HourId) : UnitLawsKept s (closeHour h s) := by
  rw [closeHour_eq]
  exact (UnitLawsKept.of_changes (gathered_changes s)).trans (unitLaws_completeClose _ h _)

theorem unitLaws_missedHour (h : HourId) : UnitLawsKept s (missedHour h s) :=
  ((UnitLawsKept.of_changes (firmAtZero_changes _ s)).trans (unitLaws_completeClose _ h _)).trans (.of_changes (rolloverAfter_changes h _))

theorem unitLaws_closeMissedHours (count : Nat) (h : HourId) : UnitLawsKept s (closeMissedHours count h s) := by
  induction count generalizing h s with
  | zero => exact .refl s
  | succ count ih => exact (unitLaws_missedHour s h).trans (ih _ h.next)

theorem unitLaws_levelBooks (set : HourId) (abandon : Bool) : UnitLawsKept s (levelBooks set abandon s) := by
  unfold levelBooks
  split
  · exact .of_same rfl rfl
  · split
    · exact .of_same rfl rfl
    · exact unitLaws_closeMissedHours s _ _

theorem unitLaws_hourBoundaryEvent : UnitLawsKept s (hourBoundaryEvent s) := by
  unfold hourBoundaryEvent
  split
  · exact ((unitLaws_closeHour s _).trans (.of_changes (rolloverAfter_changes _ _))).trans (unitLaws_startHour _ _)
  · exact .refl s

theorem unitLaws_completeSet (day seconds : Nat) : UnitLawsKept s (completeSet day seconds s) := by
  rw [completeSet_eq]
  exact ((UnitLawsKept.of_changes (overdueFired_changes day seconds s)).trans (.of_changes (mergeUnclocked_changes _))).trans
    (unitLaws_startHour _ _)

theorem unitLaws_trimForward (t : Nat) : UnitLawsKept s (trimForward t s) := by
  have moved : UnitLawsKept s (moveTime t (markTrimmed s)) := .of_changes ((withClock_changes s _).trans (moveTime_changes t _))
  unfold trimForward
  dsimp only
  split
  · exact (moved.trans (unitLaws_hourBoundaryEvent _)).trans (.of_changes (withClock_changes _ _))
  · split
    · exact moved.trans (.of_changes (firmPointEvent_changes _))
    · exact moved

theorem unitLaws_stepTimeBase : UnitLawsKept s (stepTimeBase s) :=
  .of_states rfl fun v => by
    rw [unitOf_stepTimeBase, UnitRecord.accrue]
    split
    · split <;> rfl
    · rfl

/-! ### The field line (R26 to R29, R81) -/

theorem unitLaws_slotEventEnds (before : State) (n : Fin 16) : UnitLawsKept s (slotEventEnds before n s) :=
  (UnitLawsKept.of_changes (reportAll_changes _ s)).trans (unitLaws_quietReported _ before)

theorem unitLaws_bandsFollow (before : State) : UnitLawsKept s (bandsFollow before s) :=
  .of_same (bandsFollow_changes before s .cpd (by decide)).symm (direction_bandsFollow before s)

theorem unitLaws_channelsLost (n : Fin 16) (before : State) : UnitLawsKept s (channelsLost n before s) :=
  (unitLaws_bandsFollow s before).trans (.of_changes (dewPointsLost_changes n _))

theorem unitLaws_failVisit (n : Fin 16) : UnitLawsKept s (failVisit n s) := by
  have failed : UnitLawsKept s (gapAfterFailure n s) := by
    unfold gapAfterFailure
    split
    · exact .of_changes (((alterSlot_changes n failedSlot s).mono (by decide)).trans
        ((openGapOf_changes n _).mono (m := [.fsu, .mtu]) (by decide)))
    · exact .of_changes (alterSlot_changes n failedSlot s)
  rw [failVisit_eq]
  exact ((failed.trans (unitLaws_bandsFollow _ s)).trans (.of_changes (scheduleNext_changes n _))).trans (unitLaws_slotEventEnds _ s n)

theorem unitLaws_faultSlot (n : Fin 16) (code : Nat) : UnitLawsKept s (faultSlot n code s) := by
  have faulted : UnitLawsKept s (gapAfterFault n s code) := by
    unfold gapAfterFault
    dsimp only
    split
    · exact .of_changes (alterSlot_changes n _ s)
    · exact (UnitLawsKept.of_changes (alterSlot_changes n _ s)).trans (.of_changes (openGapOf_changes n _))
  rw [faultSlot_eq]
  exact (faulted.trans (unitLaws_bandsFollow _ s)).trans (unitLaws_slotEventEnds _ s n)

theorem unitLaws_succeedVisit (n : Fin 16) (words : List WordBytes) : UnitLawsKept s (succeedVisit n words s) := by
  have banded : UnitLawsKept (readMetered n words s) (readBanded n words s) :=
    .of_same (cavernsTake_changes n _ .cpd (by decide)).symm (direction_cavernsTake n _)
  exact (((((UnitLawsKept.of_changes (readMetered_changes n words s)).trans banded).trans (.of_changes (dryersTake_changes n _))).trans
    (.of_changes (readScheduled_changes n words s))).trans (unitLaws_slotEventEnds _ s n))

theorem unitLaws_restartSlot (n : Fin 16) : UnitLawsKept s (restartSlot n s) :=
  (((UnitLawsKept.of_changes ((withdrawSlot_changes n s).trans (alterSlot_changes n _ _))).trans (unitLaws_channelsLost _ n s)).trans
    (.of_changes (scheduleVisit_changes n _ _))).trans (unitLaws_slotEventEnds _ s n)

theorem unitLaws_enable (n : Fin 16) : UnitLawsKept s (enable n s) :=
  (((UnitLawsKept.of_changes (alterSlot_changes n _ s)).trans (unitLaws_channelsLost _ n s)).trans
    (.of_changes (scheduleVisit_changes n _ _))).trans (unitLaws_slotEventEnds _ s n)

theorem unitLaws_disable (n : Fin 16) : UnitLawsKept s (disable n s) :=
  (((UnitLawsKept.of_changes (disablePoint_changes n s)).trans
    (.of_changes ((withdrawSlot_changes n _).trans (alterSlot_changes n _ _)))).trans (unitLaws_channelsLost _ n s)).trans
    (unitLaws_slotEventEnds _ s n)

theorem unitLaws_rebindPoint (k : Fin 7) (slot : Option (Fin 16)) (weight ceiling capacity : Nat) :
    UnitLawsKept s (rebindPoint k slot weight ceiling capacity s) := by
  have followed (u : State) : UnitLawsKept u (bandOfPoint k u) :=
    .of_same (bandOfPoint_changes k u .cpd (by decide)).symm (direction_bandOfPoint k u)
  rw [rebindPoint_eq]
  exact (((UnitLawsKept.of_changes (pointMoved_changes k slot weight ceiling capacity s)).trans (followed _)).trans
    (.of_changes (reportAll_changes _ _))).trans (unitLaws_quietReported _ s)

theorem unitLaws_miss (e : Entry) : UnitLawsKept s (miss e s) := by
  unfold miss
  split
  · exact .of_changes (queueEntry_changes _ s)
  · exact unitLaws_failVisit s _

theorem unitLaws_writeDone (e : Entry) : UnitLawsKept s (writeDone e s) := by
  unfold writeDone
  dsimp only
  split
  · split
    · exact .of_changes (queueEntry_changes _ s)
    · exact .of_changes ((alterSlot_changes _ _ s).trans (queueEntry_changes _ _))
  · exact .refl s

theorem unitLaws_dataAnswered (e : Entry) (words : List WordBytes) : UnitLawsKept s (dataAnswered e words s) := by
  unfold dataAnswered
  split
  · unfold readyAnswered
    dsimp only
    split
    · exact .of_changes (queueEntry_changes _ s)
    · split
      · exact .of_changes (queueEntry_changes _ s)
      · exact unitLaws_failVisit s _
  · exact unitLaws_succeedVisit s _ _
  · exact .refl s

theorem unitLaws_endTransaction (f : InFlight) {g : State → State} (hg : ∀ u, UnitLawsKept u (g u)) :
    UnitLawsKept s (endTransaction f g s) := by
  have idle : UnitLawsKept s (s.withFsu { s.fsu with engine := .idle }) := .of_changes (withFsu_changes s _)
  unfold endTransaction
  dsimp only
  split
  · exact idle
  · exact idle.trans (hg _)

/-- A reply keeps the laws as its outcome does. -/
theorem unitLaws_replyEvent (received : List Byte) {outcome : Reply → Option (Entry → State → State)}
    (ho : ∀ r g, outcome r = some g → ∀ e u, UnitLawsKept u (g e u)) : UnitLawsKept s (replyEvent received outcome s) := by
  have heard : UnitLawsKept s (bytesHeard received s) := .of_changes (bytesHeard_changes received s)
  unfold replyEvent
  split
  · split
    · exact heard
    · split
      · next g hg => exact (UnitLawsKept.of_changes (receiverHeard_changes s)).trans (unitLaws_endTransaction _ _ (ho _ g hg _))
      · exact .refl s
  · exact heard

theorem unitLaws_windowExpires : UnitLawsKept s (windowExpires s) := by
  unfold windowExpires
  split
  · exact unitLaws_endTransaction s _ fun u => unitLaws_miss u _
  · exact .refl s

end

end Sys2Proof.Machine

/-! SUPPORT. The two laws of the units under every command and every reset, and the statement that each step keeps them (R105, R107,
R108, R113). -/

namespace Sys2Proof.Machine

open Sys2Proof.Safety

set_option Elab.async false

/-! ### Requests -/

/-- An answer keeps the laws of the units: it changes nothing when it refuses. -/
def Answer.KeepsUnitLaws (s : State) : Answer → Prop
  | .refuse _ => True
  | .taken after _ => UnitLawsKept s after

section
variable {s : State} {a : Answer}

theorem Answer.unitLaws_guard {c : Prop} [Decidable c] {status : Status} (h : a.KeepsUnitLaws s) :
    (if c then Answer.refuse status else a).KeepsUnitLaws s := by
  split
  · trivial
  · exact h

theorem setClock_unitLaws (fields : List Byte) : (setClock fields s).KeepsUnitLaws s := by
  unfold setClock
  split
  · trivial
  · exact Answer.unitLaws_guard (Answer.unitLaws_guard (Answer.unitLaws_guard
      ((unitLaws_levelBooks s _ _).trans (unitLaws_completeSet _ _ _))))

theorem trimClock_unitLaws (fields : List Byte) : (trimClock fields s).KeepsUnitLaws s := by
  have back (t : Int) : UnitLawsKept s (moveTime t (markTrimmed s)) :=
    .of_changes ((withClock_changes s _).trans (moveTime_changes t _))
  refine Answer.unitLaws_guard (Answer.unitLaws_guard ?_)
  split
  · exact .refl s
  · split
    · exact Answer.unitLaws_guard (back _)
    · exact unitLaws_trimForward s _

theorem setSlot_unitLaws (fields : List Byte) : (setSlot fields s).KeepsUnitLaws s := by
  unfold setSlot
  split
  · next n settings _ _ =>
    have stored : UnitLawsKept s (alterSlot n (fun sl => { sl with settings := settings }) s) := .of_changes (alterSlot_changes n _ s)
    refine Answer.unitLaws_guard (Answer.unitLaws_guard ?_)
    show UnitLawsKept s (if _ then _ else _)
    split
    · exact stored
    · exact stored.trans (unitLaws_restartSlot _ n)
  · trivial

theorem enableSlot_unitLaws (fields : List Byte) : (enableSlot fields s).KeepsUnitLaws s := by
  unfold enableSlot
  split
  · trivial
  · exact Answer.unitLaws_guard (Answer.unitLaws_guard (unitLaws_enable s _))

theorem disableSlot_unitLaws (fields : List Byte) : (disableSlot fields s).KeepsUnitLaws s := by
  unfold disableSlot
  split
  · trivial
  · exact Answer.unitLaws_guard (unitLaws_disable s _)

theorem setPoint_unitLaws (fields : List Byte) : (setPoint fields s).KeepsUnitLaws s := by
  unfold setPoint
  split
  · unfold configurePoint
    split
    · trivial
    · refine Answer.unitLaws_guard (Answer.unitLaws_guard ?_)
      split
      · exact UnitLawsKept.of_changes (alterPoint_changes _ _ s)
      · exact unitLaws_rebindPoint s _ _ _ _ _
  · trivial

theorem setCavern_unitLaws (fields : List Byte) : (setCavern fields s).KeepsUnitLaws s := by
  unfold setCavern
  split
  · refine Answer.unitLaws_guard (UnitLawsKept.of_same (storeCavern_changes _ _ s .cpd (by decide)).symm ?_)
    rw [storeCavern_dir]
    rfl
  · trivial

theorem setCavernInventory_unitLaws (fields : List Byte) : (setCavernInventory fields s).KeepsUnitLaws s := by
  unfold setCavernInventory
  split
  · trivial
  · exact Answer.unitLaws_guard (UnitLawsKept.of_same rfl rfl)

theorem unitLaws_siteTaken (new : SiteSettings) : UnitLawsKept s (siteTaken new s) := by
  have stored : UnitLawsKept s (siteStored new s) := .of_same rfl rfl
  by_cases settled : ∀ c, s.dir.direction ≠ .changeover c
  · rw [siteTaken_settled settled]
    exact stored
  · push Not at settled
    obtain ⟨c, hd⟩ := settled
    rcases siteTaken_cases new hd with ⟨-, taken⟩ | ⟨-, ⟨-, -, taken⟩ | ⟨-, taken⟩⟩ <;> rw [taken]
    · exact stored.trans (unitLaws_changeDirection _ _)
    · exact stored.trans (unitLaws_overrun (s := siteStored new s) hd)
    · exact stored

theorem setSite_unitLaws (fields : List Byte) : (setSite fields s).KeepsUnitLaws s :=
  Answer.unitLaws_guard ((unitLaws_siteTaken _).trans (unitLaws_dutyEvaluation _))

theorem setDuty_unitLaws (fields : List Byte) : (setDuty fields s).KeepsUnitLaws s := by
  have stored : UnitLawsKept s (dutyStored (readDuty fields) s) := .of_states rfl fun _ => rfl
  exact Answer.unitLaws_guard (stored.trans (unitLaws_dutyEvaluation _))

theorem unitLaws_takeOutOfService (u : Fin 4) (s : State) : UnitLawsKept s (takeOutOfService u s) := by
  refine UnitLawsKept.trans (unitLaws_alterUnit_same (u := u) (f := fun r => { r with inService := false }) rfl) ?_
  unfold takeOutOfService
  dsimp only
  split
  · exact .refl _
  · exact unitLaws_changeUnit false (unitLaws_alterUnit_rest rfl)
  · exact unitLaws_changeUnit true (unitLaws_alterUnit_rest rfl)
  · exact unitLaws_leaveFaulted rfl
  · exact unitLaws_changeUnit true (unitLaws_alterUnit_rest (stopUnit_notActive _ _ _ _))
  · exact unitLaws_changeUnit true (unitLaws_alterUnit_rest (stopUnit_notActive _ _ _ _))
  · exact unitLaws_alterUnit_rest rfl

theorem unitLaws_returnToService (u : Fin 4) (s : State) : UnitLawsKept s (returnToService u s) := by
  refine UnitLawsKept.trans (unitLaws_alterUnit_same (u := u) (f := fun r => { r with inService := true }) rfl) ?_
  unfold returnToService
  dsimp only
  split
  · exact unitLaws_changeUnit false (unitLaws_alterUnit_rest rfl)
  · exact unitLaws_alterUnit_rest rfl
  · exact .refl _

theorem setUnit_unitLaws (fields : List Byte) : (setUnit fields s).KeepsUnitLaws s := by
  unfold setUnit
  split
  · next inService _ _ =>
    cases inService
    · exact unitLaws_takeOutOfService _ s
    · exact unitLaws_returnToService _ s
  · trivial

theorem resetUnit_unitLaws (fields : List Byte) : (resetUnit fields s).KeepsUnitLaws s := by
  unfold resetUnit
  split
  · trivial
  · refine Answer.unitLaws_guard (unitLaws_leaveFaulted ?_)
    split <;> rfl

end

/-! ### Events of the changeover and the units -/

section
variable (s : State) (u : Fin 4)

theorem unitLaws_minimumExpires : UnitLawsKept s (minimumExpires s) := by
  unfold minimumExpires
  split
  · split
    · exact unitLaws_testCompletion s
    · exact .refl s
  · exact .refl s

theorem unitLaws_limitExpires : UnitLawsKept s (limitExpires s) := by
  unfold limitExpires
  split
  · next hd =>
    split
    · exact unitLaws_overrun hd
    · exact .refl s
  · exact .refl s

/-- Of the changes of a feedback line only that of a STARTING unit, which becomes RUNNING, leaves a unit active. -/
theorem unitLaws_takeFeedback (level : Bool) : UnitLawsKept s (takeFeedback u level s) := by
  refine UnitLawsKept.trans (unitLaws_alterUnit_same (u := u) (f := fun r => { r with feedback := level }) rfl) ?_
  unfold takeFeedback
  dsimp only
  split
  · exact unitLaws_faultUnit _ _ u
  · unfold cooldownFeedback
    split
    · exact unitLaws_changeUnit false (unitLaws_alterUnit_rest rfl)
    · exact unitLaws_faultUnit _ _ u
  · exact unitLaws_faultUnit _ _ u
  · next starting =>
    refine unitLaws_changeUnit true (unitLaws_alterUnit (fun h => by cases h) fun _ => ?_)
    rw [unitOf_alterUnit_same]
    exact isActive_iff.mpr (.inl starting)
  · exact unitLaws_faultUnit _ _ u
  · exact unitLaws_changeUnit false (unitLaws_alterUnit_rest (arrive_notActive _ _ _ _))
  · exact .refl _

theorem unitLaws_startFails : UnitLawsKept s (startFails u s) := by
  unfold startFails
  split
  · exact unitLaws_changeUnit true (unitLaws_alterUnit_rest rfl)
  · exact unitLaws_faultUnit s _ u

theorem unitLaws_cooldownEnds : UnitLawsKept s (cooldownEnds u s) := by
  unfold cooldownEnds
  split
  · exact unitLaws_faultUnit s _ u
  · exact unitLaws_changeUnit true (unitLaws_alterUnit_rest rfl)

theorem unitLaws_dropStartEntry : UnitLawsKept s (dropStartEntry u s) :=
  (unitLaws_alterUnit_same rfl).trans (unitLaws_dutyEvaluation _)

/-- After a reset every unit is FAULTED, in COOLDOWN or OUT (R113). -/
theorem unitLaws_takeReset (kind : ResetKind) (lines : Lines) : UnitLawsKept s (takeReset kind lines s) := by
  refine .of_atRest fun v => ?_
  rw [← takeReset_changes kind lines s .cpd (by decide)]
  have restarted : nth (restartBlocks kind lines (!s.pif.retainedIntact) (retained s)).cpd.units v
      = (nth (retained s).cpd.units v).restart (retained s).cpd.settings (nth lines.feedback v) := nth_tab _ v
  rw [restarted, isActive_eq_false]
  show UnitRecord.stateAfterReset _ ≠ _ ∧ UnitRecord.stateAfterReset _ ≠ _
  unfold UnitRecord.stateAfterReset
  split
  · exact ⟨nofun, nofun⟩
  · split <;> exact ⟨nofun, nofun⟩

end

/-! ### Every command -/

theorem exec_unitLaws {c : Instr} {s t : State} (h : exec c s = .next t) : UnitLawsKept s t := by
  by_cases hb : isReset c = false ∧ (commandBlocks c).contains .cpd = false ∧ (commandBlocks c).contains .dir = false
  · exact .of_changes (exec_changes hb.1 h) (by simpa using hb.2.1) (by simpa using hb.2.2)
  · have request {owner : Option Port} {code : Nat} {p : Port} {fields : List Byte} {own : State → Answer}
        (k : (own s).KeepsUnitLaws s) (h : serve owner code p fields own s = .next t) : UnitLawsKept s t :=
      serve_keeps (.refl s) (fun _ _ u hu => hu.trans (.of_changes (alterPort_changes _ _ u)))
        (fun after payload e => by rw [e] at k; exact k) h
    have event {f : State → State} (k : UnitLawsKept s (f s)) (h : unlessHeld f s = .next t) : UnitLawsKept s t :=
      unlessHeld_keeps (.refl s) k h
    have timed {occasion : Bool} {f : State → State} (k : UnitLawsKept s (f s)) (h : unlessHeld (onlyIf occasion f) s = .next t) :
        UnitLawsKept s t := event (onlyIf_keeps (.refl s) k) h
    cases c with
    | setClock => exact request (setClock_unitLaws _) h
    | trimClock => exact request (trimClock_unitLaws _) h
    | setSlot => exact request (setSlot_unitLaws _) h
    | enableSlot => exact request (enableSlot_unitLaws _) h
    | disableSlot => exact request (disableSlot_unitLaws _) h
    | setPoint => exact request (setPoint_unitLaws _) h
    | setCavern => exact request (setCavern_unitLaws _) h
    | setCavernInventory => exact request (setCavernInventory_unitLaws _) h
    | setSite => exact request (setSite_unitLaws _) h
    | setDuty => exact request (setDuty_unitLaws _) h
    | setUnit => exact request (setUnit_unitLaws _) h
    | resetUnit => exact request (resetUnit_unitLaws _) h
    | resetPart p fields lines =>
      exact request (own := fun s => .taken (takeReset .command lines s) []) (unitLaws_takeReset s _ _) h
    | powerOn =>
      obtain rfl := Host.Outcome.next.inj h
      exact unitLaws_takeReset s _ _
    | pin micros lines =>
      obtain rfl : releasePin micros lines s = t := Host.Outcome.next.inj h
      unfold releasePin
      split
      · exact .of_same rfl rfl
      · exact unitLaws_takeReset s _ _
    | timeBaseStep => exact event (unitLaws_stepTimeBase s) h
    | hourBoundary => exact timed (unitLaws_hourBoundaryEvent s) h
    | dataReply received =>
      refine event (unitLaws_replyEvent s received fun r g hg e u => ?_) h
      cases r <;> cases hg
      · exact unitLaws_miss u e
      · exact unitLaws_dataAnswered u e _
    | doneReply received =>
      refine event (unitLaws_replyEvent s received fun r g hg e u => ?_) h
      cases r <;> cases hg
      · exact unitLaws_miss u e
      · exact unitLaws_writeDone u e
    | errorReply received =>
      refine event (unitLaws_replyEvent s received fun r g hg e u => ?_) h
      cases r <;> cases hg
      · exact unitLaws_miss u e
      · exact unitLaws_faultSlot u _ _
    | badReplyFrame received =>
      refine event (unitLaws_replyEvent s received fun r g hg e u => ?_) h
      cases r <;> cases hg
      exact unitLaws_miss u e
    | replyWindowExpiry => exact event (unitLaws_windowExpires s) h
    | changeoverMinimumExpiry => exact event (unitLaws_minimumExpires s) h
    | changeoverLimitExpiry => exact event (unitLaws_limitExpires s) h
    | feedbackChange => exact timed (unitLaws_takeFeedback s _ _) h
    | startTimeout => exact timed (unitLaws_startFails s _) h
    | stopTimeout => exact timed (unitLaws_faultUnit s _ _) h
    | cooldownExpiry => exact timed (unitLaws_cooldownEnds s _) h
    | startListExpiry => exact timed (unitLaws_dropStartEntry s _) h
    | _ => exact absurd ⟨rfl, rfl, rfl⟩ hb

theorem idle_unitLaws (s : State) : UnitLawsKept s (idle s) := by
  cases held : heldInReset s with
  | true =>
    rw [idle_held held]
    exact .refl s
  | false =>
    rw [idle_released held]
    by_cases hundredth : s.fine % 100 = 99
    · rw [stepFine_hundredth hundredth]
      exact unitLaws_stepTimeBase s
    · rw [stepFine_other hundredth]
      exact .of_changes (withFine_changes s _)

/-- Settles O58: a unit becomes STARTING by the evaluation alone, which starts one where none is STARTING and none outside INJECTING, and
RUNNING from STARTING alone; leaving INJECTING stops every active unit. -/
theorem stepKeepsOneUnitStarting : Obligations.StepKeepsOneUnitStarting := by
  intro s t h
  have kept : UnitLawsKept s t := by
    unfold step at h
    split at h
    · next rest _ =>
      have waiting : UnitLawsKept s (s.withPending rest) := .of_same rfl rfl
      exact waiting.trans (exec_unitLaws h)
    · obtain rfl := Host.Outcome.next.inj h
      exact idle_unitLaws s
  exact ⟨kept.one, kept.runs⟩

end Sys2Proof.Machine

/-! SUPPORT. The start choice and the stop choice (R107), how many units a duty evaluation stops and which, what a change of the site
direction does to the units (R108), and the statement on all of these. -/

namespace Sys2Proof.Machine

open Sys2Proof.Safety

/-! ### Choosing by a key (R107) -/

section
variable {n : Nat} {κ : Type} [LinearOrder κ] {p : Fin n → Prop} {key : Fin n → κ} {f : Fin n → Option (Fin n) → Option (Fin n)}

/-- One pass of a choice among the indexes that meet `p`: the least key is kept. -/
structure Chooses (p : Fin n → Prop) (key : Fin n → κ) (f : Fin n → Option (Fin n) → Option (Fin n)) : Prop where
  skips : ∀ u best, ¬p u → f u best = best
  first : ∀ u, p u → f u none = some u
  later : ∀ u b, b < u → p u → f u (some b) = if key u < key b then some u else some b

/-- The choice among the indexes of a list: the one of the least key, or none where none meets `p`. -/
def IsChoice (p : Fin n → Prop) (key : Fin n → κ) (l : List (Fin n)) : Option (Fin n) → Prop
  | none => ∀ v ∈ l, ¬p v
  | some w => w ∈ l ∧ p w ∧ ∀ v ∈ l, p v → v ≠ w → key w < key v

theorem Chooses.pass (h : Chooses p key f) (inj : Function.Injective key) {l : List (Fin n)} {u : Fin n} {best : Option (Fin n)}
    (before : ∀ v ∈ l, v < u) (hb : IsChoice p key l best) : IsChoice p key (l ++ [u]) (f u best) := by
  by_cases hu : p u
  · cases best with
    | none =>
      rw [h.first u hu]
      refine ⟨by simp, hu, fun v hv hp hne => ?_⟩
      rcases List.mem_append.mp hv with hv | hv
      · exact absurd hp (hb v hv)
      · exact absurd (List.mem_singleton.mp hv) hne
    | some b =>
      obtain ⟨hmem, hpb, least⟩ := hb
      rw [h.later u b (before b hmem) hu]
      split
      · next less =>
        refine ⟨by simp, hu, fun v hv hp hne => ?_⟩
        rcases List.mem_append.mp hv with hv | hv
        · by_cases hvb : v = b
          · rwa [hvb]
          · exact less.trans (least v hv hp hvb)
        · exact absurd (List.mem_singleton.mp hv) hne
      · next more =>
        refine ⟨List.mem_append_left _ hmem, hpb, fun v hv hp hne => ?_⟩
        rcases List.mem_append.mp hv with hv | hv
        · exact least v hv hp hne
        · rw [List.mem_singleton.mp hv] at hne ⊢
          exact lt_of_le_of_ne (not_lt.mp more) fun same => hne (inj same).symm
  · rw [h.skips u best hu]
    cases best with
    | none =>
      intro v hv
      rcases List.mem_append.mp hv with hv | hv
      · exact hb v hv
      · rwa [List.mem_singleton.mp hv]
    | some b =>
      obtain ⟨hmem, hpb, least⟩ := hb
      refine ⟨List.mem_append_left _ hmem, hpb, fun v hv hp hne => ?_⟩
      rcases List.mem_append.mp hv with hv | hv
      · exact least v hv hp hne
      · rw [List.mem_singleton.mp hv] at hp
        exact absurd hp hu

/-- A walk over all indexes that keeps the least key chooses it. -/
theorem Chooses.isChoice (h : Chooses p key f) (inj : Function.Injective key) : IsChoice p key (List.finRange n) (overFin n f none) := by
  have walk (l : List (Fin n)) (sorted : l.Pairwise (· < ·)) : IsChoice p key l (l.foldl (fun best u => f u best) none) := by
    induction l using List.reverseRecOn with
    | nil => exact fun v hv => absurd hv List.not_mem_nil
    | append_singleton l u ih =>
      obtain ⟨sorted, -, before⟩ := List.pairwise_append.mp sorted
      rw [List.foldl_append]
      exact h.pass inj (fun v hv => before v hv u (List.mem_singleton.mpr rfl)) (ih sorted)
  exact walk _ (List.pairwise_lt_finRange n)

variable {best : Option (Fin n)} (h : IsChoice p key (List.finRange n) best)
include h

theorem IsChoice.eq_none_iff : best = none ↔ ∀ u, ¬p u := by
  cases best with
  | none => exact iff_of_true rfl fun u => h u (List.mem_finRange u)
  | some b => exact iff_of_false nofun fun nobody => nobody b h.2.1

theorem IsChoice.eq_some_iff {w : Fin n} : best = some w ↔ p w ∧ ∀ v, p v → v ≠ w → key w < key v := by
  cases best with
  | none => exact iff_of_false nofun fun ⟨hw, _⟩ => h w (List.mem_finRange w) hw
  | some b =>
    obtain ⟨-, hb, least⟩ := h
    refine ⟨fun e => Option.some.inj e ▸ ⟨hb, fun v => least v (List.mem_finRange v)⟩, fun ⟨hw, lowest⟩ => congrArg some ?_⟩
    by_contra hne
    exact lt_asymm (lowest b hb hne) (least w (List.mem_finRange w) hw (Ne.symm hne))

end

/-- Run seconds, then the number. -/
abbrev runKey (c : Cpd) (u : Fin 4) : ℕ ×ₗ Fin 4 := toLex ((nth c.units u).runSeconds, u)

theorem runKey_lt {c : Cpd} {u v : Fin 4} :
    runKey c u < runKey c v ↔
      (nth c.units u).runSeconds < (nth c.units v).runSeconds
        ∨ ((nth c.units u).runSeconds = (nth c.units v).runSeconds ∧ u < v) := Prod.Lex.toLex_lt_toLex

theorem runKey_injective (c : Cpd) : Function.Injective (runKey c) := fun _ _ h => (Prod.ext_iff.mp (toLex.injective h)).2

/-- The start choice goes by the run seconds upward. -/
theorem startChoice_isChoice (c : Cpd) : IsChoice (fun u => eligible c u = true) (runKey c) (List.finRange 4) (startChoice c) := by
  refine Chooses.isChoice ?_ (runKey_injective c)
  refine ⟨fun v best hv => if_neg hv, fun v hv => if_pos hv, fun v b hb hv => (if_pos hv).trans (if_congr ?_ rfl rfl)⟩
  rw [runKey_lt]
  exact ⟨.inl, fun h => h.resolve_right fun tie => lt_asymm hb tie.2⟩

/-- The stop choice goes by them downward. -/
theorem stopChoice_isChoice (c : Cpd) :
    IsChoice (fun u => (nth c.units u).state = .running) (fun u => OrderDual.toDual (runKey c u)) (List.finRange 4) (stopChoice c) := by
  refine Chooses.isChoice ?_ (OrderDual.toDual.injective.comp (runKey_injective c))
  refine ⟨fun v best hv => if_neg hv, fun v hv => if_pos hv, fun v b hb hv => (if_pos hv).trans (if_congr ?_ rfl rfl)⟩
  rw [OrderDual.toDual_lt_toDual, runKey_lt]
  exact ⟨fun h => h.lt_or_eq.imp_right fun tie => ⟨tie, hb⟩, fun h => h.elim le_of_lt fun tie => tie.1.le⟩

theorem startChoice_iff {c : Cpd} {u : Fin 4} :
    startChoice c = some u ↔ eligible c u = true ∧ ∀ v, eligible c v = true → v ≠ u → runKey c u < runKey c v :=
  (startChoice_isChoice c).eq_some_iff

theorem stopChoice_iff {c : Cpd} {u : Fin 4} :
    stopChoice c = some u ↔
      (nth c.units u).state = .running ∧ ∀ v, (nth c.units v).state = .running → v ≠ u → runKey c v < runKey c u :=
  (stopChoice_isChoice c).eq_some_iff

theorem stopChoice_eq_none {c : Cpd} : stopChoice c = none ↔ ∀ u, (nth c.units u).state ≠ .running :=
  (stopChoice_isChoice c).eq_none_iff

/-! ### How many units are stopped, and which (R106, R107) -/

/-- The RUNNING units. -/
abbrev runningUnits (c : Cpd) : Nat := countFin fun u : Fin 4 => decide ((nth c.units u).state = .running)

theorem countFin_succ {n : Nat} {p q : Fin n → Bool} {u : Fin n} (hp : p u = true) (hq : q u = false) (other : ∀ v, v ≠ u → q v = p v) :
    countFin q + 1 = countFin p := by
  have more : (Finset.univ.filter fun v => p v = true) = insert u (Finset.univ.filter fun v => q v = true) := by
    ext v
    by_cases hv : v = u
    · simp [hv, hp]
    · simp [hv, other v hv]
  rw [countFin_eq, countFin_eq, more, Finset.card_insert_of_notMem (by simp [hq])]

theorem countFin_eq_zero {n : Nat} {p : Fin n → Bool} : countFin p = 0 ↔ ∀ u, p u = false := by
  simp [countFin_eq, Finset.filter_eq_empty_iff]

theorem countFin_le {n : Nat} (p : Fin n → Bool) : countFin p ≤ n := by
  rw [countFin_eq]
  exact (Finset.card_filter_le _ _).trans (Finset.card_fin n).le

section
variable {now demand : Nat} {c : Cpd} {u : Fin 4}

theorem runningUnits_eq_zero : runningUnits c = 0 ↔ ∀ u, (nth c.units u).state ≠ .running := by
  simp [countFin_eq_zero]

theorem activeUnits_stopped (h : (nth c.units u).state = .running) : activeUnits (stopped now c u) + 1 = activeUnits c :=
  countFin_succ (isActive_iff.mpr (.inr h)) (by rw [nth_alter_same]; exact stopUnit_notActive _ _ _ _)
    fun v hv => by rw [nth_alter_other _ _ hv]

theorem runningUnits_stopped (h : (nth c.units u).state = .running) : runningUnits (stopped now c u) + 1 = runningUnits c := by
  refine countFin_succ (decide_eq_true h) (decide_eq_false ?_) fun v hv => by rw [nth_alter_other _ _ hv]
  rw [nth_alter_same]
  exact not_running_of_notActive (stopUnit_notActive _ _ _ _)

theorem activeUnits_started (h : (nth c.units u).state = .ready) : activeUnits (started now c u) = activeUnits c + 1 := by
  refine (countFin_succ (u := u) ?_ ?_ fun v hv => ?_).symm
  · rw [nth_alter_same]
    rfl
  · rw [isActive_eq_false, h]
    exact ⟨nofun, nofun⟩
  · rw [nth_alter_other _ _ hv]

/-- As many units are stopped as are active above the demand, if so many are RUNNING. -/
theorem stopSurplus_counts (now demand fuel : Nat) (c : Cpd) :
    activeUnits (stopSurplus now demand fuel c) + min fuel (min (activeUnits c - demand) (runningUnits c)) = activeUnits c
      ∧ runningUnits (stopSurplus now demand fuel c) + min fuel (min (activeUnits c - demand) (runningUnits c)) = runningUnits c := by
  induction fuel generalizing c with
  | zero => simp [stopSurplus]
  | succ fuel ih =>
    by_cases enough : activeUnits c ≤ demand
    · rw [stopSurplus_of_enough enough]
      omega
    cases chosen : stopChoice c with
    | none =>
      have none := runningUnits_eq_zero.mpr (stopChoice_eq_none.mp chosen)
      rw [stopSurplus_succ_none chosen]
      omega
    | some u =>
      have running := stopChoice_running chosen
      have active := activeUnits_stopped (now := now) running
      have left := runningUnits_stopped (now := now) running
      obtain ⟨rest_active, rest_running⟩ := ih (stopped now c u)
      rw [stopSurplus_succ_some (not_le.mp enough) chosen]
      omega

/-- The units changed are those that were RUNNING and are no more. -/
theorem stopSurplus_changed (now demand fuel : Nat) (c : Cpd) :
    countFin (fun u : Fin 4 => decide (nth (stopSurplus now demand fuel c).units u ≠ nth c.units u))
        + runningUnits (stopSurplus now demand fuel c) = runningUnits c := by
  simp only [countFin, sumNat_eq, ← Finset.sum_add_distrib]
  refine Finset.sum_congr rfl fun u _ => ?_
  rcases stopSurplus_stops now demand fuel c u with kept | ⟨running, stops⟩
  · simp [kept]
  · have not_running : (nth (stopSurplus now demand fuel c).units u).state ≠ .running := by
      rw [stops]
      exact not_running_of_notActive (stopUnit_notActive _ _ _ _)
    have changed : nth (stopSurplus now demand fuel c).units u ≠ nth c.units u := fun same => not_running (same ▸ running)
    simp [changed, not_running, running]

/-- A RUNNING unit that is left stands below every unit that is stopped. -/
theorem stopSurplus_order {fuel : Nat} {u v : Fin 4} (running : (nth c.units u).state = .running)
    (left : nth (stopSurplus now demand fuel c).units u = nth c.units u)
    (stops : nth (stopSurplus now demand fuel c).units v ≠ nth c.units v) : runKey c u < runKey c v := by
  induction fuel generalizing c with
  | zero => exact absurd rfl stops
  | succ fuel ih =>
    by_cases enough : activeUnits c ≤ demand
    · exact absurd (by rw [stopSurplus_of_enough enough]) stops
    cases chosen : stopChoice c with
    | none => exact absurd (by rw [stopSurplus_succ_none chosen]) stops
    | some w =>
      rw [stopSurplus_succ_some (not_le.mp enough) chosen] at left stops
      have first_stays : (nth (stopSurplus now demand fuel (stopped now c w)).units w).state ≠ .running := by
        have not_running : (nth (stopped now c w).units w).state ≠ .running := by
          rw [nth_alter_same]
          exact not_running_of_notActive (stopUnit_notActive _ _ _ _)
        rcases stopSurplus_stops now demand fuel (stopped now c w) w with kept | ⟨again, -⟩
        · rwa [kept]
        · exact absurd again not_running
      have huw : u ≠ w := by
        rintro rfl
        exact first_stays (left ▸ running)
      by_cases hvw : v = w
      · rw [hvw]
        exact (stopChoice_iff.mp chosen).2 u running huw
      · have same {x : Fin 4} (hx : x ≠ w) : nth (stopped now c w).units x = nth c.units x := nth_alter_other _ _ hx
        have below := ih (c := stopped now c w) (by rwa [same huw]) (by rw [left, same huw]) (by rwa [same hvw])
        simpa only [runKey, same huw, same hvw] using below

end

/-! ### The evaluation as R106 states it -/

section
variable {s : State} {u : Fin 4}

/-- With more units active than the demand the evaluation stops the surplus, and starts none. -/
theorem evaluate_surplus (h : demandOf s < activeUnits s.cpd) :
    (evaluate s).cpd.units = (stopSurplus (timeBase s) (demandOf s) 4 s.cpd).units := by
  have counts := (stopSurplus_counts (timeBase s) (demandOf s) 4 s.cpd).1
  rw [evaluate_eq, State.withCpd_cpd, formShortfall_units, startOne_of_enough (by omega)]

/-- With no more active than the demand it stops none. -/
theorem evaluate_no_surplus (h : activeUnits s.cpd ≤ demandOf s) :
    (evaluate s).cpd.units = (startOne (timeBase s) (demandOf s) s.cpd).units := by
  rw [evaluate_eq, State.withCpd_cpd, formShortfall_units, stopSurplus_of_enough h]

theorem activeUnits_congr {c d : Cpd} (h : c.units = d.units) : activeUnits c = activeUnits d := by
  unfold activeUnits
  rw [h]

theorem unitOf_congr {s : State} {c : Cpd} (h : s.cpd.units = c.units) (u : Fin 4) : unitOf s u = nth c.units u := by
  rw [unitOf, h]

theorem evaluate_stops_enough :
    activeUnits (evaluate s).cpd ≤ demandOf s ∨ ∀ u, (unitOf (evaluate s) u).state ≠ .running := by
  by_cases h : demandOf s < activeUnits s.cpd
  · obtain ⟨active, running⟩ := stopSurplus_counts (timeBase s) (demandOf s) 4 s.cpd
    have four : runningUnits s.cpd ≤ 4 := countFin_le _
    have same := evaluate_surplus h
    rw [activeUnits_congr same]
    by_cases all : activeUnits s.cpd - demandOf s ≤ runningUnits s.cpd
    · exact .inl (by omega)
    · refine .inr fun u => ?_
      rw [unitOf_congr same]
      exact runningUnits_eq_zero.mp (by omega) u
  · refine .inl ?_
    rw [activeUnits_congr (evaluate_no_surplus (not_lt.mp h))]
    rcases startOne_cases (timeBase s) (demandOf s) s.cpd with stays | ⟨u, lack, -, chosen, starts⟩
    · rw [stays]
      exact not_lt.mp h
    · rw [starts, activeUnits_started (startChoice_ready chosen)]
      exact lack

theorem evaluate_stopped (h : demandOf s < activeUnits s.cpd) (changed : unitOf (evaluate s) u ≠ unitOf s u) :
    (unitOf s u).state = .running
      ∧ unitOf (evaluate s) u = stopUnit (timeBase s) s.cpd.settings .cooldown (unitOf s u) := by
  rw [unitOf_congr (evaluate_surplus h)] at changed ⊢
  exact (stopSurplus_stops _ _ _ _ u).resolve_left changed

theorem evaluate_stopped_count (h : demandOf s < activeUnits s.cpd) :
    countFin (fun u : Fin 4 => decide (unitOf (evaluate s) u ≠ unitOf s u))
      = min (activeUnits s.cpd - demandOf s) (countFin fun u : Fin 4 => decide ((unitOf s u).state = .running)) := by
  have changed : countFin (fun u : Fin 4 => decide (unitOf (evaluate s) u ≠ unitOf s u))
      + runningUnits (stopSurplus (timeBase s) (demandOf s) 4 s.cpd) = runningUnits s.cpd := by
    simp only [unitOf, evaluate_surplus h]
    exact stopSurplus_changed (timeBase s) (demandOf s) 4 s.cpd
  have counts := (stopSurplus_counts (timeBase s) (demandOf s) 4 s.cpd).2
  have four : runningUnits s.cpd ≤ 4 := countFin_le _
  show _ = min (activeUnits s.cpd - demandOf s) (runningUnits s.cpd)
  omega

theorem evaluate_starts (lack : activeUnits s.cpd < demandOf s) (idle : ∀ v, (unitOf s v).state ≠ .starting)
    (chosen : startChoice s.cpd = some u) :
    (evaluate s).cpd.units = alter s.cpd.units u (startUnit (timeBase s) s.cpd.settings) := by
  rw [evaluate_no_surplus lack.le, startOne, if_pos ⟨lack, startingUnit_eq_none.mpr idle⟩, chosen]

theorem evaluate_stands (h : activeUnits s.cpd = demandOf s
      ∨ (activeUnits s.cpd < demandOf s ∧ ((∃ v, (unitOf s v).state = .starting) ∨ startChoice s.cpd = none))) :
    (evaluate s).cpd.units = s.cpd.units := by
  rcases h with even | ⟨lack, busy⟩
  · rw [evaluate_no_surplus even.le, startOne_of_enough even.ge]
  · rw [evaluate_no_surplus lack.le]
    rcases startOne_cases (timeBase s) (demandOf s) s.cpd with stays | ⟨u, -, idle, chosen, -⟩
    · rw [stays]
    · rcases busy with ⟨v, starting⟩ | none
      · exact absurd starting (startingUnit_eq_none.mp idle v)
      · rw [none] at chosen
        cases chosen

/-- The reason of a shortfall (R106). -/
theorem formShortfall_reason (demand : Nat) (c : Cpd) :
    ((formShortfall demand c).reason = .noShortfall ↔ demand ≤ activeUnits c)
      ∧ ((formShortfall demand c).reason = .startInProgress ↔ activeUnits c < demand ∧ ∃ u, (nth c.units u).state = .starting) := by
  rw [← startingUnit_isSome]
  unfold formShortfall
  dsimp only
  by_cases enough : demand - activeUnits c = 0
  · rw [if_pos enough]
    exact ⟨iff_of_true rfl (by omega), iff_of_false nofun fun h => by omega⟩
  · rw [if_neg enough]
    split
    · next busy => exact ⟨iff_of_false nofun (by omega), iff_of_true rfl ⟨by omega, busy⟩⟩
    · next idle => exact ⟨iff_of_false nofun (by omega), iff_of_false nofun fun h => idle h.2⟩

end

/-! ### The units at a change of direction (R108) -/

section
variable {new : SiteDirection} {s : State}

theorem changeDirection_leaving (hs : s.dir.direction = .injecting) (hn : new ≠ .injecting) :
    (changeDirection new s).cpd = (leaveInjecting s).cpd := by
  rw [changeDirection_cpd, turnedCpd, if_pos hs]
  exact if_neg hn

theorem changeDirection_entering (hs : s.dir.direction ≠ .injecting) (hn : new = .injecting) :
    (changeDirection new s).cpd = (evaluate (s.withDir { s.dir with direction := new })).cpd := by
  rw [changeDirection_cpd, turnedCpd, if_neg hs]
  exact if_pos hn

theorem changeDirection_apart (hs : s.dir.direction ≠ .injecting) (hn : new ≠ .injecting) : (changeDirection new s).cpd = s.cpd := by
  rw [changeDirection_cpd, turnedCpd, if_neg hs]
  exact if_neg hn

theorem unitOf_leaveInjecting (s : State) (u : Fin 4) :
    unitOf (leaveInjecting s) u =
      if (unitOf s u).isActive then stopLeaving s.fine s.cpd.settings (unitOf s u) else unitOf s u := nth_each _ _ u

theorem stopLeaving_keeps (fine : Nat) (d : DutySettings) (u : UnitRecord) :
    (stopLeaving fine d u).startList = u.startList ∧ (stopLeaving fine d u).attempts = u.attempts
      ∧ (stopLeaving fine d u).state = (if u.feedback then .stopping .cooldown else .cooldown)
      ∧ (stopLeaving fine d u).deadline = some (fine / 100 + (if u.feedback then d.stopTimeout else d.cooldown) * 10) := by
  obtain ⟨starts, attempts, -, -⟩ := stopUnit_keeps (fine / 100) d u
  exact ⟨starts, attempts, stopUnit_state _ _ _, stopUnit_deadline _ _ _⟩

end

/-- Settles O39: the choices by their least key, the evaluation by the number of its stops and their order or by its one start, and a change
of direction by the direction it leaves and the one it enters. -/
theorem unitsAreChosenStartedAndStopped : Obligations.UnitsAreChosenStartedAndStopped := by
  refine ⟨fun c u => ⟨?_, ?_⟩, fun s => ⟨evaluate_stops_enough, fun u changed surplus => ?_, fun surplus =>
    ⟨evaluate_stopped_count surplus, fun u v running left stops => ?_⟩, fun lack idle u chosen => ?_, fun stands u => ?_, rfl, rfl, ?_, ?_⟩,
    fun new s => ⟨fun leaving other => ?_, changeDirection_entering, changeDirection_apart⟩⟩
  · rw [startChoice_iff]
    simp only [eligible_iff, runKey_lt, and_imp]
  · rw [stopChoice_iff]
    simp only [runKey_lt]
  · obtain ⟨running, stops⟩ := evaluate_stopped surplus changed
    refine ⟨running, ?_⟩
    rw [stops, stopUnit_state, stopUnit_deadline]
    split <;> exact ⟨rfl, rfl⟩
  · rw [unitOf_congr (evaluate_surplus surplus)] at left stops
    exact runKey_lt.mp (stopSurplus_order running left stops)
  · have starts := evaluate_starts lack idle chosen
    refine ⟨?_, fun v other => ?_⟩ <;> rw [unitOf, starts]
    · exact nth_alter_same _ _ _
    · exact nth_alter_other _ _ other
  · rw [unitOf, evaluate_stands stands, unitOf]
  · exact (formShortfall_reason _ _).1
  · exact (formShortfall_reason _ _).2
  · have cpd := changeDirection_leaving leaving other
    have unit (u : Fin 4) : unitOf (changeDirection new s) u = unitOf (leaveInjecting s) u := by rw [unitOf, cpd, unitOf]
    refine ⟨by rw [cpd]; rfl, by rw [cpd]; rfl, by rw [cpd]; rfl, fun u => ⟨fun starting running => ?_, fun active => ?_⟩⟩ <;>
      rw [unit, unitOf_leaveInjecting]
    · rw [isActive_eq_false.mpr ⟨starting, running⟩]
      rfl
    · rw [if_pos (isActive_iff.mpr active)]
      obtain ⟨starts, attempts, state, deadline⟩ := stopLeaving_keeps s.fine s.cpd.settings (unitOf s u)
      refine ⟨starts, attempts, fun feedback => ?_, fun feedback => ?_⟩ <;> rw [state, deadline, feedback] <;> exact ⟨rfl, rfl⟩

end Sys2Proof.Machine

/-! SUPPORT. The event of one unit: the unit made a record, the changeover tested where a unit's state has changed, and the duty evaluation
where R106 raises one; what it makes of the units, the conditions and the CPD (R90, R96, R102, R106). -/

namespace Sys2Proof.Machine

open Sys2Proof.Safety

/-! ### A unit under duty evaluations -/

/-- From `r` to `r'` a unit has at most been stopped out of RUNNING or started out of READY by duty evaluations. -/
def DutyTaken (now : Nat) (d : DutySettings) (r r' : UnitRecord) : Prop :=
  r' = r ∨ (r.state = .running ∧ r' = stopUnit now d .cooldown r) ∨ (r.state = .ready ∧ r' = startUnit now d r)

namespace DutyTaken

variable {now : Nat} {d : DutySettings} {r r' r'' : UnitRecord}

theorem refl (r : UnitRecord) : DutyTaken now d r r := .inl rfl

/-- A unit that is neither RUNNING nor READY is left by them. -/
theorem stands (h : DutyTaken now d r r') (running : r.state ≠ .running) (ready : r.state ≠ .ready) : r' = r := by
  rcases h with same | ⟨is_running, -⟩ | ⟨is_ready, -⟩
  · exact same
  · exact absurd is_running running
  · exact absurd is_ready ready

theorem trans (h : DutyTaken now d r r') (k : DutyTaken now d r' r'') : DutyTaken now d r r'' := by
  rcases h with rfl | ⟨running, rfl⟩ | ⟨ready, rfl⟩
  · exact k
  · have still := k.stands (by rw [stopUnit_state]; split <;> nofun) (by rw [stopUnit_state]; split <;> nofun)
    exact .inr (.inl ⟨running, still⟩)
  · exact .inr (.inr ⟨ready, k.stands nofun nofun⟩)

theorem feedback (h : DutyTaken now d r r') : r'.feedback = r.feedback := by
  rcases h with rfl | ⟨-, rfl⟩ | ⟨-, rfl⟩
  · rfl
  · exact (stopUnit_keeps now d r).2.2.2
  · rfl

theorem of_running (h : DutyTaken now d r r') (running : r.state = .running) :
    r'.attempts = r.attempts ∧ r'.totalStarts = r.totalStarts := by
  rcases h with rfl | ⟨-, rfl⟩ | ⟨ready, -⟩
  · exact ⟨rfl, rfl⟩
  · obtain ⟨-, attempts, starts, -⟩ := stopUnit_keeps now d r
    exact ⟨attempts, starts⟩
  · rw [running] at ready
    cases ready

theorem of_ready (h : DutyTaken now d r r') (ready : r.state = .ready) : r'.state = .ready ∨ r'.state = .starting := by
  rcases h with rfl | ⟨running, -⟩ | ⟨-, rfl⟩
  · exact .inl ready
  · rw [ready] at running
    cases running
  · exact .inr rfl

theorem startList (h : DutyTaken now d r r') : r'.startList = r.startList ∨ r'.startList = r.startList ++ [now] := by
  rcases h with rfl | ⟨-, rfl⟩ | ⟨-, rfl⟩
  · exact .inl rfl
  · exact .inl (stopUnit_keeps now d r).1
  · exact .inr rfl

end DutyTaken

section
variable (s : State) (v : Fin 4)

theorem dutyTaken_evaluate : DutyTaken (timeBase s) s.cpd.settings (unitOf s v) (unitOf (evaluate s) v) :=
  (evaluatedCpd_unit (demandOf s) (timeBase s) s.cpd v).imp_right (Or.imp_right fun ⟨ready, _, starts⟩ => ⟨ready, starts⟩)

/-- A changeover that completes evaluates the units, or leaves them. -/
theorem dutyTaken_testCompletion : DutyTaken (timeBase s) s.cpd.settings (unitOf s v) (unitOf (testCompletion s) v) := by
  unfold testCompletion
  split
  · next c hd =>
    split
    · have outside : s.dir.direction ≠ .injecting := by rw [hd]; nofun
      by_cases entering : c.target.direction = .injecting
      · rw [unitOf_congr (congrArg Cpd.units (changeDirection_entering outside entering))]
        exact dutyTaken_evaluate (s.withDir { s.dir with direction := c.target.direction }) v
      · rw [unitOf_congr (congrArg Cpd.units (changeDirection_apart outside entering))]
        exact .refl _
    · exact .refl _
  · exact .refl _

theorem dutyTaken_unitsReported (before : State) :
    DutyTaken (timeBase s) s.cpd.settings (unitOf s v) (unitOf (unitsReported before s) v) := by
  unfold unitsReported
  split
  · exact .refl _
  · exact dutyTaken_testCompletion s v

theorem dutyTaken_dutyEvaluation : DutyTaken (timeBase s) s.cpd.settings (unitOf s v) (unitOf (dutyEvaluation s) v) := by
  have settings : (evaluate s).cpd.settings = s.cpd.settings := congrArg Settings.duty (settingsOf_evaluate (s := s))
  have reported := dutyTaken_unitsReported (evaluate s) v s
  rw [settings] at reported
  exact (dutyTaken_evaluate s v).trans reported

end

/-! ### The event of a unit -/

/-- The end of a unit's event, from the state in which the unit has its record and its condition is reported: the DIR hears of the unit's
state, and a duty evaluation follows where the event raises one. -/
def unitEvent (before : State) (evaluates : Bool) (m : State) : State :=
  if evaluates then dutyEvaluation (unitsReported before m) else unitsReported before m

theorem changeUnit_eq (u : Fin 4) (f : UnitRecord → UnitRecord) (evaluates : Bool) (s : State) :
    changeUnit u f evaluates s = unitEvent s evaluates (alterUnit u f s) := rfl

/-- A unit's record in FAULTED (R102). -/
abbrev faultedWith (cause : UnitCause) (r : UnitRecord) : UnitRecord := { r with state := .faulted, cause := cause, deadline := none }

/-- A duty evaluation follows a fault out of these states (R106). -/
abbrev faultEvaluates (r : UnitRecord) : Bool := decide (r.state = .starting ∨ r.state = .running ∨ r.state = .cooldown)

/-- A fault marked, reported and flagged. -/
abbrev faultMarked (cause : UnitCause) (u : Fin 4) (s : State) : State :=
  setEventOps evUnitTripped (report (condUnit u) true (alterUnit u (faultedWith cause) s))

theorem faultUnit_eq (cause : UnitCause) (u : Fin 4) (s : State) :
    faultUnit cause u s = unitEvent s (faultEvaluates (unitOf s u)) (faultMarked cause u s) := by
  unfold faultUnit unitEvent
  exact if_congr decide_eq_true_iff.symm rfl rfl

/-- A unit that leaves FAULTED, with its condition fallen. -/
abbrev faultCleared (u : Fin 4) (leave : UnitRecord → UnitRecord) (s : State) : State :=
  report (condUnit u) false (alterUnit u (fun r => { leave r with cause := .noCause, attempts := 0 }) s)

theorem leaveFaulted_eq (u : Fin 4) (leave : UnitRecord → UnitRecord) (s : State) :
    leaveFaulted u leave s = unitEvent s true (faultCleared u leave s) := rfl

section
variable (before : State) (evaluates : Bool) (m : State)

theorem unitEvent_turned : Turned m (unitEvent before evaluates m) := by
  have told : Turned m (unitsReported before m) := by
    unfold unitsReported
    split
    · exact .refl m
    · exact testCompletion_turned m
  unfold unitEvent
  split
  · exact told.trans (dutyEvaluation_turned _)
  · exact told

theorem unitEvent_taken (v : Fin 4) :
    DutyTaken (timeBase m) m.cpd.settings (unitOf m v) (unitOf (unitEvent before evaluates m) v) := by
  have told := dutyTaken_unitsReported m v before
  unfold unitEvent
  split
  · have settings : (unitsReported before m).cpd.settings = m.cpd.settings :=
      congrArg Settings.duty (settingsOf_unitsReported (s := m) before)
    have time : timeBase (unitsReported before m) = timeBase m := timeBase_turned (unitEvent_turned before false m)
    have evaluated := dutyTaken_dutyEvaluation (unitsReported before m) v
    rw [settings, time] at evaluated
    exact told.trans evaluated
  · exact told

theorem unitEvent_condition (u : Fin 4) : conditionActive (unitEvent before evaluates m) (condUnit u) = conditionActive m (condUnit u) :=
  (unitEvent_turned before evaluates m).conditions _ (by revert u; decide)

theorem unitEvent_tripped : nth (unitEvent before evaluates m).cdt.ops.flags evUnitTripped = nth m.cdt.ops.flags evUnitTripped :=
  (unitEvent_turned before evaluates m).ops _ (by decide)

theorem unitEvent_shortfall : shortfallFormed (unitEvent before true m).cpd := shortfallFormed_dutyEvaluation _

end

/-! ### The CPD after the event -/

/-- From `s` to `m` unit `u` has become the record `r`, and reports of conditions at most have followed. -/
structure UnitMade (u : Fin 4) (r : UnitRecord) (s m : State) : Prop where
  cpd : m.cpd = (alterUnit u (fun _ => r) s).cpd
  dir : m.dir = s.dir
  fine : m.fine = s.fine
  net : openNet m = openNet s

namespace UnitMade

variable {u : Fin 4} {r : UnitRecord} {s m : State}

theorem refl (u : Fin 4) (s : State) : UnitMade u (unitOf s u) s s := by
  refine ⟨?_, rfl, rfl, rfl⟩
  have units : alter s.cpd.units u (fun _ => unitOf s u) = s.cpd.units := table_ext fun v => by
    rw [nth_alter]
    split
    · next h => rw [h, unitOf]
    · rfl
  exact congrArg (fun units => { s.cpd with units := units }) units.symm

theorem unit (h : UnitMade u r s m) : unitOf m u = r := by
  rw [unitOf, h.cpd]
  exact nth_alter_same _ _ _

theorem other (h : UnitMade u r s m) {v : Fin 4} (hv : v ≠ u) : unitOf m v = unitOf s v := by
  rw [unitOf, h.cpd]
  exact nth_alter_other _ _ hv

theorem settings (h : UnitMade u r s m) : m.cpd.settings = s.cpd.settings := by
  rw [h.cpd]
  rfl

theorem time (h : UnitMade u r s m) : timeBase m = timeBase s := by rw [timeBase, h.fine, timeBase]

/-- The unit's record changed once more. -/
theorem alter (h : UnitMade u r s m) (f : UnitRecord → UnitRecord) : UnitMade u (f r) s (alterUnit u f m) := by
  refine ⟨?_, h.dir, h.fine, h.net⟩
  have units : Sys2Proof.alter (Sys2Proof.alter s.cpd.units u fun _ => r) u f = Sys2Proof.alter s.cpd.units u fun _ => f r :=
    table_ext fun v => by
      by_cases hv : v = u
      · rw [hv, nth_alter_same, nth_alter_same, nth_alter_same]
      · rw [nth_alter_other _ _ hv, nth_alter_other _ _ hv, nth_alter_other _ _ hv]
  have cpd := h.cpd
  calc (alterUnit u f m).cpd = { m.cpd with units := Sys2Proof.alter m.cpd.units u f } := rfl
    _ = { s.cpd with units := Sys2Proof.alter s.cpd.units u fun _ => f r } := by
        rw [cpd, ← units]
        rfl

theorem report (h : UnitMade u r s m) (n : Fin 56) (a : Bool) : UnitMade u r s (report n a m) :=
  ⟨(report_changes n a m .cpd (by decide)).symm.trans h.cpd, (report_changes n a m .dir (by decide)).symm.trans h.dir,
    (report_changes n a m .fine (by decide)).symm.trans h.fine, (openNet_refirmed (report_refirmed n a m)).trans h.net⟩

theorem flag (h : UnitMade u r s m) (e : Fin 4) : UnitMade u r s (setEventOps e m) := ⟨h.cpd, h.dir, h.fine, h.net⟩

theorem runs (h : UnitMade u r s m) (active : r.isActive = true → (unitOf s u).isActive = true) (run : RunOnlyInjecting s) :
    RunOnlyInjecting m := by
  intro hd v
  have outside : s.dir.direction ≠ .injecting := h.dir ▸ hd
  by_cases hv : v = u
  · rw [hv, h.unit]
    refine isActive_eq_false.mp (Bool.eq_false_iff.mpr fun is_active => ?_)
    have rest := isActive_eq_false.mpr (run outside u)
    rw [active is_active] at rest
    cases rest
  · rw [h.other hv]
    exact run outside v

/-- An evaluation under any DIR sees no more of the event than the record. -/
theorem evaluate (h : UnitMade u r s m) (x : Dir) :
    (evaluate (m.withDir x)).cpd = (evaluate ((alterUnit u (fun _ => r) s).withDir x)).cpd := by
  have net : openNet (m.withDir x) = openNet ((alterUnit u (fun _ => r) s).withDir x) := h.net
  have demand : demandOf (m.withDir x) = demandOf ((alterUnit u (fun _ => r) s).withDir x) := by
    rw [demandOf_eq, demandOf_eq, net]
    rfl
  have time : timeBase (m.withDir x) = timeBase ((alterUnit u (fun _ => r) s).withDir x) := h.time
  rw [evaluate_eq, evaluate_eq, State.withCpd_cpd, State.withCpd_cpd, demand, time, State.withDir_cpd, h.cpd]
  rfl

/-- No changeover has completed: a duty evaluation at most follows. -/
theorem follows_kept (h : UnitMade u r s m) (run_m : RunOnlyInjecting m) {before : State} (told : unitsReported before m = m)
    (evaluates : Bool) : dutyFollows u r evaluates s (unitEvent before evaluates m) := by
  intro _
  unfold unitEvent
  rw [told]
  cases evaluates with
  | true =>
    rw [if_pos rfl, if_pos (.inl rfl), dutyEvaluation_of_run run_m, ← h.evaluate]
    rfl
  | false =>
    rw [if_neg Bool.false_ne_true, h.dir, if_neg fun e => e.elim Bool.false_ne_true fun turned => turned.1 turned.2]
    exact h.cpd

/-- A changeover has completed: it evaluates on entering INJECTING, and an evaluation after it finds nothing more to do. -/
theorem follows_completed (h : UnitMade u r s m) (run_m : RunOnlyInjecting m) {before : State} {c : Changeover}
    (hd : m.dir.direction = .changeover c) (told : unitsReported before m = changeDirection c.target.direction m) (evaluates : Bool) :
    dutyFollows u r evaluates s (unitEvent before evaluates m) := by
  intro _
  have outside : m.dir.direction ≠ .injecting := by rw [hd]; nofun
  unfold unitEvent
  rw [told]
  cases evaluates with
  | true =>
    have ended : ∀ d, (changeDirection c.target.direction m).dir.direction ≠ .changeover d := fun d => by
      rw [changeDirection_direction]
      exact direction_ne_changeover _ d
    rw [if_pos rfl, if_pos (.inl rfl), dutyEvaluation_settled ended, evaluate_changeDirection hd (atRest_of_run run_m outside), h.evaluate]
    rfl
  | false =>
    rw [if_neg Bool.false_ne_true, changeDirection_direction]
    by_cases entering : c.target.direction = .injecting
    · rw [if_pos (.inr ⟨h.dir ▸ outside, entering⟩), changeDirection_entering outside entering, ← h.evaluate, changeDirection_dir]
    · rw [if_neg fun e => e.elim Bool.false_ne_true fun turned => entering turned.2, changeDirection_apart outside entering]
      exact h.cpd

/-- The CPD after the event of a unit is the one that R90, R92 and R106 make of its record. -/
theorem follows (h : UnitMade u r s m) (active : r.isActive = true → (unitOf s u).isActive = true) (before : State) (evaluates : Bool) :
    dutyFollows u r evaluates s (unitEvent before evaluates m) := by
  intro run
  have run_m := h.runs active run
  by_cases settled : ∀ c, m.dir.direction ≠ .changeover c
  · exact h.follows_kept run_m (unitsReported_settled settled) evaluates run
  push Not at settled
  obtain ⟨c, hd⟩ := settled
  rcases unitsReported_cases (before := before) hd with ⟨told, -⟩ | ⟨told, -⟩
  · exact h.follows_kept run_m told evaluates run
  · exact h.follows_completed run_m hd told evaluates run

end UnitMade

/-! ### A unit that changes, enters FAULTED or leaves it -/

section
variable {u : Fin 4} {r : UnitRecord} {s m : State} (h : UnitMade u r s m)
include h

theorem changeUnit_taken (f : UnitRecord → UnitRecord) (evaluates : Bool) :
    DutyTaken (timeBase s) s.cpd.settings (f r) (unitOf (changeUnit u f evaluates m) u) := by
  have made := h.alter f
  have taken := unitEvent_taken m evaluates (alterUnit u f m) u
  rwa [made.unit, made.time, made.settings] at taken

theorem changeUnit_follows {f : UnitRecord → UnitRecord} (active : (f r).isActive = true → (unitOf s u).isActive = true)
    (evaluates : Bool) : dutyFollows u (f r) evaluates s (changeUnit u f evaluates m) :=
  (h.alter f).follows active m evaluates

theorem changeUnit_follows_rest {f : UnitRecord → UnitRecord} (rest : (f r).isActive = false) (evaluates : Bool) :
    dutyFollows u (f r) evaluates s (changeUnit u f evaluates m) :=
  changeUnit_follows h (fun active => absurd (rest.symm.trans active) Bool.false_ne_true) evaluates

/-- A change to a state that no duty evaluation leaves. -/
theorem changeUnit_unit {f : UnitRecord → UnitRecord} (running : (f r).state ≠ .running) (ready : (f r).state ≠ .ready) (evaluates : Bool) :
    unitOf (changeUnit u f evaluates m) u = f r := (changeUnit_taken h f evaluates).stands running ready

theorem faultMarked_made (cause : UnitCause) : UnitMade u (faultedWith cause r) s (faultMarked cause u m) :=
  ((h.alter _).report _ _).flag _

theorem faultUnit_unit (cause : UnitCause) : unitOf (faultUnit cause u m) u = faultedWith cause r := by
  have made := faultMarked_made h cause
  have taken := unitEvent_taken m (faultEvaluates (unitOf m u)) (faultMarked cause u m) u
  rw [made.unit] at taken
  rw [faultUnit_eq]
  exact taken.stands nofun nofun

theorem faultUnit_follows (cause : UnitCause) {evaluates : Bool} (he : faultEvaluates r = evaluates) :
    dutyFollows u (faultedWith cause r) evaluates s (faultUnit cause u m) := by
  rw [faultUnit_eq, h.unit, he]
  exact (faultMarked_made h cause).follows nofun m evaluates

theorem faultUnit_unitFaulted (cause : UnitCause) : unitFaulted u cause (faultUnit cause u m) := by
  unfold unitFaulted
  rw [faultUnit_unit h]
  refine ⟨rfl, rfl, rfl, ?_, ?_⟩ <;> rw [faultUnit_eq]
  · rw [unitEvent_condition]
    exact (conditionActive_report _ _ _ _).trans (if_pos rfl)
  · rw [unitEvent_tripped, opsFlags_setEventOps, if_pos rfl]

/-- A unit's record on leaving FAULTED. -/
abbrev clearedBy (leave : UnitRecord → UnitRecord) (r : UnitRecord) : UnitRecord := { leave r with cause := .noCause, attempts := 0 }

theorem faultCleared_made (leave : UnitRecord → UnitRecord) : UnitMade u (clearedBy leave r) s (faultCleared u leave m) :=
  (h.alter (clearedBy leave)).report _ _

theorem leaveFaulted_unit {leave : UnitRecord → UnitRecord} (running : (leave r).state ≠ .running) (ready : (leave r).state ≠ .ready) :
    unitOf (leaveFaulted u leave m) u = clearedBy leave r := by
  have made := faultCleared_made h leave
  have taken := unitEvent_taken m true (faultCleared u leave m) u
  rw [made.unit] at taken
  rw [leaveFaulted_eq]
  exact taken.stands running ready

theorem leaveFaulted_follows {leave : UnitRecord → UnitRecord} (rest : (leave r).isActive = false) :
    dutyFollows u (clearedBy leave r) true s (leaveFaulted u leave m) :=
  (faultCleared_made h leave).follows (fun active => absurd (rest.symm.trans active) Bool.false_ne_true) m true

end

theorem leaveFaulted_condition (u : Fin 4) (leave : UnitRecord → UnitRecord) (s : State) :
    conditionActive (leaveFaulted u leave s) (condUnit u) = false := by
  rw [leaveFaulted_eq, unitEvent_condition]
  exact (conditionActive_report _ _ _ _).trans (if_pos rfl)

end Sys2Proof.Machine

/-! SUPPORT. The changes of a feedback line state by state (R97, R99, R101, R102, R108), the expiries of a unit's timer and start list
(R100, R101, R103, R104), and the two statements on them. -/

namespace Sys2Proof.Machine

open Sys2Proof.Safety

/-! ### The table of R97 -/

/-- The level of a feedback line recorded. -/
abbrev feedbackRecorded (u : Fin 4) (level : Bool) (s : State) : State := alterUnit u (fun r => { r with feedback := level }) s

section
variable {u : Fin 4} {s : State}

theorem feedbackRecorded_made (level : Bool) :
    UnitMade u { unitOf s u with feedback := level } s (feedbackRecorded u level s) :=
  (UnitMade.refl u s).alter fun r => { r with feedback := level }

theorem exec_feedbackChange (held : heldInReset s = false) {level : Bool} (h : (unitOf s u).feedback ≠ level) :
    exec (.feedbackChange u level) s = .next (takeFeedback u level s) := by
  have occasion : decide ((unitOf s u).feedback ≠ level) = true := decide_eq_true h
  refine (unlessHeld_released _ held).trans ?_
  rw [occasion, onlyIf_true]

/-- A level that is recorded already is no change. -/
theorem exec_feedbackChange_same (u : Fin 4) (s : State) : exec (.feedbackChange u (unitOf s u).feedback) s = .next s := by
  have occasion : decide ((unitOf s u).feedback ≠ (unitOf s u).feedback) = false := decide_eq_false fun h => h rfl
  show unlessHeld (onlyIf (decide ((unitOf s u).feedback ≠ (unitOf s u).feedback)) _) s = _
  rw [occasion, unlessHeld_onlyIf_false]

theorem takeFeedback_unexpected
    (h : (unitOf s u).state = .out ∨ ((unitOf s u).state = .cooldown ∧ (unitOf s u).cutStart ≠ some s.fine) ∨ (unitOf s u).state = .ready) :
    takeFeedback u true s = faultUnit .unexpectedRun u (feedbackRecorded u true s) := by
  rcases h with state | ⟨state, uncut⟩ | state <;> simp only [takeFeedback, state]
  refine if_neg ?_
  rw [unitOf_alterUnit_same]
  exact uncut

theorem takeFeedback_cut (state : (unitOf s u).state = .cooldown) (cut : (unitOf s u).cutStart = some s.fine) :
    takeFeedback u true s = changeUnit u (enterStopping (timeBase s) s.cpd.settings .cooldown) false (feedbackRecorded u true s) := by
  simp only [takeFeedback, state]
  refine if_pos ?_
  rw [unitOf_alterUnit_same]
  exact cut

theorem takeFeedback_starts (state : (unitOf s u).state = .starting) :
    takeFeedback u true s = changeUnit u enterRunning true (feedbackRecorded u true s) := by
  simp only [takeFeedback, state]

theorem takeFeedback_trips (state : (unitOf s u).state = .running) :
    takeFeedback u false s = faultUnit .trip u (feedbackRecorded u false s) := by
  simp only [takeFeedback, state]

theorem takeFeedback_arrives {d : StopDestination} (state : (unitOf s u).state = .stopping d) :
    takeFeedback u false s = changeUnit u (arrive (timeBase s) s.cpd.settings d) false (feedbackRecorded u false s) := by
  simp only [takeFeedback, state]

theorem takeFeedback_records_rise
    (h : (unitOf s u).state = .faulted ∨ (unitOf s u).state = .running ∨ ∃ d, (unitOf s u).state = .stopping d) :
    takeFeedback u true s = feedbackRecorded u true s := by
  rcases h with state | state | ⟨d, state⟩ <;> simp only [takeFeedback, state]

theorem takeFeedback_records_fall (h : (unitOf s u).state = .out ∨ (unitOf s u).state = .cooldown ∨ (unitOf s u).state = .ready
      ∨ (unitOf s u).state = .starting ∨ (unitOf s u).state = .faulted) :
    takeFeedback u false s = feedbackRecorded u false s := by
  rcases h with state | state | state | state | state <;> simp only [takeFeedback, state]

/-- Where no more units are active than the demand an evaluation leaves a RUNNING unit. -/
theorem evaluate_leaves_running (enough : activeUnits s.cpd ≤ demandOf s) (running : (unitOf s u).state = .running) :
    unitOf (evaluate s) u = unitOf s u := by
  rw [unitOf_congr (evaluate_no_surplus enough)]
  rcases startOne_units (timeBase s) (demandOf s) s.cpd u with same | starting
  · exact same
  · rcases startOne_cases (timeBase s) (demandOf s) s.cpd with stays | ⟨v, -, -, chosen, starts⟩
    · rw [stays, unitOf]
    · have other : u ≠ v := by
        rintro rfl
        exact absurd (running.symm.trans (startChoice_ready chosen)) nofun
      rw [starts]
      exact nth_alter_other _ _ other

/-- A unit that enters RUNNING stays there where the demand holds the active units (R99, R106). -/
theorem enterRunning_stays (state : (unitOf s u).state = .starting) (settled : ∀ c, s.dir.direction ≠ .changeover c)
    (enough : activeUnits s.cpd ≤ demandOf s) :
    unitOf (takeFeedback u true s) u = enterRunning { unitOf s u with feedback := true } := by
  have made := (feedbackRecorded_made (u := u) (s := s) true).alter enterRunning
  have active : activeUnits (alterUnit u enterRunning (feedbackRecorded u true s)).cpd = activeUnits s.cpd := by
    unfold activeUnits
    refine congrArg countFin (funext fun v => ?_)
    show (unitOf (alterUnit u enterRunning (feedbackRecorded u true s)) v).isActive = (unitOf s v).isActive
    by_cases hv : v = u
    · rw [hv, made.unit, isActive_iff.mpr (.inl state)]
      rfl
    · rw [made.other hv]
  have told : unitsReported (feedbackRecorded u true s) (alterUnit u enterRunning (feedbackRecorded u true s))
      = alterUnit u enterRunning (feedbackRecorded u true s) := unitsReported_settled settled
  have here : takeFeedback u true s = evaluate (alterUnit u enterRunning (feedbackRecorded u true s)) := by
    rw [takeFeedback_starts state, changeUnit_eq, unitEvent, if_pos rfl, told, dutyEvaluation_settled]
    exact settled
  rw [here, evaluate_leaves_running (by rw [active]; exact enough) (by rw [made.unit]; rfl), made.unit]

end

/-- Settles O37: by the cells of the table of R97, each a fault, a change or a level recorded. -/
theorem feedbackChangeActsOnTheUnitsState : Obligations.FeedbackChangeActsOnTheUnitsState := by
  intro u s held
  have changes (level : Bool) := takeFeedback_changes u level s
  refine ⟨fun low => ?_, fun high => ?_, exec_feedbackChange_same u s⟩
  · have rises : exec (.feedbackChange u true) s = .next (takeFeedback u true s) := exec_feedbackChange held (by rw [low]; nofun)
    have made := feedbackRecorded_made (u := u) (s := s) true
    refine ⟨fun unexpected => ?_, fun state cut => ?_, fun state => ?_, fun recorded => ?_⟩
    · have taken := takeFeedback_unexpected unexpected
      have evaluates : faultEvaluates { unitOf s u with feedback := true } = decide ((unitOf s u).state = .cooldown) := by
        rcases unexpected with state | ⟨state, -⟩ | state <;> simp [state]
      refine ⟨_, rises, ?_, ?_, ?_, changes true⟩ <;> rw [taken]
      · exact faultUnit_unitFaulted made _
      · rw [faultUnit_unit made]
      · exact faultUnit_follows made .unexpectedRun evaluates
    · have taken := takeFeedback_cut state cut
      have unit := changeUnit_unit (f := enterStopping (timeBase s) s.cpd.settings .cooldown) made nofun nofun false
      rw [← taken] at unit
      refine ⟨_, rises, unit, ?_, changes true⟩
      rw [unit, taken]
      exact changeUnit_follows_rest made rfl false
    · have taken := changeUnit_taken made enterRunning true
      rw [← takeFeedback_starts state] at taken
      obtain ⟨attempts, starts⟩ := taken.of_running rfl
      refine ⟨_, rises, taken.feedback, attempts, starts, ?_, fun settled enough => ?_, changes true⟩
      · rw [takeFeedback_starts state]
        exact changeUnit_follows made (fun _ => isActive_iff.mpr (.inl state)) true
      · rw [enterRunning_stays state settled enough]
        exact ⟨rfl, rfl⟩
    · rw [rises, takeFeedback_records_rise recorded]
  · have falls : exec (.feedbackChange u false) s = .next (takeFeedback u false s) := exec_feedbackChange held (by rw [high]; nofun)
    have made := feedbackRecorded_made (u := u) (s := s) false
    refine ⟨fun state => ?_, fun d state => ?_, fun recorded => ?_⟩
    · have taken := takeFeedback_trips state
      refine ⟨_, falls, ?_, ?_, ?_, changes false⟩ <;> rw [taken]
      · exact faultUnit_unitFaulted made _
      · rw [faultUnit_unit made]
      · exact faultUnit_follows made .trip (decide_eq_true (.inr (.inl state)))
    · have unit : unitOf (takeFeedback u false s) u = arrive (timeBase s) s.cpd.settings d { unitOf s u with feedback := false } := by
        rw [takeFeedback_arrives state]
        exact changeUnit_unit made (by cases d <;> nofun) (by cases d <;> nofun) false
      have follows := changeUnit_follows_rest made (f := arrive (timeBase s) s.cpd.settings d) (arrive_notActive _ _ _ _) false
      rw [← takeFeedback_arrives state] at follows
      refine ⟨_, falls, ?_, ?_, ?_, ?_, changes false⟩
      · rw [unit]
        cases d <;> rfl
      · cases d <;> exact follows
      · rintro rfl
        rw [unit]
        exact ⟨rfl, rfl⟩
      · rintro rfl
        rw [unit]
        rfl
    · rw [falls, takeFeedback_records_fall recorded]

/-! ### The timer and the start list (R100, R101, R103, R104) -/

section
variable {u : Fin 4} {s : State}

/-- An event whose occasion holds, out of reset. -/
theorem unlessHeld_onlyIf_true (held : heldInReset s = false) {occasion : Bool} (h : occasion = true) (f : State → State) :
    unlessHeld (onlyIf occasion f) s = .next (f s) := by
  rw [unlessHeld_released _ held, h, onlyIf_true]

theorem unitTimer_due {d : Nat} {p : UnitState → Bool} (deadline : (unitOf s u).deadline = some d) (due : d ≤ timeBase s)
    (state : p (unitOf s u).state = true) : unitTimer s u p = true := by
  rw [unitTimer, state, deadline]
  exact decide_eq_true due

theorem unitTimer_undue (h : (unitOf s u).deadline = none ∨ ∃ d, (unitOf s u).deadline = some d ∧ timeBase s < d) (p : UnitState → Bool) :
    unitTimer s u p = false := by
  unfold unitTimer
  rcases h with none | ⟨d, deadline, early⟩
  · rw [none]
    exact Bool.and_false _
  · rw [deadline, reached, decide_eq_false (not_le.mpr early), Bool.and_false]

theorem startFails_again (h : (unitOf s u).attempts ≤ s.cpd.settings.startRetries) :
    startFails u s = changeUnit u (enterCooldown (timeBase s) s.cpd.settings) true s := if_pos h

theorem startFails_last (h : s.cpd.settings.startRetries < (unitOf s u).attempts) : startFails u s = faultUnit .startFailed u s :=
  if_neg (not_le.mpr h)

theorem cooldownEnds_running (h : (unitOf s u).feedback = true) : cooldownEnds u s = faultUnit .unexpectedRun u s := if_pos h

theorem cooldownEnds_ready (h : (unitOf s u).feedback = false) : cooldownEnds u s = changeUnit u enterReady true s :=
  if_neg (Bool.eq_false_iff.mp h)

theorem startEntryExpired_iff {first : Nat} {later : List Nat} (list : (unitOf s u).startList = first :: later) :
    startEntryExpired s u = true ↔ first + 36000 ≤ timeBase s := by
  unfold startEntryExpired
  rw [list]
  exact decide_eq_true_iff

/-- The oldest start left out of the list, before the evaluation. -/
abbrev startEntryDropped (u : Fin 4) (s : State) : State := alterUnit u (fun r => { r with startList := r.startList.tail }) s

theorem startEntryDropped_made (u : Fin 4) (s : State) :
    UnitMade u { unitOf s u with startList := (unitOf s u).startList.tail } s (startEntryDropped u s) :=
  (UnitMade.refl u s).alter fun r => { r with startList := r.startList.tail }

/-- No state has changed, so that the evaluation is the whole of the event. -/
theorem dropStartEntry_eq (u : Fin 4) (s : State) : dropStartEntry u s = unitEvent s true (startEntryDropped u s) := by
  have told : unitsReported s (startEntryDropped u s) = startEntryDropped u s := unitsReported_same fun v => by
    by_cases hv : v = u
    · rw [hv, (startEntryDropped_made u s).unit]
    · rw [(startEntryDropped_made u s).other hv]
  rw [unitEvent, if_pos rfl, told]
  rfl

theorem dropStartEntry_startList (u : Fin 4) (s : State) :
    (unitOf (dropStartEntry u s) u).startList = (unitOf s u).startList.tail
      ∨ (unitOf (dropStartEntry u s) u).startList = (unitOf s u).startList.tail ++ [timeBase s] := by
  have made := startEntryDropped_made u s
  have taken := unitEvent_taken s true (startEntryDropped u s) u
  rw [made.unit, made.time, made.settings, ← dropStartEntry_eq] at taken
  exact taken.startList

theorem dropStartEntry_follows (u : Fin 4) (s : State) :
    dutyFollows u { unitOf s u with startList := (unitOf s u).startList.tail } true s (dropStartEntry u s) := by
  rw [dropStartEntry_eq]
  exact (startEntryDropped_made u s).follows id s true

end

/-- Settles O38: each expiry by the test of its deadline, and what it then does to the unit. -/
theorem unitTimersExpire : Obligations.UnitTimersExpire := by
  intro u s held
  have here := UnitMade.refl u s
  refine ⟨fun d deadline due => ⟨fun state => ?_, fun stopping => ?_, fun state => ?_⟩, fun undue => ?_, fun first later list =>
    ⟨fun expired => ?_, fun early => ?_⟩, fun empty => ?_⟩
  · have expires : exec (.startTimeout u) s = .next (startFails u s) :=
      unlessHeld_onlyIf_true held (unitTimer_due deadline due (decide_eq_true state)) _
    have changes := startFails_changes u s
    refine ⟨fun again => ?_, fun last => ?_⟩
    · have unit := changeUnit_unit (f := enterCooldown (timeBase s) s.cpd.settings) here nofun nofun true
      have follows := changeUnit_follows_rest (f := enterCooldown (timeBase s) s.cpd.settings) here rfl true
      rw [startFails_again again] at expires changes
      exact ⟨_, expires, by rw [unit]; rfl, follows, by rw [unit]; rfl, by rw [unit]; rfl, changes⟩
    · rw [startFails_last last] at expires changes
      exact ⟨_, expires, faultUnit_unitFaulted here _, faultUnit_follows here _ (decide_eq_true (.inl state)), changes⟩
  · obtain ⟨x, state⟩ := stopping
    have expires : exec (.stopTimeout u) s = .next (faultUnit .stopFailed u s) :=
      unlessHeld_onlyIf_true held (unitTimer_due deadline due (by rw [state]; rfl)) _
    have evaluates : faultEvaluates (unitOf s u) = false := by simp [state]
    exact ⟨_, expires, faultUnit_unitFaulted here _, faultUnit_follows here _ evaluates, faultUnit_changes _ u s⟩
  · have expires : exec (.cooldownExpiry u) s = .next (cooldownEnds u s) :=
      unlessHeld_onlyIf_true held (unitTimer_due deadline due (decide_eq_true state)) _
    have changes := cooldownEnds_changes u s
    refine ⟨fun running => ?_, fun stopped => ?_⟩
    · rw [cooldownEnds_running running] at expires changes
      exact ⟨_, expires, faultUnit_unitFaulted here _, faultUnit_follows here _ (decide_eq_true (.inr (.inr state))), changes⟩
    · rw [cooldownEnds_ready stopped] at expires changes
      exact ⟨_, expires, (changeUnit_taken here enterReady true).of_ready rfl, changeUnit_follows_rest here rfl true, changes⟩
  · have nothing (p : UnitState → Bool) (f : State → State) : unlessHeld (onlyIf (unitTimer s u p) f) s = .next s := by
      rw [unitTimer_undue undue, unlessHeld_onlyIf_false]
    exact ⟨nothing _ _, nothing _ _, nothing _ _⟩
  · have drops : exec (.startListExpiry u) s = .next (dropStartEntry u s) :=
      unlessHeld_onlyIf_true held ((startEntryExpired_iff list).mpr expired) _
    have lists := dropStartEntry_startList u s
    have follows := dropStartEntry_follows u s
    rw [list] at lists follows
    exact ⟨_, drops, lists, follows, dropStartEntry_changes u s⟩
  · have undue : startEntryExpired s u = false :=
      Bool.eq_false_iff.mpr fun due => absurd ((startEntryExpired_iff list).mp due) (not_le.mpr early)
    show unlessHeld (onlyIf (startEntryExpired s u) (dropStartEntry u)) s = .next s
    rw [undue, unlessHeld_onlyIf_false]
  · have undue : startEntryExpired s u = false := by rw [startEntryExpired, empty]
    show unlessHeld (onlyIf (startEntryExpired s u) (dropStartEntry u)) s = .next s
    rw [undue, unlessHeld_onlyIf_false]

end Sys2Proof.Machine

/-! SUPPORT. SET-UNIT and RESET-UNIT by the state of the unit (R110, R111), and the statement on them. -/

namespace Sys2Proof.Machine

open Sys2Proof.Safety

/-! ### A unit that a request makes a record -/

/-- From `s` to `t` a unit has become the record `r`, which no duty evaluation changes, and the CPD is the one that R106 makes of it. -/
def UnitActed (u : Fin 4) (r : UnitRecord) (evaluates : Bool) (s t : State) : Prop := unitOf t u = r ∧ dutyFollows u r evaluates s t

namespace UnitMade

variable {u : Fin 4} {r : UnitRecord} {s m : State} (h : UnitMade u r s m)
include h

/-- A record stored without an event: nothing is evaluated. -/
theorem stored : UnitActed u r false s m := by
  refine ⟨h.unit, fun _ => ?_⟩
  rw [h.dir, if_neg fun e => e.elim Bool.false_ne_true fun turned => turned.1 turned.2]
  exact h.cpd

/-- A change to a state that no duty evaluation leaves. -/
theorem changed {f : UnitRecord → UnitRecord} (rest : (f r).isActive = false) (ready : (f r).state ≠ .ready) (evaluates : Bool) :
    UnitActed u (f r) evaluates s (changeUnit u f evaluates m) :=
  ⟨changeUnit_unit h (isActive_eq_false.mp rest).2 ready evaluates, changeUnit_follows_rest h rest evaluates⟩

theorem cleared {leave : UnitRecord → UnitRecord} (rest : (leave r).isActive = false) (ready : (leave r).state ≠ .ready) :
    UnitActed u (clearedBy leave r) true s (leaveFaulted u leave m) :=
  ⟨leaveFaulted_unit h (isActive_eq_false.mp rest).2 ready, leaveFaulted_follows h rest⟩

end UnitMade

theorem storeService_made (u : Fin 4) (inService : Bool) (s : State) :
    UnitMade u { unitOf s u with inService := inService } s (storeService u inService s) :=
  (UnitMade.refl u s).alter fun r => { r with inService := inService }

theorem shortfall_changeUnit (u : Fin 4) (f : UnitRecord → UnitRecord) (s : State) : shortfallFormed (changeUnit u f true s).cpd :=
  unitEvent_shortfall _ _

theorem shortfall_leaveFaulted (u : Fin 4) (leave : UnitRecord → UnitRecord) (s : State) :
    shortfallFormed (leaveFaulted u leave s).cpd := unitEvent_shortfall _ _

/-! ### SET-UNIT with OUT_OF_SERVICE (R110) -/

/-- The unit of a request, out of service. -/
abbrev outRecord (u : Fin 4) (s : State) : UnitRecord := { unitOf s u with inService := false }

section
variable {u : Fin 4} {s : State}

theorem takeOutOfService_of_out (state : (unitOf s u).state = .out) : takeOutOfService u s = storeService u false s := by
  simp only [takeOutOfService, (storeService_made u false s).unit, state]

theorem takeOutOfService_of_ready (state : (unitOf s u).state = .ready) :
    takeOutOfService u s = changeUnit u enterOut false (storeService u false s) := by
  simp only [takeOutOfService, (storeService_made u false s).unit, state]

theorem takeOutOfService_of_cooldown (state : (unitOf s u).state = .cooldown) :
    takeOutOfService u s = changeUnit u enterOut true (storeService u false s) := by
  simp only [takeOutOfService, (storeService_made u false s).unit, state]

theorem takeOutOfService_of_faulted (state : (unitOf s u).state = .faulted) :
    takeOutOfService u s = leaveFaulted u enterOut (storeService u false s) := by
  simp only [takeOutOfService, (storeService_made u false s).unit, state]

theorem takeOutOfService_of_active (state : (unitOf s u).state = .starting ∨ (unitOf s u).state = .running) :
    takeOutOfService u s = changeUnit u (stopUnit (timeBase s) s.cpd.settings .out) true (storeService u false s) := by
  rcases state with state | state <;> simp only [takeOutOfService, (storeService_made u false s).unit, state] <;> rfl

theorem takeOutOfService_of_stopping {d : StopDestination} (state : (unitOf s u).state = .stopping d) :
    takeOutOfService u s = alterUnit u (fun r => { r with state := .stopping .out }) (storeService u false s) := by
  simp only [takeOutOfService, (storeService_made u false s).unit, state]

theorem stopUnit_out_state (now : Nat) (d : DutySettings) (r : UnitRecord) :
    (stopUnit now d .out r).state = if r.feedback then .stopping .out else .out := by
  unfold stopUnit
  split <;> rfl

theorem stopUnit_inService (now : Nat) (d : DutySettings) (destination : StopDestination) (r : UnitRecord) :
    (stopUnit now d destination r).inService = r.inService := by
  unfold stopUnit
  split
  · rfl
  · cases destination <;> rfl

theorem takeOutOfService_acts_out (state : (unitOf s u).state = .out) :
    UnitActed u (outRecord u s) false s (takeOutOfService u s) := by
  rw [takeOutOfService_of_out state]
  exact (storeService_made u false s).stored

theorem takeOutOfService_acts_ready (state : (unitOf s u).state = .ready) :
    UnitActed u (enterOut (outRecord u s)) false s (takeOutOfService u s) := by
  rw [takeOutOfService_of_ready state]
  exact (storeService_made u false s).changed (f := enterOut) rfl nofun false

theorem takeOutOfService_acts_cooldown (state : (unitOf s u).state = .cooldown) :
    UnitActed u (enterOut (outRecord u s)) true s (takeOutOfService u s) := by
  rw [takeOutOfService_of_cooldown state]
  exact (storeService_made u false s).changed (f := enterOut) rfl nofun true

theorem takeOutOfService_acts_faulted (state : (unitOf s u).state = .faulted) :
    UnitActed u (clearedBy enterOut (outRecord u s)) true s (takeOutOfService u s) := by
  rw [takeOutOfService_of_faulted state]
  exact (storeService_made u false s).cleared (leave := enterOut) rfl nofun

theorem takeOutOfService_acts_active (state : (unitOf s u).state = .starting ∨ (unitOf s u).state = .running) :
    UnitActed u (stopUnit (timeBase s) s.cpd.settings .out (outRecord u s)) true s (takeOutOfService u s) := by
  rw [takeOutOfService_of_active state]
  refine (storeService_made u false s).changed (stopUnit_notActive _ _ _ _) ?_ true
  rw [stopUnit_out_state]
  split <;> nofun

theorem takeOutOfService_acts_stopping {d : StopDestination} (state : (unitOf s u).state = .stopping d) :
    UnitActed u { outRecord u s with state := .stopping .out } false s (takeOutOfService u s) := by
  rw [takeOutOfService_of_stopping state]
  exact ((storeService_made u false s).alter fun r => { r with state := .stopping .out }).stored

theorem takeOutOfService_inService (u : Fin 4) (s : State) : (unitOf (takeOutOfService u s) u).inService = false := by
  cases state : (unitOf s u).state with
  | out => rw [(takeOutOfService_acts_out state).1]
  | ready => rw [(takeOutOfService_acts_ready state).1]; rfl
  | cooldown => rw [(takeOutOfService_acts_cooldown state).1]; rfl
  | faulted => rw [(takeOutOfService_acts_faulted state).1]; rfl
  | starting => rw [(takeOutOfService_acts_active (.inl state)).1, stopUnit_inService]
  | running => rw [(takeOutOfService_acts_active (.inr state)).1, stopUnit_inService]
  | stopping d => rw [(takeOutOfService_acts_stopping state).1]

/-- The unit stands OUT, its timer stopped and its attempts cleared, out of READY, COOLDOWN and FAULTED. -/
theorem takeOutOfService_cleared
    (state : (unitOf s u).state = .ready ∨ (unitOf s u).state = .cooldown ∨ (unitOf s u).state = .faulted) :
    (unitOf (takeOutOfService u s) u).state = .out ∧ (unitOf (takeOutOfService u s) u).deadline = none
      ∧ (unitOf (takeOutOfService u s) u).attempts = 0 := by
  rcases state with state | state | state
  · rw [(takeOutOfService_acts_ready state).1]
    exact ⟨rfl, rfl, rfl⟩
  · rw [(takeOutOfService_acts_cooldown state).1]
    exact ⟨rfl, rfl, rfl⟩
  · rw [(takeOutOfService_acts_faulted state).1]
    exact ⟨rfl, rfl, rfl⟩

theorem takeOutOfService_state_out (state : (unitOf s u).state = .out ∨ (unitOf s u).state = .ready ∨ (unitOf s u).state = .cooldown
      ∨ (unitOf s u).state = .faulted) : (unitOf (takeOutOfService u s) u).state = .out := by
  rcases state with state | state
  · rw [(takeOutOfService_acts_out state).1]
    exact state
  · exact (takeOutOfService_cleared state).1

theorem takeOutOfService_fault (state : (unitOf s u).state = .faulted) :
    (unitOf (takeOutOfService u s) u).cause = .noCause ∧ conditionActive (takeOutOfService u s) (condUnit u) = false := by
  refine ⟨congrArg UnitRecord.cause (takeOutOfService_acts_faulted state).1, ?_⟩
  rw [takeOutOfService_of_faulted state]
  exact leaveFaulted_condition _ _ _

theorem takeOutOfService_stops (state : (unitOf s u).state = .starting ∨ (unitOf s u).state = .running) :
    if (unitOf s u).feedback then
      (unitOf (takeOutOfService u s) u).state = .stopping .out
        ∧ (unitOf (takeOutOfService u s) u).deadline = some (timeBase s + s.cpd.settings.stopTimeout * 10)
    else (unitOf (takeOutOfService u s) u).state = .out := by
  rw [(takeOutOfService_acts_active state).1]
  split
  · next running =>
    rw [stopUnit_of_feedback _ _ (outRecord u s) _ running]
    exact ⟨rfl, rfl⟩
  · next stopped =>
    rw [stopUnit_of_no_feedback _ _ (outRecord u s) _ (Bool.eq_false_iff.mpr stopped)]
    rfl

theorem takeOutOfService_stopping {d : StopDestination} (state : (unitOf s u).state = .stopping d) :
    (unitOf (takeOutOfService u s) u).state = .stopping .out ∧ (unitOf (takeOutOfService u s) u).deadline = (unitOf s u).deadline := by
  rw [(takeOutOfService_acts_stopping state).1]
  exact ⟨rfl, rfl⟩

theorem takeOutOfService_shortfall (state : (unitOf s u).state = .starting ∨ (unitOf s u).state = .running
      ∨ (unitOf s u).state = .cooldown ∨ (unitOf s u).state = .faulted) : shortfallFormed (takeOutOfService u s).cpd := by
  rcases state with state | state | state | state
  · rw [takeOutOfService_of_active (.inl state)]
    exact shortfall_changeUnit _ _ _
  · rw [takeOutOfService_of_active (.inr state)]
    exact shortfall_changeUnit _ _ _
  · rw [takeOutOfService_of_cooldown state]
    exact shortfall_changeUnit _ _ _
  · rw [takeOutOfService_of_faulted state]
    exact shortfall_leaveFaulted _ _ _

end

/-! ### SET-UNIT with IN_SERVICE (R111) -/

/-- The unit of a request, in service. -/
abbrev inRecord (u : Fin 4) (s : State) : UnitRecord := { unitOf s u with inService := true }

section
variable {u : Fin 4} {s : State}

theorem returnToService_acts_out (state : (unitOf s u).state = .out) :
    UnitActed u (enterCooldown (timeBase s) s.cpd.settings (inRecord u s)) false s (returnToService u s) := by
  have made := storeService_made u true s
  have back : returnToService u s = changeUnit u (enterCooldown (timeBase s) s.cpd.settings) false (storeService u true s) := by
    simp only [returnToService, made.unit, state]
    rfl
  rw [back]
  exact made.changed (f := enterCooldown (timeBase s) s.cpd.settings) rfl nofun false

theorem returnToService_acts_stopping_out (state : (unitOf s u).state = .stopping .out) :
    UnitActed u { inRecord u s with state := .stopping .cooldown } false s (returnToService u s) := by
  have made := storeService_made u true s
  have back : returnToService u s = alterUnit u (fun r => { r with state := .stopping .cooldown }) (storeService u true s) := by
    simp only [returnToService, made.unit, state]
  rw [back]
  exact (made.alter fun r => { r with state := .stopping .cooldown }).stored

/-- In the other states the setting alone is stored. -/
theorem returnToService_acts_stored (out : (unitOf s u).state ≠ .out) (stopping : (unitOf s u).state ≠ .stopping .out) :
    UnitActed u (inRecord u s) false s (returnToService u s) := by
  have made := storeService_made u true s
  have back : returnToService u s = storeService u true s := by
    unfold returnToService
    dsimp only
    split
    · next state => exact absurd ((congrArg UnitRecord.state made.unit).symm.trans state) out
    · next state => exact absurd ((congrArg UnitRecord.state made.unit).symm.trans state) stopping
    · rfl
  rw [back]
  exact made.stored

theorem returnToService_inService (u : Fin 4) (s : State) : (unitOf (returnToService u s) u).inService = true := by
  by_cases out : (unitOf s u).state = .out
  · rw [(returnToService_acts_out out).1]
    rfl
  by_cases stopping : (unitOf s u).state = .stopping .out
  · rw [(returnToService_acts_stopping_out stopping).1]
  · rw [(returnToService_acts_stored out stopping).1]

theorem returnToService_stopping {d : StopDestination} (state : (unitOf s u).state = .stopping d) :
    (unitOf (returnToService u s) u).state = .stopping .cooldown := by
  cases d with
  | out => rw [(returnToService_acts_stopping_out state).1]
  | cooldown =>
    rw [(returnToService_acts_stored (by rw [state]; nofun) (by rw [state]; nofun)).1]
    exact state

theorem returnToService_keeps_state (moving : ∀ d, (unitOf s u).state ≠ .stopping d) (out : (unitOf s u).state ≠ .out) :
    (unitOf (returnToService u s) u).state = (unitOf s u).state := by
  rw [(returnToService_acts_stored out (moving .out)).1]

theorem returnToService_cooldown (state : (unitOf s u).state = .out) :
    (unitOf (returnToService u s) u).state = .cooldown
      ∧ (unitOf (returnToService u s) u).deadline = some (timeBase s + s.cpd.settings.cooldown * 10) := by
  rw [(returnToService_acts_out state).1]
  exact ⟨rfl, rfl⟩

end

/-! ### The requests -/

section
variable {u : Fin 4} {number service : Byte} {s : State} (held : heldInReset s = false)
include held

theorem exec_setUnit_malformed (outside : number.toNat = 0 ∨ 4 < number.toNat) :
    exec (.setUnit .ops [number, service]) s = .next (answered .ops 4 .malformed [0x61] s) := by
  have none : ordinal? 4 (byteAt [number, service] 0) = none := ordinal?_outside outside
  exact serve_refused (owner := some .ops) (p := .ops) held rfl rfl (by simp only [setUnit, none])

theorem exec_resetUnit_malformed (outside : number.toNat = 0 ∨ 4 < number.toNat) :
    exec (.resetUnit .ops [number]) s = .next (answered .ops 3 .malformed [0x62] s) := by
  have none : ordinal? 4 (byteAt [number] 0) = none := ordinal?_outside outside
  exact serve_refused (owner := some .ops) (p := .ops) held rfl rfl (by simp only [resetUnit, none])

omit held in
theorem setUnit_unit (service : Byte) : ordinal? 4 (byteAt (ubytes 1 (u.val + 1) ++ [service]) 0) = some u := by
  rw [byteAt_append_left (by rw [length_ubytes]; decide), byteAt_ubytes (by omega), ordinal?_succ]

theorem exec_setUnit_out :
    exec (.setUnit .ops (ubytes 1 (u.val + 1) ++ [1])) s = .next (accepted .ops 0x61 2 (takeOutOfService u s)) := by
  have setting : service? (byteAt (ubytes 1 (u.val + 1) ++ [1]) 1) = some false := rfl
  exact serve_taken (owner := some .ops) (p := .ops) held rfl rfl (by simp only [setUnit, setUnit_unit, setting]; rfl)

theorem exec_setUnit_in :
    exec (.setUnit .ops (ubytes 1 (u.val + 1) ++ [0])) s = .next (accepted .ops 0x61 2 (returnToService u s)) := by
  have setting : service? (byteAt (ubytes 1 (u.val + 1) ++ [0]) 1) = some true := rfl
  exact serve_taken (owner := some .ops) (p := .ops) held rfl rfl (by simp only [setUnit, setUnit_unit, setting]; rfl)

omit held in
theorem resetUnit_number : ordinal? 4 (byteAt (ubytes 1 (u.val + 1)) 0) = some u := by
  rw [byteAt_ubytes (by omega), ordinal?_succ]

theorem exec_resetUnit_state (state : (unitOf s u).state ≠ .faulted) :
    exec (.resetUnit .ops (ubytes 1 (u.val + 1))) s = .next (answered .ops 3 .state [0x62] s) := by
  refine serve_refused (owner := some .ops) (p := .ops) held rfl rfl ?_
  simp only [resetUnit, resetUnit_number]
  exact if_pos state

theorem exec_resetUnit_taken (state : (unitOf s u).state = .faulted) :
    exec (.resetUnit .ops (ubytes 1 (u.val + 1))) s = .next (accepted .ops 0x62 1 (resetUnitFault u s)) := by
  refine serve_taken (owner := some .ops) (p := .ops) held rfl rfl ?_
  simp only [resetUnit, resetUnit_number]
  exact if_neg fun other => other state

end

/-- The record that RESET-UNIT gives a FAULTED unit (R111). -/
abbrev resetRecord (now : Nat) (d : DutySettings) (r : UnitRecord) : UnitRecord :=
  if r.inService then
    { r with state := .cooldown, deadline := some (now + d.cooldown * 10), cutStart := none, cause := .noCause, attempts := 0 }
  else { r with state := .out, deadline := none, cause := .noCause, attempts := 0 }

theorem resetRecord_fields (now : Nat) (d : DutySettings) (r : UnitRecord) :
    (resetRecord now d r).state = (if r.inService then .cooldown else .out)
      ∧ (r.inService = true → (resetRecord now d r).deadline = some (now + d.cooldown * 10))
      ∧ (resetRecord now d r).cause = .noCause ∧ (resetRecord now d r).attempts = 0
      ∧ (resetRecord now d r).inService = r.inService ∧ (resetRecord now d r).startList = r.startList := by
  unfold resetRecord
  split
  · exact ⟨rfl, fun _ => rfl, rfl, rfl, rfl, rfl⟩
  · next service => exact ⟨rfl, fun inService => absurd inService service, rfl, rfl, rfl, rfl⟩

theorem resetUnitFault_acts (u : Fin 4) (s : State) :
    UnitActed u (resetRecord (timeBase s) s.cpd.settings (unitOf s u)) true s (resetUnitFault u s) := by
  have leaves : clearedBy (fun r => if r.inService then enterCooldown (timeBase s) s.cpd.settings r else enterOut r) (unitOf s u)
      = resetRecord (timeBase s) s.cpd.settings (unitOf s u) := by
    unfold clearedBy resetRecord
    dsimp only
    split <;> rfl
  rw [← leaves]
  refine (UnitMade.refl u s).cleared ?_ ?_
  · split <;> rfl
  · split <;> nofun

/-- Settles O36: by the state of the unit, what each request makes of it and whether an evaluation follows. -/
theorem unitRequestsActOnTheUnitsState : Obligations.UnitRequestsActOnTheUnitsState := by
  refine ⟨fun number service s held outside => ⟨exec_setUnit_malformed held outside, exec_resetUnit_malformed held outside⟩,
    ⟨fun u s held => ?_, fun u s held => ?_⟩, fun u s held => ⟨exec_resetUnit_state held, fun state => ?_⟩⟩
  · have changes := takeOutOfService_changes u s
    refine ⟨_, exec_setUnit_out held, takeOutOfService_inService u s, ?_, takeOutOfService_state_out,
      fun state => (takeOutOfService_cleared state).2, takeOutOfService_fault, takeOutOfService_shortfall, takeOutOfService_stops,
      fun d => takeOutOfService_stopping, accepted_pif (changes .pif (by decide)).symm,
      (changes.mono (by decide)).trans ((accepted_changes _ _ _ _).mono (by decide))⟩
    rintro out rfl
    exact ⟨fun state => (takeOutOfService_acts_out state).2, fun state => (takeOutOfService_acts_ready state).2,
      fun state => (takeOutOfService_acts_cooldown state).2, fun state => (takeOutOfService_acts_faulted state).2,
      fun state => (takeOutOfService_acts_active state).2, fun d state => (takeOutOfService_acts_stopping state).2⟩
  · have changes := returnToService_changes u s
    refine ⟨_, exec_setUnit_in held, returnToService_inService u s, ?_, returnToService_cooldown, fun d => returnToService_stopping,
      returnToService_keeps_state, accepted_pif (changes .pif (by decide)).symm,
      (changes.mono (by decide)).trans ((accepted_changes _ _ _ _).mono (by decide))⟩
    rintro r rfl
    split
    · next state => exact (returnToService_acts_out state).2
    · next state => exact (returnToService_acts_stopping_out state).2
    · next out stopping => exact (returnToService_acts_stored out stopping).2
  · have changes : ChangesOnly directionBlocks s (resetUnitFault u s) := leaveFaulted_changes u _ s
    obtain ⟨unit, follows⟩ := resetUnitFault_acts u s
    have fallen : conditionActive (resetUnitFault u s) (condUnit u) = false := leaveFaulted_condition u _ s
    have shortfall : shortfallFormed (resetUnitFault u s).cpd := shortfall_leaveFaulted u _ s
    obtain ⟨reset, deadline, cause, attempts, service, starts⟩ := resetRecord_fields (timeBase s) s.cpd.settings (unitOf s u)
    rw [← unit] at reset deadline cause attempts service starts
    exact ⟨_, exec_resetUnit_taken held state, follows, reset, deadline, cause, attempts, service, starts, shortfall, fallen,
      accepted_pif (changes .pif (by decide)).symm, (changes.mono (by decide)).trans ((accepted_changes _ _ _ _).mono (by decide))⟩

end Sys2Proof.Machine

/-! SUPPORT. What a valid bank is (R119) and what the stepping of a train comes to: an entry entered, the end of a step, parking and
resuming (R122 to R125, R127 to R129); and the statement on them. -/

namespace Sys2Proof.Machine

open Sys2Proof.Safety

/-! ### Banks (R119) -/

/-- Entries of which `steps` WRITTEN ones were counted before: only WRITTEN ones stand before the first END, and one at least in all. -/
theorem cycleLengthFrom_isSome (steps : Nat) (l : List BankEntry) :
    (cycleLengthFrom steps l).isSome = true ↔
      ∃ i, 1 ≤ steps + i ∧ l[i]? = some .endMark ∧ ∀ j, j < i → ∃ r, l[j]? = some (.written r) := by
  induction l generalizing steps with
  | nil => simp [cycleLengthFrom]
  | cons e rest ih =>
    cases e with
    | empty =>
      refine ⟨fun h => by simp [cycleLengthFrom] at h, ?_⟩
      rintro ⟨_ | i, -, mark, before⟩
      · cases mark
      · obtain ⟨r, hr⟩ := before 0 i.succ_pos
        cases hr
    | endMark =>
      have one : (cycleLengthFrom steps (.endMark :: rest)).isSome = true ↔ 1 ≤ steps := by cases steps <;> simp [cycleLengthFrom]
      refine one.trans ⟨fun h => ⟨0, h, rfl, fun j hj => absurd hj j.not_lt_zero⟩, ?_⟩
      rintro ⟨_ | i, least, -, before⟩
      · exact least
      · obtain ⟨r, hr⟩ := before 0 i.succ_pos
        cases hr
    | written r =>
      rw [cycleLengthFrom, ih]
      constructor
      · rintro ⟨i, least, mark, before⟩
        refine ⟨i + 1, by omega, mark, fun j hj => ?_⟩
        cases j with
        | zero => exact ⟨r, rfl⟩
        | succ j => exact before j (by omega)
      · rintro ⟨_ | i, least, mark, before⟩
        · cases mark
        · exact ⟨i, by omega, mark, fun j hj => before (j + 1) (by omega)⟩

/-- A bank is valid when its first entry that is not WRITTEN is an END at index 1 or above (R119). -/
theorem bankValid_iff (bank : Vector BankEntry 24) :
    bankValid bank = true ↔
      ∃ i : Fin 24, 1 ≤ i.val ∧ nth bank i = .endMark ∧ ∀ j : Fin 24, j < i → ∃ r, nth bank j = .written r := by
  have entry (i : Fin 24) (e : BankEntry) : bank.toList[i.val]? = some e ↔ nth bank i = e := by
    rw [List.getElem?_eq_getElem (by rw [Vector.length_toList]; exact i.isLt), Option.some.injEq, Vector.getElem_toList, nth]
  rw [bankValid, cycleLength, cycleLengthFrom_isSome]
  constructor
  · rintro ⟨i, least, mark, before⟩
    have inside : i < 24 := by
      have bound := (List.getElem?_eq_some_iff.mp mark).1
      rwa [Vector.length_toList] at bound
    refine ⟨⟨i, inside⟩, least.trans_eq (Nat.zero_add i), (entry ⟨i, inside⟩ _).mp mark, fun j hj => ?_⟩
    obtain ⟨r, hr⟩ := before j.val hj
    exact ⟨r, (entry j _).mp hr⟩
  · rintro ⟨i, least, mark, before⟩
    refine ⟨i.val, least.trans_eq (Nat.zero_add _).symm, (entry i _).mpr mark, fun j hj => ?_⟩
    obtain ⟨r, hr⟩ := before ⟨j, hj.trans i.isLt⟩ hj
    exact ⟨r, (entry ⟨j, hj.trans i.isLt⟩ _).mpr hr⟩

theorem entryAt_of_val {bank : Vector BankEntry 24} {i : Fin 24} {n : Nat} (h : i.val = n) : entryAt bank n = nth bank i := by
  subst h
  simp only [entryAt, index?_val]

/-- Entry 0 of a valid bank is WRITTEN. -/
theorem entryAt_zero_of_valid {bank : Vector BankEntry 24} (valid : bankValid bank = true) : ∃ r, entryAt bank 0 = .written r := by
  obtain ⟨i, least, -, before⟩ := (bankValid_iff bank).mp valid
  obtain ⟨r, hr⟩ := before 0 (Fin.lt_def.mpr least)
  exact ⟨r, (entryAt_of_val rfl).trans hr⟩

/-! ### An entry entered, and the end of a step (R122 to R125, R128) -/

section
variable {banks : Vector (Vector BankEntry 24) 2} {now : Nat} {t : Train} {r : StepRecord}

/-- A WRITTEN step is entered at the step index the train has. -/
theorem enterWritten_entered (now : Nat) (r : StepRecord) (t : Train) : enteredStep now t.stepIndex r t (enterWritten now r t) := by
  unfold enteredStep enterWritten
  cases r.advance <;> rfl

theorem enterStep_written (entry : entryAt (nth banks t.bank) t.stepIndex = .written r) : enterStep banks now t = enterWritten now r t := by
  simp only [enterStep, entry]

/-- Over an END the cycle ends, and entry 0 of the bank then selected is entered. -/
theorem enterStep_cycles (entry : entryAt (nth banks t.bank) t.stepIndex = .endMark)
    (first : entryAt (nth banks (t.pendingBank.getD t.bank)) 0 = .written r) :
    enterStep banks now t = enterWritten now r (endCycle t) := by
  have selected : entryAt (nth banks (endCycle t).bank) 0 = .written r := first
  simp only [enterStep, entry, selected]

theorem endStep_parks (h : t.parkRequest = true) : endStep banks now t = park { t with stepIndex := t.stepIndex + 1 } := if_pos h

theorem endStep_enters (h : t.parkRequest = false) : endStep banks now t = enterStep banks now { t with stepIndex := t.stepIndex + 1 } :=
  if_neg (Bool.eq_false_iff.mp h)

end

/-! ### Parking and resuming (R128, R129) -/

section
variable {d : SiteDirection} {banks : Vector (Vector BankEntry 24) 2} {now : Nat} {t : Train} {r : StepRecord}

theorem runningAllowed_standby (h : t.standby = true) (d : SiteDirection) : runningAllowed d t = true := by
  rw [runningAllowed, h, Bool.or_true]

theorem runningAllowed_working (h : t.standby = false) (d : SiteDirection) : runningAllowed d t = decide (d = .withdrawing) := by
  rw [runningAllowed, h, Bool.or_false]

theorem runningAllowed_iff : runningAllowed d t = true ↔ d = .withdrawing ∨ t.standby = true := by
  rw [runningAllowed, Bool.or_eq_true, decide_eq_true_eq]

theorem runningAllowed_eq_false : runningAllowed d t = false ↔ d ≠ .withdrawing ∧ t.standby = false := by
  rw [← Bool.not_eq_true, runningAllowed_iff, not_or, Bool.not_eq_true]

theorem resume_enters (parked : t.state = .parked) (allowed : runningAllowed d t = true) (valid : bankValid (nth banks t.bank) = true) :
    resume d banks now t = enterStep banks now t := if_pos ⟨parked, allowed, valid⟩

theorem resume_stays (h : t.state ≠ .parked ∨ runningAllowed d t = false ∨ bankValid (nth banks t.bank) = false) :
    resume d banks now t = t := by
  refine if_neg ?_
  rintro ⟨parked, allowed, valid⟩
  rcases h with out | forbidden | invalid
  · exact out parked
  · exact Bool.false_ne_true (forbidden.symm.trans allowed)
  · exact Bool.false_ne_true (invalid.symm.trans valid)

/-- A PARKED train before a WRITTEN entry resumes in it. -/
theorem resume_entered (parked : t.state = .parked) (allowed : runningAllowed d t = true) (valid : bankValid (nth banks t.bank) = true)
    (entry : entryAt (nth banks t.bank) t.stepIndex = .written r) : enteredStep now t.stepIndex r t (resume d banks now t) := by
  rw [resume_enters parked allowed valid, enterStep_written entry]
  exact enterWritten_entered now r t

/-- A PARKED train before an END resumes in entry 0 of its next cycle. -/
theorem resume_entered_cycle (parked : t.state = .parked) (allowed : runningAllowed d t = true)
    (valid : bankValid (nth banks t.bank) = true) (entry : entryAt (nth banks t.bank) t.stepIndex = .endMark)
    (first : entryAt (nth banks (t.pendingBank.getD t.bank)) 0 = .written r) :
    enteredStep now 0 r (endCycle t) (resume d banks now t) := by
  rw [resume_enters parked allowed valid, enterStep_cycles entry first]
  exact enterWritten_entered now r (endCycle t)

/-- A train's running is no longer allowed. -/
theorem followAllowed_ends (d : SiteDirection) (banks : Vector (Vector BankEntry 24) 2) (now : Nat) (t : Train) :
    followAllowed true false d banks now t = if t.state = .running ∨ t.state = .waitInput then { t with parkRequest := true } else t := rfl

/-- A train's running is allowed again. -/
theorem followAllowed_begins (d : SiteDirection) (banks : Vector (Vector BankEntry 24) 2) (now : Nat) (t : Train) :
    followAllowed false true d banks now t = resume d banks now { t with parkRequest := false } := rfl

end

/-! ### A train at a change of direction (R92, R128, R129) -/

section
variable {s : State} {new : SiteDirection} {d : Fin 2}

theorem trainOf_changeDirection (new : SiteDirection) (d : Fin 2) (s : State) :
    trainOf (changeDirection new s) d = trainFollows s.dir.direction new s.dsq.banks (timeBase s) (trainOf s d) := by
  rw [trainOf_congr (changeDirection_dsq new s), trainOf_dryersFollow]

theorem trainOf_changeDirection_kept (h : (trainOf s d).standby = true ∨ (s.dir.direction = .withdrawing ↔ new = .withdrawing)) :
    trainOf (changeDirection new s) d = trainOf s d := by
  refine trainOf_changeDirection_allowed ?_
  rcases h with standby | same
  · rw [runningAllowed_standby standby, runningAllowed_standby standby]
  · rw [runningAllowed, runningAllowed, decide_eq_decide.mpr same]

theorem trainOf_changeDirection_leaves (work : (trainOf s d).standby = false) (was : s.dir.direction = .withdrawing)
    (turns : new ≠ .withdrawing) :
    trainOf (changeDirection new s) d =
      if (trainOf s d).state = .running ∨ (trainOf s d).state = .waitInput then { trainOf s d with parkRequest := true }
      else trainOf s d := by
  rw [trainOf_changeDirection, trainFollows, runningAllowed_working work, runningAllowed_working work, decide_eq_true was,
    decide_eq_false turns, followAllowed_ends]

theorem trainOf_changeDirection_enters (work : (trainOf s d).standby = false) (was : s.dir.direction ≠ .withdrawing)
    (turns : new = .withdrawing) :
    trainOf (changeDirection new s) d = resume new s.dsq.banks (timeBase s) { trainOf s d with parkRequest := false } := by
  rw [trainOf_changeDirection, trainFollows, runningAllowed_working work, runningAllowed_working work, decide_eq_false was,
    decide_eq_true turns, followAllowed_begins]

end

/-! ### Breakthrough (R127) -/

theorem breaksThrough_iff {banks : Vector (Vector BankEntry 24) 2} {value : Int} {t : Train} :
    breaksThrough banks value t = true ↔ ∃ r, currentStep banks t = some r ∧ r.adsorbExit = true ∧ t.breakthrough ≤ value := by
  unfold breaksThrough
  cases currentStep banks t <;> simp

/-- Settles O42: by the test of a breakthrough, by what a turn makes of a train's allowance to run, and by the entry after a step. -/
theorem endedStepEntersTheNextEntry : Obligations.EndedStepEntersTheNextEntry := by
  refine ⟨fun d value s => ⟨fun r step exit reached => ⟨?_, fun e other => trainOf_breakthrough_other value d other s⟩, fun short => ?_⟩,
    fun new d s => ⟨trainOf_changeDirection_kept, trainOf_changeDirection_leaves, fun work was turns => ?_⟩, fun banks now t => ?_⟩
  · rw [trainOf_breakthrough_same, passedTrain, if_pos (breaksThrough_iff.mpr ⟨r, step, exit, reached⟩)]
    rfl
  · rw [breakthrough_eq, if_neg]
    intro breaks
    obtain ⟨r, step, exit, reached⟩ := breaksThrough_iff.mp breaks
    rcases short r step with noExit | below
    · exact Bool.false_ne_true (noExit.symm.trans exit)
    · exact absurd reached (not_le.mpr below)
  · rw [trainOf_changeDirection_enters work was turns]
    refine ⟨fun h => resume_stays (h.imp id .inr), fun i r parked valid index => ?_⟩
    have allowed : runningAllowed new { trainOf s d with parkRequest := false } = true := runningAllowed_iff.mpr (.inl turns)
    refine ⟨fun entry => ?_, fun entry first => ?_⟩
    · rw [index]
      exact resume_entered parked allowed valid ((entryAt_of_val index).trans entry)
    · exact resume_entered_cycle parked allowed valid ((entryAt_of_val index).trans entry) ((entryAt_of_val rfl).trans first)
  · refine ⟨fun request => ?_, fun i r free index entry => ?_, fun i r free index entry first => ?_⟩
    · rw [endStep_parks request]
      rfl
    · rw [endStep_enters free, enterStep_written ((entryAt_of_val index).trans entry)]
      exact enterWritten_entered now r { t with stepIndex := t.stepIndex + 1 }
    · rw [endStep_enters free, enterStep_cycles (t := { t with stepIndex := t.stepIndex + 1 }) ((entryAt_of_val index).trans entry) ((entryAt_of_val rfl).trans first),
        enterWritten_entered now r (endCycle { t with stepIndex := t.stepIndex + 1 })]
      exact ⟨rfl, rfl, rfl, rfl, rfl, rfl⟩

end Sys2Proof.Machine

/-! SUPPORT. The position inputs of a train and the deadlines of its step (R117, R123 to R126), and the statement on them. -/

namespace Sys2Proof.Machine

open Sys2Proof.Safety

/-! ### A train changed twice -/

theorem put_put {α : Type} {n : Nat} (v : Vector α n) (i : Fin n) (x y : α) : put (put v i x) i y = put v i y := by
  refine table_ext fun j => ?_
  by_cases here : j = i
  · subst here
    rw [nth_put_same, nth_put_same]
  · rw [nth_put_other _ _ here, nth_put_other _ _ here, nth_put_other _ _ here]

theorem alterTrain_alterTrain (d : Fin 2) (f g : Train → Train) (s : State) :
    alterTrain d g (alterTrain d f s) = alterTrain d (fun r => g (f r)) s := by
  have trains : alter (alter s.dsq.trains d f) d g = alter s.dsq.trains d fun r => g (f r) := by
    rw [alter, nth_alter_same, alter, put_put, alter]
  calc alterTrain d g (alterTrain d f s)
      = s.withDsq { s.dsq with trains := alter (alter s.dsq.trains d f) d g } := rfl
    _ = alterTrain d (fun r => g (f r)) s := by rw [trains]; rfl

theorem alterTrain_congr {d : Fin 2} {f g : Train → Train} {s : State} (h : f (trainOf s d) = g (trainOf s d)) :
    alterTrain d f s = alterTrain d g s := by
  have trains : alter s.dsq.trains d f = alter s.dsq.trains d g := congrArg (put s.dsq.trains d) h
  rw [alterTrain, trains, alterTrain]

section
variable {s : State} {d : Fin 2} {r : StepRecord}

theorem atSense_iff {t : Train} : atSense t r = true ↔ nth t.inputs r.input = r.sense := beq_iff_eq

/-! ### Position inputs (R117, R124, R125) -/

section
variable {i : Fin 4} {level : Bool}

/-- A change ends the step of a train that waits past the dwell for the changed input, which now stands at its sense. -/
theorem inputEndsStep_iff : inputEndsStep s d i = true ↔
    ∃ r, currentStep s.dsq.banks (trainOf s d) = some r ∧ (trainOf s d).state = .waitInput ∧ (trainOf s d).dwellDeadline = none
      ∧ r.input = i ∧ nth (trainOf s d).inputs r.input = r.sense := by
  unfold inputEndsStep
  cases currentStep s.dsq.banks (trainOf s d) <;> simp [atSense_iff, and_assoc]

/-- The level of a position input recorded. -/
abbrev inputRecorded (d : Fin 2) (i : Fin 4) (level : Bool) (s : State) : State :=
  alterTrain d (fun x => { x with inputs := put x.inputs i level }) s

/-- The test of a change that is recorded, by the train before it. -/
theorem inputEndsStep_recorded : inputEndsStep (inputRecorded d i level s) d i = true ↔
    ∃ r, currentStep s.dsq.banks (trainOf s d) = some r ∧ (trainOf s d).state = .waitInput ∧ (trainOf s d).dwellDeadline = none
      ∧ r.input = i ∧ r.sense = level := by
  rw [inputEndsStep_iff, inputRecorded, trainOf_alterTrain_same]
  refine exists_congr fun r => and_congr Iff.rfl (and_congr Iff.rfl (and_congr Iff.rfl (and_congr_right fun input => ?_)))
  rw [input, nth_put_same, eq_comm]

theorem takeInput_ends (h : inputEndsStep (inputRecorded d i level s) d i = true) :
    takeInput d i level s
      = alterTrain d (fun x => endStep s.dsq.banks (timeBase s) { x with inputs := put x.inputs i level }) s :=
  (if_pos h).trans (alterTrain_alterTrain d _ _ s)

theorem takeInput_records (h : ¬ inputEndsStep (inputRecorded d i level s) d i = true) :
    takeInput d i level s = inputRecorded d i level s := if_neg h

theorem exec_positionInputChange_same (h : nth (trainOf s d).inputs i = level) : exec (.positionInputChange d i level) s = .next s := by
  show unlessHeld (onlyIf (decide (nth (trainOf s d).inputs i ≠ level)) _) s = _
  rw [decide_eq_false (not_not.mpr h), unlessHeld_onlyIf_false]

theorem exec_positionInputChange (held : heldInReset s = false) (h : nth (trainOf s d).inputs i ≠ level) :
    exec (.positionInputChange d i level) s = .next (takeInput d i level s) := unlessHeld_onlyIf_true held (decide_eq_true h) _

end

/-! ### A fault (R126) -/

/-- A train that has entered FAULTED, with its outputs off. -/
theorem faultTrain_faults (held : heldInReset s = false) (cause : TrainCause) (d : Fin 2) :
    trainFaulted d cause s (faultTrain cause d s) ∧ dryerOutputs (faultTrain cause d s) d = fill 8 false
      ∧ ChangesOnly [.cdt, .dsq, .nfu] s (faultTrain cause d s) := by
  have changes := faultTrain_changes cause d s
  have record : trainOf (faultTrain cause d s) d = { (trainOf s d).noDeadlines with
      state := .faulted, cause := cause, faultStep := (trainOf s d).stepIndex, parkRequest := false } := by
    have told := (report_changes (condTrain d) true (alterTrain d
      (fun r => { r.noDeadlines with state := .faulted, cause := cause, faultStep := r.stepIndex, parkRequest := false }) s)) .dsq (by decide)
    exact (trainOf_congr (d := d) (show (faultTrain cause d s).dsq = _ from told.symm)).trans (trainOf_alterTrain_same s d _)
  have released : heldInReset (faultTrain cause d s) = false := by rwa [heldInReset, ← changes .pif (by decide)]
  refine ⟨⟨record, ?_, ?_⟩, ?_, changes⟩
  · exact (conditionActive_report _ _ _ _).trans (if_pos rfl)
  · exact (opsFlags_setEventOps _ _ _).trans (if_pos rfl)
  · rw [dryerOutputs_eq released, record]
    exact outputs_off _ (.inr rfl)

/-! ### What the end of a deadline does (R123 to R125) -/

section
variable (step : currentStep s.dsq.banks (trainOf s d) = some r)
include step

theorem stepTimeEnds_ends (h : r.advance = .time ∨ nth (trainOf s d).inputs r.input = r.sense) : stepTimeEnds d s = endStepOf d s := by
  simp only [stepTimeEnds, step]
  exact if_pos (h.imp id atSense_iff.mpr)

theorem stepTimeEnds_waits (later : r.advance ≠ .time) (short : nth (trainOf s d).inputs r.input ≠ r.sense) :
    stepTimeEnds d s
      = alterTrain d (fun x => { x with state := .waitInput, timeDeadline := none, strokeDeadline := some (timeBase s + 600) }) s := by
  simp only [stepTimeEnds, step]
  exact if_neg (not_or.mpr ⟨later, mt atSense_iff.mp short⟩)

theorem inputTimeoutEnds_ends (h : nth (trainOf s d).inputs r.input = r.sense) : inputTimeoutEnds d s = endStepOf d s := by
  simp only [inputTimeoutEnds, step]
  exact if_pos (atSense_iff.mpr h)

theorem inputTimeoutEnds_faults (short : nth (trainOf s d).inputs r.input ≠ r.sense) :
    inputTimeoutEnds d s = faultTrain .inputTimeout d s := by
  simp only [inputTimeoutEnds, step]
  exact if_neg (mt atSense_iff.mp short)

theorem dwellEnds_ends (h : nth (trainOf s d).inputs r.input = r.sense) : dwellEnds d s = endStepOf d s := by
  simp only [dwellEnds, step]
  exact if_pos (atSense_iff.mpr h)

theorem dwellEnds_passes (short : nth (trainOf s d).inputs r.input ≠ r.sense)
    (apart : (trainOf s d).timeoutDeadline ≠ (trainOf s d).dwellDeadline) :
    dwellEnds d s = alterTrain d (fun x => { x with dwellDeadline := none }) s := by
  simp only [dwellEnds, step]
  exact (if_neg (mt atSense_iff.mp short)).trans (if_neg apart)

/-- Where the timeout falls with the dwell the two are one test. -/
theorem dwellEnds_faults (short : nth (trainOf s d).inputs r.input ≠ r.sense)
    (together : (trainOf s d).timeoutDeadline = (trainOf s d).dwellDeadline) : dwellEnds d s = faultTrain .inputTimeout d s := by
  rw [← inputTimeoutEnds_faults step short]
  simp only [dwellEnds, step]
  exact (if_neg (mt atSense_iff.mp short)).trans (if_pos together)

end

/-! ### When a deadline has its event (R123 to R125) -/

section
variable {state : TrainState} {deadline : Option Nat} {f : State → State}

/-- The deadline of a train in the state that it belongs to is reached. -/
theorem trainEvent_due {e : Nat} (held : heldInReset s = false) (inState : (trainOf s d).state = state) (set : deadline = some e)
    (due : e ≤ timeBase s) :
    unlessHeld (onlyIf (decide ((trainOf s d).state = state) && reached s deadline) f) s = .next (f s) := by
  refine unlessHeld_onlyIf_true held ?_ f
  rw [decide_eq_true inState, Bool.true_and, set]
  exact decide_eq_true due

/-- No event: no deadline, or another state, or a time before the deadline. -/
theorem trainEvent_none
    (h : (deadline = none ∨ ∃ e, deadline = some e ∧ timeBase s < e) ∨ (trainOf s d).state ≠ state) :
    unlessHeld (onlyIf (decide ((trainOf s d).state = state) && reached s deadline) f) s = .next s := by
  have occasion : (decide ((trainOf s d).state = state) && reached s deadline) = false := by
    rcases h with (none | ⟨e, set, early⟩) | other
    · rw [none]
      exact Bool.and_false _
    · rw [set, reached, decide_eq_false (not_le.mpr early), Bool.and_false]
    · rw [decide_eq_false other, Bool.false_and]
  rw [occasion, unlessHeld_onlyIf_false]

end

end

/-- Settles O43: a change of an input by the test that it may end the step, each deadline by what its end does and when it has its
event. -/
theorem stepInputsAndDeadlinesEndTheStep : Obligations.StepInputsAndDeadlinesEndTheStep := by
  refine ⟨fun d i level s held => ⟨exec_positionInputChange_same, fun changed => ⟨fun r step waits past input sense => ?_, fun none => ?_⟩⟩,
    fun d r s held step => ⟨fun e state deadline => ⟨fun due => ?_, fun early => ?_⟩,
      fun e state deadline => ⟨fun due => ?_, fun early => ?_⟩⟩,
    fun d s => ⟨fun h => trainEvent_none (h.imp_left .inl), fun h => trainEvent_none (h.imp_left .inl),
      fun h => trainEvent_none (h.imp_left .inl), fun h => trainEvent_none (h.imp_left .inl)⟩,
    fun d s held state => ⟨fun r e step deadline due => ?_, fun e deadline due => ?_, fun h => trainEvent_none (.inl h),
      fun h => trainEvent_none (.inl h)⟩⟩
  · rw [exec_positionInputChange held changed, takeInput_ends (inputEndsStep_recorded.mpr ⟨r, step, waits, past, input, sense⟩)]
  · rw [exec_positionInputChange held changed, takeInput_records]
    intro ends
    obtain ⟨r, step, waits, past, input, sense⟩ := inputEndsStep_recorded.mp ends
    rcases none r step with other | dwells | elsewhere | short
    · exact other waits
    · exact dwells past
    · exact elsewhere input
    · exact short sense
  · have event : exec (.stepTimeExpiry d) s = .next (stepTimeEnds d s) := trainEvent_due held state deadline due
    rw [event]
    exact ⟨fun h => congrArg _ (stepTimeEnds_ends step h), fun later short => congrArg _ (stepTimeEnds_waits step later short)⟩
  · exact trainEvent_none (.inl (.inr ⟨e, deadline, early⟩))
  · have event : exec (.dwellExpiry d) s = .next (dwellEnds d s) := trainEvent_due held state deadline due
    rw [event, ← deadline]
    exact ⟨fun h => congrArg _ (dwellEnds_ends step h), fun short apart => congrArg _ (dwellEnds_passes step short apart),
      fun short together => ⟨_, congrArg _ (dwellEnds_faults step short together), faultTrain_faults held _ d⟩⟩
  · exact trainEvent_none (.inl (.inr ⟨e, deadline, early⟩))
  · have event : exec (.inputTimeout d) s = .next (inputTimeoutEnds d s) := trainEvent_due held state deadline due
    rw [event]
    exact ⟨fun h => congrArg _ (inputTimeoutEnds_ends step h),
      fun short => ⟨_, congrArg _ (inputTimeoutEnds_faults step short), faultTrain_faults held _ d⟩⟩
  · exact ⟨_, trainEvent_due held state deadline due, faultTrain_faults held _ d⟩

end Sys2Proof.Machine

/-! SUPPORT. WRITE-STEP with the step that its fields spell (R118, R120), SELECT-BANK (R119, R121), and the statement on them. -/

namespace Sys2Proof.Machine

open Sys2Proof.Safety

/-! ### The step that the fields spell (R118, R120) -/

/-- A mark reads back from its byte. -/
theorem mark_bit {fields : List Byte} {i : Nat} {b : Bool} (h : byteAt fields i = (if b then 1 else 0 : Byte).toNat) :
    mark fields i = some b :=
  mark_markByte (h.trans (by cases b <;> rfl))

/-- The fields of a WRITE-STEP of a WRITTEN entry. -/
abbrev writtenFields (b i : Byte) (r : StepRecord) : List Byte := b :: i :: 1 :: stepBytes r

section
variable (b i : Byte) (r : StepRecord)

theorem writtenFields_onStream : readPattern (writtenFields b i r) 3 = some r.onStream := by
  simp only [readPattern, mark_bit (fields := writtenFields b i r) (i := 3) (b := r.onStream.inlet) rfl,
    mark_bit (fields := writtenFields b i r) (i := 3 + 1) (b := r.onStream.outlet) rfl,
    mark_bit (fields := writtenFields b i r) (i := 3 + 2) (b := r.onStream.regeneration) rfl]
  rfl

theorem writtenFields_offStream : readPattern (writtenFields b i r) 6 = some r.offStream := by
  simp only [readPattern, mark_bit (fields := writtenFields b i r) (i := 6) (b := r.offStream.inlet) rfl,
    mark_bit (fields := writtenFields b i r) (i := 6 + 1) (b := r.offStream.outlet) rfl,
    mark_bit (fields := writtenFields b i r) (i := 6 + 2) (b := r.offStream.regeneration) rfl]
  rfl

theorem writtenFields_advance : Advance.ofByte? (byteAt (writtenFields b i r) 11) = some r.advance := by
  have byte : byteAt (writtenFields b i r) 11 = (BitVec.ofNat 8 r.advance.byte).toNat := rfl
  rw [byte]
  cases r.advance <;> rfl

theorem writtenFields_input : byteAt (writtenFields b i r) 12 = r.input.val := by
  have byte : byteAt (writtenFields b i r) 12 = byteAt (ubytes 1 r.input.val) 0 := rfl
  rw [byte, byteAt_ubytes (by omega)]

theorem writtenFields_duration (h : r.duration ≤ 4095) : num (writtenFields b i r) 14 2 = r.duration := by
  have number : num (writtenFields b i r) 14 2 = num (ubytes 2 r.duration) 0 2 := rfl
  rw [number, num_ubytes (by omega)]

variable {r}

/-- A step record reads back from its fields; a TIME step has no input and no sense. -/
theorem readStep_writtenFields (duration : r.duration ≤ 4095) (time : r.advance = .time → r.input = 0 ∧ r.sense = false) :
    readStep (writtenFields b i r) = some r := by
  have input : (if r.advance = .time then 0 else (index? 4 (byteAt (writtenFields b i r) 12)).getD 0) = r.input := by
    rw [writtenFields_input, index?_val, Option.getD_some]
    split
    · next h => exact (time h).1.symm
    · rfl
  have sense : (decide (r.advance ≠ .time) && r.sense) = r.sense := by
    by_cases h : r.advance = .time
    · rw [(time h).2, Bool.and_false]
    · rw [decide_eq_true h, Bool.true_and]
  have marks (j : Nat) (x : Bool) (h : byteAt (writtenFields b i r) j = (if x then 1 else 0 : Byte).toNat) :
      mark (writtenFields b i r) j = some x := mark_bit h
  simp only [readStep, writtenFields_onStream, writtenFields_offStream, writtenFields_advance, marks 9 r.heater rfl,
    marks 10 r.cooler rfl, marks 13 r.sense rfl, marks 16 r.longUnit rfl, marks 17 r.swap rfl, marks 18 r.adsorbExit rfl,
    Option.bind_eq_bind, Option.bind_some, Option.pure_def, input, sense, writtenFields_duration b i r duration]

theorem readEntry_writtenFields (least : 1 ≤ r.duration) (most : r.duration ≤ 4095) (apart : (r.heater && r.cooler) = false)
    (time : r.advance = .time → r.input = 0 ∧ r.sense = false) : readEntry (writtenFields b i r) = some (.written r) := by
  have kind : byteAt (writtenFields b i r) 2 = 1 := rfl
  have valid : stepValid (writtenFields b i r) r = true := by
    rw [stepValid, writtenFields_input, apart, decide_eq_true (show 1 ≤ r.duration ∧ r.duration ≤ 4095 from ⟨least, most⟩),
      decide_eq_true (show r.input.val ≤ 3 by omega), Bool.or_true]
    rfl
  simp only [readEntry, kind, readStep_writtenFields b i most time, valid, if_true]

end

/-! ### WRITE-STEP (R120) -/

section
variable {fields : List Byte} {b : Fin 2} {i : Fin 24} {entry : BankEntry} {s : State}

theorem bankInUse_iff : bankInUse s b = true ↔ ∃ t, (trainOf s t).bank = b ∨ (trainOf s t).pendingBank = some b := by
  simp only [bankInUse, someFin_eq_true, Bool.or_eq_true, decide_eq_true_eq]

theorem writeStep_unread (h : readEntry fields = none) : writeStep fields s = .refuse .malformed := by
  unfold writeStep
  split
  · next read => exact absurd (h.symm.trans read) nofun
  · rfl

section
variable (hb : ordinal? 2 (byteAt fields 0) = some b) (hi : index? 24 (byteAt fields 1) = some i) (he : readEntry fields = some entry)
include hb hi he

theorem writeStep_inUse (used : ∃ t, (trainOf s t).bank = b ∨ (trainOf s t).pendingBank = some b) :
    writeStep fields s = .refuse .inUse := by
  simp only [writeStep, hb, hi, he]
  exact if_pos (bankInUse_iff.mpr used)

theorem writeStep_taken (free : ∀ t, (trainOf s t).bank ≠ b ∧ (trainOf s t).pendingBank ≠ some b) :
    writeStep fields s
      = .taken (s.withDsq { s.dsq with banks := put s.dsq.banks b (put (nth s.dsq.banks b) i entry) }) [] := by
  have unused : ¬ bankInUse s b = true := by
    rw [bankInUse_iff]
    rintro ⟨t, used⟩
    obtain ⟨selected, pending⟩ := free t
    exact used.elim selected pending
  simp only [writeStep, hb, hi, he]
  exact if_neg unused

end

variable (held : heldInReset s = false) (fit : fits 0x70 fields = true)
include held fit

theorem exec_writeStep_refused {status : Status} (h : writeStep fields s = .refuse status) :
    exec (.writeStep .ops fields) s = .next (answered .ops 21 status [0x70] s) := by
  have served := serve_refused (owner := some .ops) (p := .ops) held fit rfl h
  rwa [length_of_fits fit rfl] at served

theorem exec_writeStep_taken {t : State} (h : writeStep fields s = .taken t []) :
    exec (.writeStep .ops fields) s = .next (accepted .ops 0x70 19 t) := by
  have served := serve_taken (owner := some .ops) (p := .ops) held fit rfl h
  rwa [length_of_fits fit rfl] at served

end

/-! ### SELECT-BANK (R121) -/

/-- The fields of a SELECT-BANK. -/
abbrev selectFields (d b : Fin 2) : List Byte := ubytes 1 (d.val + 1) ++ ubytes 1 (b.val + 1)

/-- A train that is given a bank at once (R121). -/
abbrev bankGiven (b : Fin 2) (r : Train) : Train := { r with bank := b, pendingBank := none, stepIndex := 0 }

section
variable {d b : Fin 2} {s : State}

theorem selectFields_train : ordinal? 2 (byteAt (selectFields d b) 0) = some d := by
  rw [selectFields, byteAt_append_left (by rw [length_ubytes]; decide), byteAt_ubytes (by omega), ordinal?_succ]

theorem selectFields_bank : ordinal? 2 (byteAt (selectFields d b) 1) = some b := by
  have place := byteAt_append_right (ubytes 1 (d.val + 1)) (ubytes 1 (b.val + 1)) 0
  rw [length_ubytes] at place
  rw [selectFields, place, byteAt_ubytes (by omega), ordinal?_succ]

theorem exec_selectBank_state (held : heldInReset s = false) (invalid : bankValid (nth s.dsq.banks b) = false) :
    exec (.selectBank .ops (selectFields d b)) s = .next (answered .ops 4 .state [0x71] s) := by
  refine serve_refused (owner := some .ops) (p := .ops) held rfl rfl ?_
  simp only [selectBank, selectFields_train, selectFields_bank, invalid, Bool.not_false, if_true]

theorem exec_selectBank_taken (held : heldInReset s = false) (valid : bankValid (nth s.dsq.banks b) = true) :
    exec (.selectBank .ops (selectFields d b)) s = .next (accepted .ops 0x71 2 (giveBank d b s)) := by
  refine serve_taken (owner := some .ops) (p := .ops) held rfl rfl ?_
  simp only [selectBank, selectFields_train, selectFields_bank, valid, Bool.not_true, Bool.false_eq_true, if_false]

theorem giveBank_pending (on : (trainOf s d).state ≠ .off) (valid : bankValid (nth s.dsq.banks (trainOf s d).bank) = true) :
    giveBank d b s = alterTrain d (fun r => { r with pendingBank := if r.bank = b then none else some b }) s := by
  have later : selectsAtOnce s (trainOf s d) = false := by
    rw [selectsAtOnce, decide_eq_false on, selectedBank, valid]
    rfl
  exact if_neg (Bool.eq_false_iff.mp later)

/-- A train that takes its bank at once resumes if it may. -/
theorem giveBank_at_once (h : (trainOf s d).state = .off ∨ bankValid (nth s.dsq.banks (trainOf s d).bank) = false) :
    giveBank d b s
      = alterTrain d (fun r => resume s.dir.direction s.dsq.banks (timeBase s) (bankGiven b r)) s := by
  have now : selectsAtOnce s (trainOf s d) = true := by
    rw [selectsAtOnce, Bool.or_eq_true, decide_eq_true_eq, Bool.not_eq_true', selectedBank]
    exact h
  exact (if_pos now).trans (alterTrain_alterTrain d _ _ s)

/-- An OFF train does not resume. -/
theorem giveBank_off (off : (trainOf s d).state = .off) : giveBank d b s = alterTrain d (bankGiven b) s := by
  rw [giveBank_at_once (.inl off)]
  exact alterTrain_congr (resume_stays (.inl fun parked => absurd (off.symm.trans parked) nofun))

theorem trainOf_giveBank_invalid (invalid : bankValid (nth s.dsq.banks (trainOf s d).bank) = false) :
    trainOf (giveBank d b s) d = resume s.dir.direction s.dsq.banks (timeBase s) (bankGiven b (trainOf s d)) := by
  rw [giveBank_at_once (.inr invalid), trainOf_alterTrain_same]

end

/-- A train that resumes at step 0 of a valid bank keeps both, and runs in the step of entry 0. -/
theorem resume_at_zero {d : SiteDirection} {banks : Vector (Vector BankEntry 24) 2} {now : Nat} {t : Train} (start : t.stepIndex = 0)
    (parked : t.state = .parked) (allowed : runningAllowed d t = true) (valid : bankValid (nth banks t.bank) = true) :
    ∃ r, entryAt (nth banks t.bank) 0 = .written r ∧ enteredStep now 0 r t (resume d banks now t) := by
  obtain ⟨r, first⟩ := entryAt_zero_of_valid valid
  have entered := resume_entered (now := now) parked allowed valid (start ▸ first)
  exact ⟨r, first, start ▸ entered⟩

/-- At step 0 a train keeps its bank, its pending bank and its step index, whether it resumes or not. -/
theorem resume_at_zero_keeps {d : SiteDirection} {banks : Vector (Vector BankEntry 24) 2} {now : Nat} {t : Train} (start : t.stepIndex = 0) :
    (resume d banks now t).bank = t.bank ∧ (resume d banks now t).pendingBank = t.pendingBank ∧ (resume d banks now t).stepIndex = 0 := by
  by_cases h : t.state = .parked ∧ runningAllowed d t = true ∧ bankValid (nth banks t.bank) = true
  · obtain ⟨parked, allowed, valid⟩ := h
    obtain ⟨r, -, entered⟩ := resume_at_zero (now := now) start parked allowed valid
    rw [entered]
    exact ⟨rfl, rfl, rfl⟩
  · rw [resume, if_neg h]
    exact ⟨rfl, rfl, start⟩

/-- A train that has entered a step is RUNNING or in WAIT_INPUT. -/
theorem enteredStep_runs {now i : Nat} {r : StepRecord} {old new : Train} (h : enteredStep now i r old new) :
    new.state = .running ∨ new.state = .waitInput := by
  rw [h]
  dsimp only
  split
  · exact .inr rfl
  · exact .inl rfl

/-- Settles O40: the checks of WRITE-STEP in their order, the valid bank, and SELECT-BANK by the state of the train and of its bank. -/
theorem bankRequestsWriteAndSelect : Obligations.BankRequestsWriteAndSelect := by
  refine ⟨⟨fun fields b i entry s held fit hb hi he => ⟨fun used => exec_writeStep_refused held fit (writeStep_inUse hb hi he used),
        fun free => exec_writeStep_taken held fit (writeStep_taken hb hi he free)⟩,
      fun fields s held fit unread => exec_writeStep_refused held fit (writeStep_unread unread),
      fun b i r => readEntry_writtenFields b i⟩, bankValid_iff,
    fun d b s held => ⟨exec_selectBank_state held, fun valid => ⟨fun off => ?_, fun on invalid => ?_, fun on selected => ?_⟩⟩⟩
  · rw [exec_selectBank_taken held valid, giveBank_off off]
  · have changes := giveBank_changes d b s
    have train := trainOf_giveBank_invalid (b := b) invalid
    obtain ⟨bank, pending, index⟩ := resume_at_zero_keeps (d := s.dir.direction) (banks := s.dsq.banks) (now := timeBase s)
      (t := bankGiven b (trainOf s d)) rfl
    rw [← train] at bank pending index
    refine ⟨_, exec_selectBank_taken held valid, bank, pending, index, fun parked allowed => ?_,
      accepted_pif (changes .pif (by decide)).symm, (changes.mono (by decide)).trans ((accepted_changes _ _ _ _).mono (by decide))⟩
    obtain ⟨r, -, entered⟩ := resume_at_zero (d := s.dir.direction) (banks := s.dsq.banks) (now := timeBase s)
      (t := bankGiven b (trainOf s d)) rfl parked (runningAllowed_iff.mpr allowed) valid
    rw [← train] at entered
    exact enteredStep_runs entered
  · rw [exec_selectBank_taken held valid, giveBank_pending on selected]

end Sys2Proof.Machine

/-! SUPPORT. What SET-TRAIN makes of a train whose settings it stores (R128 to R130, R132). -/

namespace Sys2Proof.Machine

open Sys2Proof.Safety

/-! ### A train that enters a step, or may -/

section
variable {d : SiteDirection} {banks : Vector (Vector BankEntry 24) 2} {now : Nat} {t : Train}

/-- A train that resumes at step 0 has no more to resume. -/
theorem resume_resume_at_zero (start : t.stepIndex = 0) : resume d banks now (resume d banks now t) = resume d banks now t := by
  by_cases h : t.state = .parked ∧ runningAllowed d t = true ∧ bankValid (nth banks t.bank) = true
  · obtain ⟨parked, allowed, valid⟩ := h
    obtain ⟨r, -, entered⟩ := resume_at_zero (now := now) start parked allowed valid
    refine resume_stays (.inl fun still => ?_)
    rcases enteredStep_runs entered with runs | runs <;> exact absurd (still.symm.trans runs) nofun
  · have stays : resume d banks now t = t := if_neg h
    rw [stays, stays]

/-- A PARKED train at step 0 stays PARKED or runs. -/
theorem resume_at_zero_on (start : t.stepIndex = 0) (parked : t.state = .parked) : (resume d banks now t).state ≠ .off := by
  by_cases h : runningAllowed d t = true ∧ bankValid (nth banks t.bank) = true
  · obtain ⟨allowed, valid⟩ := h
    obtain ⟨r, -, entered⟩ := resume_at_zero (now := now) start parked allowed valid
    rcases enteredStep_runs entered with runs | runs <;> rw [runs] <;> nofun
  · rw [resume, if_neg fun resumes => h resumes.2, parked]
    nofun

/-- What a changed allowance makes of a train that is not in a step: at most the end of its park request, and a resume. -/
theorem followAllowed_resting (rest : ¬ (t.state = .running ∨ t.state = .waitInput)) (was is : Bool) :
    followAllowed was is d banks now t = t ∨ followAllowed was is d banks now t = resume d banks now { t with parkRequest := false } := by
  cases was <;> cases is
  · exact .inl rfl
  · exact .inr rfl
  · exact .inl (if_neg rest)
  · exact .inl rfl

/-- A train whose state is not PARKED keeps it at a changed allowance. -/
theorem followAllowed_state (h : t.state ≠ .parked) (was is : Bool) : (followAllowed was is d banks now t).state = t.state := by
  cases was <;> cases is
  · rfl
  · rw [followAllowed_begins, resume_stays (t := { t with parkRequest := false }) (.inl h)]
  · rw [followAllowed_ends]
    split <;> rfl
  · rfl

/-- An OFF train without a park request stays as it is. -/
theorem followAllowed_off (off : t.state = .off) (free : t.parkRequest = false) (was is : Bool) :
    followAllowed was is d banks now t = t := by
  have rest : ¬ (t.state = .running ∨ t.state = .waitInput) := by rw [off]; nofun
  rcases followAllowed_resting (d := d) (banks := banks) (now := now) rest was is with same | resumed
  · exact same
  · have unasked : { t with parkRequest := false } = t := by rw [← free]
    rw [resumed, unasked, resume_stays (.inl (by rw [off]; nofun))]

end

/-- What a train that has entered a step is, restated from its own later record with the off-spec state judged. -/
theorem enteredStep_judged {now i : Nat} {r : StepRecord} {old new : Train} (h : enteredStep now i r old new) (x : Bool) :
    enteredStep now i r { { new with offSpec := x } with tower := old.tower } { new with offSpec := x } := by
  unfold enteredStep at h
  subst h
  rfl

/-! ### The settings of a train (R115) -/

/-- The settings that a train has. -/
abbrev settingsHeld (t : Train) : TrainSettings := ⟨t.enabled, t.binding, t.breakthrough, t.specLimit, t.hysteresis, t.standby⟩

theorem settingsHeld_of_standing {t t' : Train} (h : standing t' = standing t) : settingsHeld t' = settingsHeld t :=
  (congrArg settingsHeld h :)

theorem settingsHeld_followEnabled (r : Train) : settingsHeld (followEnabled r) = settingsHeld r := by
  unfold followEnabled
  split <;> rfl

theorem followEnabled_off {r : Train} (off : r.state = .off) (enabled : r.enabled = true) :
    followEnabled r = { r with state := .parked, stepIndex := 0 } := by
  simp only [followEnabled, off, enabled]

theorem followEnabled_disabled {r : Train} (sound : r.state ≠ .faulted) (disabled : r.enabled = false) : followEnabled r = enterOff r := by
  unfold followEnabled
  split
  · next enabled => exact absurd (disabled.symm.trans enabled) nofun
  · next faulted => exact absurd faulted sound
  · rfl
  · next enabled _ _ => exact absurd (disabled.symm.trans enabled) nofun

theorem followEnabled_kept {r : Train} (h : r.state = .faulted ∨ (r.state ≠ .off ∧ r.enabled = true)) : followEnabled r = r := by
  unfold followEnabled
  split
  · next off _ =>
    rcases h with faulted | ⟨on, -⟩
    · exact absurd (off.symm.trans faulted) nofun
    · exact absurd off on
  · rfl
  · next disabled sound =>
    rcases h with faulted | ⟨-, enabled⟩
    · exact absurd faulted sound
    · exact absurd (disabled.symm.trans enabled) nofun
  · rfl

/-! ### A train whose settings are stored (R128 to R130) -/

section
variable (dir : SiteDirection) (banks : Vector (Vector BankEntry 24) 2) (now : Nat) (c : TrainSettings) (old : Train)

/-- The train with its settings stored, after the change of the enabled setting. -/
abbrev trainSet : Train := followEnabled (old.store c)

/-- The train after it has followed what the settings allow. -/
def trainStored : Train :=
  let followed := followAllowed (runningAllowed dir old) (runningAllowed dir (trainSet c old)) dir banks now (trainSet c old)
  if old.state = .off then resume dir banks now followed else followed

theorem standing_trainStored : standing (trainStored dir banks now c old) = standing (trainSet c old) := by
  unfold trainStored
  dsimp only
  split
  · rw [standing_resume, standing_followAllowed]
  · rw [standing_followAllowed]

theorem settingsHeld_trainStored : settingsHeld (trainStored dir banks now c old) = c :=
  (settingsHeld_of_standing (standing_trainStored dir banks now c old)).trans (settingsHeld_followEnabled (old.store c))

variable {old c}

theorem trainStored_of_on (on : old.state ≠ .off) :
    trainStored dir banks now c old
      = followAllowed (runningAllowed dir old) (runningAllowed dir (trainSet c old)) dir banks now (trainSet c old) := if_neg on

theorem trainStored_faulted (faulted : old.state = .faulted) : (trainStored dir banks now c old).state = .faulted := by
  have kept : trainSet c old = old.store c := followEnabled_kept (.inl faulted)
  rw [trainStored_of_on dir banks now (by rw [faulted]; nofun), kept, followAllowed_state]
  · exact faulted
  · show old.state ≠ .parked
    rw [faulted]
    nofun

/-- Disabling turns a train OFF. -/
theorem trainStored_disabled (sound : old.state ≠ .faulted) (disabled : c.enabled = false) :
    trainStored dir banks now c old = enterOff (old.store c) := by
  have off : trainSet c old = enterOff (old.store c) := followEnabled_disabled sound disabled
  unfold trainStored
  rw [off, followAllowed_off rfl rfl]
  split
  · exact resume_stays (.inl nofun)
  · rfl

/-- An OFF train that is enabled, PARKED at step 0. -/
abbrev trainParked (c : TrainSettings) (old : Train) : Train := { old.store c with state := .parked, stepIndex := 0 }

/-- Enabling an OFF train parks it at step 0, whence it resumes if it may. -/
theorem trainStored_enabled (off : old.state = .off) (enabled : c.enabled = true) :
    ∃ request, trainStored dir banks now c old = resume dir banks now { trainParked c old with parkRequest := request } := by
  have parks : trainSet c old = trainParked c old := followEnabled_off off enabled
  unfold trainStored
  rw [parks, if_pos off]
  rcases followAllowed_resting (d := dir) (banks := banks) (now := now) (t := trainParked c old) nofun (runningAllowed dir old)
    (runningAllowed dir (trainParked c old)) with same | resumed
  · exact ⟨old.parkRequest, congrArg _ same⟩
  · exact ⟨false, (congrArg _ resumed).trans (resume_resume_at_zero rfl)⟩

theorem trainStored_enabled_on (off : old.state = .off) (enabled : c.enabled = true) : (trainStored dir banks now c old).state ≠ .off := by
  obtain ⟨request, stored⟩ := trainStored_enabled dir banks now off enabled
  rw [stored]
  exact resume_at_zero_on rfl rfl

theorem trainStored_enabled_parks (off : old.state = .off) (enabled : c.enabled = true)
    (h : (dir ≠ .withdrawing ∧ c.standby = false) ∨ bankValid (nth banks old.bank) = false) :
    (trainStored dir banks now c old).state = .parked ∧ (trainStored dir banks now c old).stepIndex = 0 := by
  obtain ⟨request, stored⟩ := trainStored_enabled dir banks now off enabled
  rw [stored, resume_stays (.inr (h.imp_left runningAllowed_eq_false.mpr))]
  exact ⟨rfl, rfl⟩

theorem trainStored_enabled_runs {r : StepRecord} (off : old.state = .off) (enabled : c.enabled = true)
    (allowed : dir = .withdrawing ∨ c.standby = true) (valid : bankValid (nth banks old.bank) = true)
    (first : nth (nth banks old.bank) 0 = .written r) :
    ∃ before, before.tower = old.tower ∧ enteredStep now 0 r before (trainStored dir banks now c old) := by
  obtain ⟨request, stored⟩ := trainStored_enabled dir banks now off enabled
  rw [stored]
  exact ⟨{ trainParked c old with parkRequest := request }, rfl,
    resume_entered rfl (runningAllowed_iff.mpr allowed) valid ((entryAt_of_val rfl).trans first)⟩

section
variable (on : old.state ≠ .off) (enabled : c.enabled = true) (site : dir ≠ .withdrawing)
include on enabled site

/-- An enabled train outside WITHDRAWING follows its standby setting. -/
theorem trainStored_standby :
    trainStored dir banks now c old = followAllowed old.standby c.standby dir banks now (old.store c) := by
  have kept : trainSet c old = old.store c := followEnabled_kept (.inr ⟨on, enabled⟩)
  have allowed (t : Train) : runningAllowed dir t = t.standby := by rw [runningAllowed, decide_eq_false site, Bool.false_or]
  rw [trainStored_of_on dir banks now on, kept, allowed, allowed]
  rfl

/-- Standby on resumes a PARKED train. -/
theorem trainStored_resumes {i : Fin 24} {r : StepRecord} (parked : old.state = .parked) (was : old.standby = false)
    (standby : c.standby = true) (valid : bankValid (nth banks old.bank) = true) (index : i.val = old.stepIndex)
    (entry : nth (nth banks old.bank) i = .written r) :
    ∃ before, before.tower = old.tower ∧ enteredStep now i.val r before (trainStored dir banks now c old) := by
  rw [trainStored_standby dir banks now on enabled site, was, standby, followAllowed_begins, index]
  exact ⟨{ old.store c with parkRequest := false }, rfl,
    resume_entered parked (runningAllowed_iff.mpr (.inr standby)) valid ((entryAt_of_val index).trans entry)⟩

/-- A changed standby setting leaves a train in its step: off sets its park request, on ends it. -/
theorem trainStored_requests (step : old.state = .running ∨ old.state = .waitInput) (changed : old.standby ≠ c.standby) :
    (trainStored dir banks now c old).state = old.state ∧ (trainStored dir banks now c old).parkRequest = !c.standby := by
  rw [trainStored_standby dir banks now on enabled site]
  cases was : old.standby with
  | false =>
    have standby : c.standby = true := by rwa [was, ne_comm, ne_eq, Bool.not_eq_false] at changed
    have working : (old.store c).state ≠ .parked := by
      show old.state ≠ .parked
      rcases step with step | step <;> rw [step] <;> nofun
    rw [standby, followAllowed_begins, resume_stays (t := { old.store c with parkRequest := false }) (.inl working)]
    exact ⟨rfl, rfl⟩
  | true =>
    have standby : c.standby = false := by rwa [was, ne_comm, ne_eq, Bool.not_eq_true] at changed
    have inStep : (old.store c).state = .running ∨ (old.store c).state = .waitInput := step
    rw [standby, followAllowed_ends, if_pos inStep]
    exact ⟨rfl, rfl⟩

end

/-- A train that is neither turned OFF nor enabled keeps its off-spec state until it is judged. -/
theorem trainStored_offSpec (on : old.state ≠ .off) (stays : (trainStored dir banks now c old).state ≠ .off) :
    (trainStored dir banks now c old).offSpec = old.offSpec := by
  have enabled : old.state = .faulted ∨ (old.state ≠ .off ∧ c.enabled = true) := by
    by_cases faulted : old.state = .faulted
    · exact .inl faulted
    · refine .inr ⟨on, ?_⟩
      by_contra disabled
      rw [trainStored_disabled dir banks now faulted (Bool.eq_false_iff.mpr disabled)] at stays
      exact stays rfl
  have kept : trainSet c old = old.store c := followEnabled_kept enabled
  have same := offSpec_of_standing (standing_trainStored dir banks now c old)
  rw [kept] at same
  exact same

end

/-! ### The off-spec state after SET-TRAIN (R132) -/

/-- A train that judges its off-spec state afresh on a channel. -/
abbrev judgedAfresh (channel : Channel) (new : Train) : Train :=
  { new with offSpec := decide (new.state ≠ .off) && offSpecFresh new channel }

/-- A train after SET-TRAIN with its off-spec state judged, `old` being the train before it and `channel` its dew point. -/
def judgedSet (channel : Channel) (old new : Train) : Train :=
  if (old.state = .off ∧ new.state ≠ .off) ∨ old.binding ≠ new.binding then judgedAfresh channel new
  else if (old.specLimit ≠ new.specLimit ∨ old.hysteresis ≠ new.hysteresis) ∧ channel.quality = .good then
    judgedTrain channel.value new
  else new

section
variable {channel : Channel} {old new : Train}

theorem judgedSet_cases (channel : Channel) (old new : Train) : ∃ x, judgedSet channel old new = { new with offSpec := x } := by
  unfold judgedSet judgedTrain
  split
  · exact ⟨_, rfl⟩
  · split
    · split
      · exact ⟨new.offSpec, rfl⟩
      · exact ⟨_, rfl⟩
    · exact ⟨new.offSpec, rfl⟩

theorem judgedSet_afresh (h : (old.state = .off ∧ new.state ≠ .off) ∨ old.binding ≠ new.binding) (on : new.state ≠ .off) :
    (judgedSet channel old new).offSpec = true ↔ channel.quality = .noReading ∨ new.specLimit ≤ channel.value := by
  rw [judgedSet, if_pos h, judgedAfresh, decide_eq_true on, Bool.true_and, offSpecFresh, Bool.or_eq_true, decide_eq_true_eq,
    decide_eq_true_eq]

/-- An OFF train is judged not off-spec, or not judged. -/
theorem judgedSet_off (off : new.state = .off) (clear : new.offSpec = false) : judgedSet channel old new = new := by
  unfold judgedSet judgedTrain
  rw [if_pos off, ite_self]
  split
  · have judged : (decide (new.state ≠ .off) && offSpecFresh new channel) = new.offSpec := by
      rw [decide_eq_false (not_not.mpr off), Bool.false_and, clear]
    rw [judgedAfresh, judged]
  · rfl

section
variable (on : old.state ≠ .off) (binding : old.binding = new.binding)
include on binding

theorem judgedSet_not_afresh : ¬ ((old.state = .off ∧ new.state ≠ .off) ∨ old.binding ≠ new.binding) :=
  not_or.mpr ⟨fun h => on h.1, not_not.mpr binding⟩

theorem judgedSet_kept (h : (old.specLimit = new.specLimit ∧ old.hysteresis = new.hysteresis) ∨ channel.quality ≠ .good) :
    judgedSet channel old new = new := by
  rw [judgedSet, if_neg (judgedSet_not_afresh on binding)]
  refine if_neg ?_
  rintro ⟨changed, good⟩
  rcases h with ⟨limit, hysteresis⟩ | other
  · exact changed.elim (absurd limit) (absurd hysteresis)
  · exact other good

theorem judgedSet_reading (changed : old.specLimit ≠ new.specLimit ∨ old.hysteresis ≠ new.hysteresis) (good : channel.quality = .good)
    (stays : new.state ≠ .off) : (judgedSet channel old new).offSpec = offSpecAfterReading new.offSpec new channel.value := by
  rw [judgedSet, if_neg (judgedSet_not_afresh on binding), if_pos ⟨changed, good⟩, judgedTrain, if_neg stays]

end

end

theorem offSpecAfterReading_clear {t : Train} {value : Int} : offSpecAfterReading false t value = true ↔ t.specLimit ≤ value := by
  rw [offSpecAfterReading, if_neg Bool.false_ne_true, decide_eq_true_eq]

theorem offSpecAfterReading_set {t : Train} {value : Int} :
    offSpecAfterReading true t value = false ↔ value ≤ t.specLimit - t.hysteresis := by
  rw [offSpecAfterReading, if_pos rfl, Bool.not_eq_false', decide_eq_true_eq]

end Sys2Proof.Machine

/-! SUPPORT. The requests SET-TRAIN (R130) and RESET-TRAIN (R131), and the statement on them. -/

namespace Sys2Proof.Machine

open Sys2Proof.Safety

/-! ### The checks of SET-TRAIN (R130) -/

section
variable {fields : List Byte} {d : Fin 2} {c : TrainSettings} {s : State}

theorem dewPointInUse_iff {b : Option Binding} : dewPointInUse s b = true ↔ ¬ mayBind s .s16 b := by
  cases b with
  | none => simp [dewPointInUse, mayBind]
  | some x =>
    have lacks : (!dewPointFits (slotOf s x.slot) x.channel) = true ↔ ¬ hasChannel (slotOf s x.slot) x.channel [.s16] := by
      rw [Bool.not_eq_true', ← Bool.not_eq_true, dewPointFits_iff]
    have one : mayBind s .s16 (some x)
        ↔ (slotOf s x.slot).state = .disabled ∨ hasChannel (slotOf s x.slot) x.channel [.s16] :=
      ⟨fun h => h x rfl, fun h y hy => Option.some.inj hy ▸ h⟩
    rw [one, not_or, dewPointInUse, Bool.and_eq_true, decide_eq_true_eq, lacks]

/-- The marks of a SET-TRAIN whose settings are read. -/
theorem marks_of_readTrainSettings (h : readTrainSettings fields = some c) :
    mark fields 1 ≠ none ∧ mark fields 2 ≠ none ∧ mark fields 11 ≠ none := by
  have binding {b : Option Binding} (h : readBinding fields 2 = some b) : mark fields 2 ≠ none := fun none => by
    simp only [readBinding, readSlotNumber, none, Option.map_none, reduceCtorEq] at h
  simp only [readTrainSettings, Option.bind_eq_bind, Option.bind_eq_some_iff] at h
  obtain ⟨enabled, hEnabled, b, hBinding, standby, hStandby, -⟩ := h
  exact ⟨Option.ne_none_iff_exists'.mpr ⟨enabled, hEnabled⟩, binding hBinding, Option.ne_none_iff_exists'.mpr ⟨standby, hStandby⟩⟩

theorem setTrain_configures (hd : ordinal? 2 (byteAt fields 0) = some d) (enabled : mark fields 1 ≠ none) (bound : mark fields 2 ≠ none)
    (standby : mark fields 11 ≠ none) : setTrain fields s = configureTrain fields d s := by
  obtain ⟨x, hx⟩ := Option.ne_none_iff_exists'.mp enabled
  obtain ⟨y, hy⟩ := Option.ne_none_iff_exists'.mp bound
  obtain ⟨z, hz⟩ := Option.ne_none_iff_exists'.mp standby
  simp only [setTrain, hd, hx, hy, hz]

/-- A slot number above 15. -/
theorem configureTrain_slot (bound : mark fields 2 = some true) (above : 15 < byteAt fields 3) :
    configureTrain fields d s = .refuse .range := by
  have unbound : readBinding fields 2 = none := by rw [readBinding, readSlotNumber_above bound above, Option.map_none]
  have unread : readTrainSettings fields = none := by
    cases hm : mark fields 1 <;> simp [readTrainSettings, hm, unbound]
  simp only [configureTrain, unread]

section
variable (read : readTrainSettings fields = some c)
include read

theorem configureTrain_range (h : 5000 < c.hysteresis ∨ ∃ b, c.binding = some b ∧ 3 < b.channel) :
    configureTrain fields d s = .refuse .range := by
  simp only [configureTrain, read]
  exact if_pos (h.symm.imp_left channelOutOfRange_iff.mpr)

variable (hysteresis : c.hysteresis ≤ 5000) (channel : ∀ b, c.binding = some b → b.channel ≤ 3)
include hysteresis channel

/-- A SET-TRAIN whose settings are in range comes to check 3. -/
theorem configureTrain_inRange_eq :
    configureTrain fields d s = if dewPointInUse s c.binding then .refuse .inUse else .taken (storeTrain d c s) [] := by
  have inside : ¬ (channelOutOfRange c.binding = true ∨ 5000 < c.hysteresis) := by
    rw [channelOutOfRange_iff]
    rintro (⟨b, hb, above⟩ | above)
    · exact absurd (channel b hb) (not_le.mpr above)
    · exact absurd hysteresis (not_le.mpr above)
  simp only [configureTrain, read]
  exact if_neg inside

theorem configureTrain_inUse (h : ¬ mayBind s .s16 c.binding) : configureTrain fields d s = .refuse .inUse := by
  rw [configureTrain_inRange_eq read hysteresis channel, if_pos (dewPointInUse_iff.mpr h)]

theorem configureTrain_taken (h : mayBind s .s16 c.binding) : configureTrain fields d s = .taken (storeTrain d c s) [] := by
  rw [configureTrain_inRange_eq read hysteresis channel, if_neg fun used => dewPointInUse_iff.mp used h]

end

section
variable (held : heldInReset s = false) (fit : fits 0x72 fields = true)
include held fit

theorem exec_setTrain_refused {status : Status} (h : setTrain fields s = .refuse status) :
    exec (.setTrain .ops fields) s = .next (answered .ops 14 status [0x72] s) := by
  have served := serve_refused (owner := some .ops) (p := .ops) held fit rfl h
  rwa [length_of_fits fit rfl] at served

theorem exec_setTrain_taken {t : State} (h : setTrain fields s = .taken t []) :
    exec (.setTrain .ops fields) s = .next (accepted .ops 0x72 12 t) := by
  have served := serve_taken (owner := some .ops) (p := .ops) held fit rfl h
  rwa [length_of_fits fit rfl] at served

end

end

/-! ### What SET-TRAIN stores (R130, R132) -/

theorem alterTrain_same {d : Fin 2} {f : Train → Train} {s : State} (h : f (trainOf s d) = trainOf s d) : alterTrain d f s = s := by
  have trains : alter s.dsq.trains d f = s.dsq.trains := table_ext fun e => by
    by_cases here : e = d
    · subst here
      rw [nth_alter_same]
      exact h
    · rw [nth_alter_other _ _ here]
  rw [alterTrain, trains]
  rfl

theorem judgeSettings_eq (old : Train) (d : Fin 2) (s : State) :
    judgeSettings old d s = alterTrain d (judgedSet (boundChannel s (trainOf s d).binding) old) s := by
  unfold judgeSettings
  dsimp only
  split
  · next fresh =>
    refine alterTrain_congr ?_
    rw [judgedSet, if_pos fresh]
  · next settled =>
    split
    · next reads =>
      rw [judgeReading_eq]
      refine alterTrain_congr ?_
      rw [judgedSet, if_neg settled, if_pos reads]
    · next keeps =>
      refine (alterTrain_same ?_).symm
      rw [judgedSet, if_neg settled, if_neg keeps]

/-- A record with the settings of a SET-TRAIN to train `d` stored, after what they allow the train. -/
abbrev trainFollowing (d : Fin 2) (c : TrainSettings) (s : State) (r : Train) : Train :=
  followAllowed (runningAllowed s.dir.direction (trainOf s d)) (runningAllowed s.dir.direction (trainSet c r)) s.dir.direction
    s.dsq.banks (timeBase s) (trainSet c r)

/-- Train `d` with the settings of a SET-TRAIN stored and followed, before its off-spec state is judged. -/
abbrev trainLed (d : Fin 2) (c : TrainSettings) (s : State) : Train :=
  trainStored s.dir.direction s.dsq.banks (timeBase s) c (trainOf s d)

/-- Train `d` as SET-TRAIN leaves it. -/
abbrev trainConfigured (d : Fin 2) (c : TrainSettings) (s : State) : Train :=
  judgedSet (boundChannel s c.binding) (trainOf s d) (trainLed d c s)

/-- The part with train `d` as SET-TRAIN leaves it, before OFFSPEC Dk is reported. -/
abbrev trainReplaced (d : Fin 2) (c : TrainSettings) (s : State) : State := alterTrain d (fun _ => trainConfigured d c s) s

theorem storeTrain_eq (d : Fin 2) (c : TrainSettings) (s : State) :
    storeTrain d c s = reportAll [offSpecReport (trainReplaced d c s) d] (trainReplaced d c s) := by
  have resumed : (if (trainOf s d).state = .off then resumeTrain d (alterTrain d (trainFollowing d c s) s) else alterTrain d (trainFollowing d c s) s)
      = alterTrain d (fun _ => trainLed d c s) s := by
    split
    · next off => exact (alterTrain_alterTrain d _ _ s).trans (alterTrain_congr (if_pos off).symm)
    · next on => exact alterTrain_congr (if_neg on).symm
  have bound : (trainLed d c s).binding = c.binding := congrArg TrainSettings.binding (settingsHeld_trainStored _ _ _ c _)
  have judged : judgeSettings (trainOf s d) d (alterTrain d (fun _ => trainLed d c s) s) = trainReplaced d c s := by
    rw [judgeSettings_eq, trainOf_alterTrain_same, bound, alterTrain_alterTrain]
    rfl
  unfold storeTrain
  dsimp only
  rw [← judged, ← resumed]

section
variable (d : Fin 2) (c : TrainSettings) (s : State)

theorem storeTrain_blocks : ChangesOnly [.dsq, .cdt, .nfu] s (storeTrain d c s) := by
  rw [storeTrain_eq]
  exact ((alterTrain_changes d _ s).mono (by decide)).trans ((reportAll_single_changes _ _).mono (by decide))

theorem storeTrain_dsq : (storeTrain d c s).dsq = (trainReplaced d c s).dsq := by
  rw [storeTrain_eq]
  exact (reportAll_single_changes _ _ .dsq (by decide)).symm

theorem trainOf_storeTrain_same : trainOf (storeTrain d c s) d = trainConfigured d c s :=
  (trainOf_congr (storeTrain_dsq d c s) d).trans (trainOf_alterTrain_same s d _)

theorem trainOf_storeTrain_other {e : Fin 2} (h : e ≠ d) : trainOf (storeTrain d c s) e = trainOf s e :=
  (trainOf_congr (storeTrain_dsq d c s) e).trans (trainOf_alterTrain_other s _ h)

theorem banks_storeTrain : (storeTrain d c s).dsq.banks = s.dsq.banks :=
  (congrArg Dsq.banks (storeTrain_dsq d c s) :)

/-- OFFSPEC Dk follows the off-spec state that is stored (R132). -/
theorem offSpec_storeTrain : conditionActive (storeTrain d c s) (condOffSpec d) = (trainOf (storeTrain d c s) d).offSpec := by
  have one : ([offSpecReport (trainReplaced d c s) d].map Prod.fst).Nodup := List.nodup_singleton _
  rw [trainOf_congr (storeTrain_dsq d c s), storeTrain_eq]
  exact conditionActive_reportAll one _ List.mem_cons_self

end

section
variable {d : Fin 2} {c : TrainSettings} {s : State}

theorem trainConfigured_settings : settingsHeld (trainConfigured d c s) = c := by
  obtain ⟨x, judged⟩ := judgedSet_cases (boundChannel s c.binding) (trainOf s d) (trainLed d c s)
  rw [trainConfigured, judged]
  exact settingsHeld_trainStored _ _ _ c _

theorem trainConfigured_state : (trainConfigured d c s).state = (trainLed d c s).state := by
  obtain ⟨x, judged⟩ := judgedSet_cases (boundChannel s c.binding) (trainOf s d) (trainLed d c s)
  rw [trainConfigured, judged]

theorem trainConfigured_stepIndex : (trainConfigured d c s).stepIndex = (trainLed d c s).stepIndex := by
  obtain ⟨x, judged⟩ := judgedSet_cases (boundChannel s c.binding) (trainOf s d) (trainLed d c s)
  rw [trainConfigured, judged]

theorem trainConfigured_parkRequest : (trainConfigured d c s).parkRequest = (trainLed d c s).parkRequest := by
  obtain ⟨x, judged⟩ := judgedSet_cases (boundChannel s c.binding) (trainOf s d) (trainLed d c s)
  rw [trainConfigured, judged]

/-- A disabled train: OFF at step 0, without deadline and park request, and not off-spec. -/
theorem trainConfigured_disabled (sound : (trainOf s d).state ≠ .faulted) (disabled : c.enabled = false) :
    trainConfigured d c s = enterOff ((trainOf s d).store c) := by
  rw [trainConfigured, trainLed, trainStored_disabled _ _ _ sound disabled, judgedSet_off rfl rfl]

/-- A train that the settings lead into a step has entered it. -/
theorem trainConfigured_entered {now i : Nat} {r : StepRecord}
    (h : ∃ before, before.tower = (trainOf s d).tower ∧ enteredStep now i r before (trainLed d c s)) :
    enteredStep now i r { trainConfigured d c s with tower := (trainOf s d).tower } (trainConfigured d c s) := by
  obtain ⟨before, tower, entered⟩ := h
  obtain ⟨x, judged⟩ := judgedSet_cases (boundChannel s c.binding) (trainOf s d) (trainLed d c s)
  rw [trainConfigured, judged, ← tower]
  exact enteredStep_judged entered x

/-- An enable and a changed binding are judged afresh. -/
theorem trainConfigured_afresh (h : ((trainOf s d).state = .off ∧ c.enabled = true)
      ∨ ((trainOf s d).binding ≠ c.binding ∧ (trainConfigured d c s).state ≠ .off)) :
    (trainConfigured d c s).offSpec = true
      ↔ (boundChannel s c.binding).quality = .noReading ∨ c.specLimit ≤ (boundChannel s c.binding).value := by
  have settings : settingsHeld (trainLed d c s) = c := settingsHeld_trainStored _ _ _ c _
  have bound : (trainLed d c s).binding = c.binding := congrArg TrainSettings.binding settings
  have limit : (trainLed d c s).specLimit = c.specLimit := congrArg TrainSettings.specLimit settings
  rw [← limit]
  rcases h with ⟨off, enabled⟩ | ⟨other, on⟩
  · have on : (trainLed d c s).state ≠ .off := trainStored_enabled_on _ _ _ off enabled
    exact judgedSet_afresh (.inl ⟨off, on⟩) on
  · rw [trainConfigured_state] at on
    exact judgedSet_afresh (.inr (bound ▸ other)) on

/-- With the binding kept a changed limit or hysteresis judges a GOOD channel by the good-reading lines, and nothing else judges. -/
theorem trainConfigured_settled (on : (trainOf s d).state ≠ .off) (stays : (trainConfigured d c s).state ≠ .off)
    (binding : (trainOf s d).binding = c.binding) :
    (((trainOf s d).specLimit = c.specLimit ∧ (trainOf s d).hysteresis = c.hysteresis) ∨ (boundChannel s c.binding).quality ≠ .good →
        (trainConfigured d c s).offSpec = (trainOf s d).offSpec)
      ∧ ((trainOf s d).specLimit ≠ c.specLimit ∨ (trainOf s d).hysteresis ≠ c.hysteresis → (boundChannel s c.binding).quality = .good →
        ((trainOf s d).offSpec = false →
            ((trainConfigured d c s).offSpec = true ↔ c.specLimit ≤ (boundChannel s c.binding).value))
          ∧ ((trainOf s d).offSpec = true →
            ((trainConfigured d c s).offSpec = false ↔ (boundChannel s c.binding).value ≤ c.specLimit - c.hysteresis))) := by
  have settings : settingsHeld (trainLed d c s) = c := settingsHeld_trainStored _ _ _ c _
  have bound : (trainLed d c s).binding = c.binding := congrArg TrainSettings.binding settings
  have limit : (trainLed d c s).specLimit = c.specLimit := congrArg TrainSettings.specLimit settings
  have hysteresis : (trainLed d c s).hysteresis = c.hysteresis := congrArg TrainSettings.hysteresis settings
  rw [trainConfigured_state] at stays
  have before : (trainLed d c s).offSpec = (trainOf s d).offSpec := trainStored_offSpec _ _ _ on stays
  have same : (trainOf s d).binding = (trainLed d c s).binding := binding.trans bound.symm
  rw [← limit, ← hysteresis]
  refine ⟨fun h => ?_, fun changed good => ?_⟩
  · rw [trainConfigured, judgedSet_kept on same h, before]
  · rw [trainConfigured, judgedSet_reading on same changed good stays, before]
    refine ⟨fun clear => ?_, fun set => ?_⟩
    · rw [clear, offSpecAfterReading_clear]
    · rw [set, offSpecAfterReading_set]

end

/-! ### RESET-TRAIN (R131) -/

/-- An enabled train that has left FAULTED, PARKED at step 0. -/
abbrev resetParked (r : Train) : Train := { r with cause := .noCause, stepIndex := 0, state := .parked }

/-- A FAULTED train that has left FAULTED, before it resumes if it may. -/
def leftFault (r : Train) : Train :=
  let r := { r with cause := .noCause, stepIndex := 0 }
  if r.enabled then { r with state := .parked } else enterOff r

/-- Train `d` as RESET-TRAIN leaves it. -/
abbrev trainReset (d : Fin 2) (s : State) : Train := resume s.dir.direction s.dsq.banks (timeBase s) (leftFault (trainOf s d))

/-- The part with train `d` as RESET-TRAIN leaves it, before its conditions are reported. -/
abbrev trainRestored (d : Fin 2) (s : State) : State := alterTrain d (fun _ => trainReset d s) s

theorem resetTrainFault_eq (d : Fin 2) (s : State) :
    resetTrainFault d s = reportAll [(condTrain d, false), offSpecReport (trainRestored d s) d] (trainRestored d s) := by
  have resumed : resumeTrain d (alterTrain d leftFault s) = trainRestored d s := alterTrain_alterTrain d _ _ s
  rw [← resumed]
  rfl

section
variable (d : Fin 2) (s : State)

theorem resetTrainFault_changes : ChangesOnly trainBlocks s (resetTrainFault d s) := by
  rw [resetTrainFault_eq]
  exact ((alterTrain_changes d _ s).mono (by decide)).trans ((reportAll_changes _ _).mono (by decide))

theorem resetTrainFault_dsq : (resetTrainFault d s).dsq = (trainRestored d s).dsq := by
  rw [resetTrainFault_eq]
  exact (reportAll_changes _ _ .dsq (by decide)).symm

theorem trainOf_resetTrainFault_same : trainOf (resetTrainFault d s) d = trainReset d s :=
  (trainOf_congr (resetTrainFault_dsq d s) d).trans (trainOf_alterTrain_same s d _)

theorem trainOf_resetTrainFault_other {e : Fin 2} (h : e ≠ d) : trainOf (resetTrainFault d s) e = trainOf s e :=
  (trainOf_congr (resetTrainFault_dsq d s) e).trans (trainOf_alterTrain_other s _ h)

/-- TRAIN Dk falls. -/
theorem condTrain_resetTrainFault : conditionActive (resetTrainFault d s) (condTrain d) = false := by
  have distinct : ([(condTrain d, false), offSpecReport (trainRestored d s) d].map Prod.fst).Nodup :=
    (by decide : ∀ e, [condTrain e, condOffSpec e].Nodup) d
  rw [resetTrainFault_eq]
  exact conditionActive_reportAll distinct _ (r := (condTrain d, false)) List.mem_cons_self

end

section
variable {d : Fin 2} {s : State}

theorem leftFault_enabled {r : Train} (h : r.enabled = true) : leftFault r = resetParked r := if_pos h

theorem leftFault_disabled {r : Train} (h : r.enabled = false) : leftFault r = enterOff { r with cause := .noCause } :=
  if_neg (Bool.eq_false_iff.mp h)

/-- What leaving FAULTED keeps of a train, and what it clears. -/
theorem leftFault_fields (r : Train) :
    (leftFault r).cause = .noCause ∧ (leftFault r).stepIndex = 0 ∧ (leftFault r).faultStep = r.faultStep ∧ (leftFault r).bank = r.bank
      ∧ (leftFault r).pendingBank = r.pendingBank ∧ (leftFault r).tower = r.tower := by
  unfold leftFault
  dsimp only
  split
  · exact ⟨rfl, rfl, rfl, rfl, rfl, rfl⟩
  · exact ⟨rfl, rfl, rfl, rfl, rfl, rfl⟩

/-- A train that is not in a step after RESET-TRAIN has not resumed. -/
theorem trainReset_resting (h : (trainReset d s).state = .off ∨ (trainReset d s).state = .parked) :
    trainReset d s = leftFault (trainOf s d) := by
  by_cases resumes : (leftFault (trainOf s d)).state = .parked ∧ runningAllowed s.dir.direction (leftFault (trainOf s d)) = true
      ∧ bankValid (nth s.dsq.banks (leftFault (trainOf s d)).bank) = true
  · obtain ⟨parked, allowed, valid⟩ := resumes
    obtain ⟨-, start, -⟩ := leftFault_fields (trainOf s d)
    obtain ⟨r, -, entered⟩ := resume_at_zero (now := timeBase s) start parked allowed valid
    rcases enteredStep_runs entered with runs | runs <;> rcases h with rests | rests <;> exact absurd (rests.symm.trans runs) nofun
  · exact if_neg resumes

/-- A disabled train is OFF and not off-spec. -/
theorem trainReset_disabled (h : (trainOf s d).enabled = false) : (trainReset d s).state = .off ∧ (trainReset d s).offSpec = false := by
  rw [trainReset, leftFault_disabled h, resume_stays (t := enterOff _) (.inl nofun)]
  exact ⟨rfl, rfl⟩

theorem trainReset_parks (enabled : (trainOf s d).enabled = true)
    (h : (s.dir.direction ≠ .withdrawing ∧ (trainOf s d).standby = false) ∨ bankValid (nth s.dsq.banks (trainOf s d).bank) = false) :
    (trainReset d s).state = .parked ∧ (trainReset d s).stepIndex = 0 := by
  rw [trainReset, leftFault_enabled enabled, resume_stays (t := resetParked (trainOf s d)) (.inr (h.imp_left runningAllowed_eq_false.mpr))]
  exact ⟨rfl, rfl⟩

theorem trainReset_runs {r : StepRecord} (enabled : (trainOf s d).enabled = true)
    (allowed : s.dir.direction = .withdrawing ∨ (trainOf s d).standby = true)
    (valid : bankValid (nth s.dsq.banks (trainOf s d).bank) = true) (first : nth (nth s.dsq.banks (trainOf s d).bank) 0 = .written r) :
    enteredStep (timeBase s) 0 r { trainOf s d with cause := .noCause } (trainReset d s) := by
  rw [trainReset, leftFault_enabled enabled]
  exact resume_entered (t := resetParked (trainOf s d)) rfl (runningAllowed_iff.mpr allowed)
    valid ((entryAt_of_val rfl).trans first)

theorem trainReset_fields :
    (trainReset d s).cause = .noCause ∧ (trainReset d s).stepIndex = 0 ∧ (trainReset d s).faultStep = (trainOf s d).faultStep
      ∧ (trainReset d s).bank = (trainOf s d).bank ∧ (trainReset d s).pendingBank = (trainOf s d).pendingBank
      ∧ ((trainReset d s).state = .off ∨ (trainReset d s).state = .parked → (trainReset d s).tower = (trainOf s d).tower) := by
  obtain ⟨cause, start, fault, bank, pending, tower⟩ := leftFault_fields (trainOf s d)
  obtain ⟨bankKept, pendingKept, index⟩ :=
    resume_at_zero_keeps (d := s.dir.direction) (banks := s.dsq.banks) (now := timeBase s) start
  have kept : standing (trainReset d s) = standing (leftFault (trainOf s d)) := standing_resume _ _ _ _
  have causeKept : (trainReset d s).cause = (leftFault (trainOf s d)).cause := (congrArg Train.cause kept :)
  have faultKept : (trainReset d s).faultStep = (leftFault (trainOf s d)).faultStep := (congrArg Train.faultStep kept :)
  exact ⟨causeKept.trans cause, index, faultKept.trans fault, bankKept.trans bank, pendingKept.trans pending,
    fun rests => (congrArg Train.tower (trainReset_resting rests)).trans tower⟩

section
variable (held : heldInReset s = false)
include held

theorem exec_resetTrain_state (sound : (trainOf s d).state ≠ .faulted) :
    exec (.resetTrain .ops (ubytes 1 (d.val + 1))) s = .next (answered .ops 3 .state [0x73] s) := by
  have train : ordinal? 2 (byteAt (ubytes 1 (d.val + 1)) 0) = some d := by rw [byteAt_ubytes (by omega), ordinal?_succ]
  refine serve_refused (owner := some .ops) (p := .ops) held rfl rfl ?_
  simp only [resetTrain, train]
  exact if_pos sound

theorem exec_resetTrain_taken (faulted : (trainOf s d).state = .faulted) :
    exec (.resetTrain .ops (ubytes 1 (d.val + 1))) s = .next (accepted .ops 0x73 1 (resetTrainFault d s)) := by
  have train : ordinal? 2 (byteAt (ubytes 1 (d.val + 1)) 0) = some d := by rw [byteAt_ubytes (by omega), ordinal?_succ]
  refine serve_taken (owner := some .ops) (p := .ops) held rfl rfl ?_
  simp only [resetTrain, train]
  exact if_neg fun other => other faulted

end

end

/-! ### The two requests -/

/-- Settles O41: SET-TRAIN by its checks, then by the train that the stored settings lead to and the off-spec state judged of it; RESET-TRAIN
by the train that leaves FAULTED. -/
theorem trainRequestsStoreAndReset : Obligations.TrainRequestsStoreAndReset := by
  refine ⟨fun fields d s held fit hd enabled bound standby above => exec_setTrain_refused held fit ?_,
    fun fields d c s held fit hd read => ?_, fun d s held => ⟨exec_resetTrain_state held, fun faulted => ?_⟩⟩
  · rw [setTrain_configures hd enabled (bound ▸ nofun) standby, configureTrain_slot bound above]
  · obtain ⟨enabled, bound, standby⟩ := marks_of_readTrainSettings read
    have configures := setTrain_configures (s := s) hd enabled bound standby
    refine ⟨fun out => exec_setTrain_refused held fit (configures.trans (configureTrain_range read out)),
      fun hysteresis channel =>
        ⟨fun used => exec_setTrain_refused held fit (configures.trans (configureTrain_inUse read hysteresis channel used)),
          fun free => ⟨_, exec_setTrain_taken held fit (configures.trans (configureTrain_taken read hysteresis channel free)), ?_⟩⟩⟩
    have changes := storeTrain_blocks d c s
    have released : heldInReset (accepted .ops 0x72 12 (storeTrain d c s)) = false := by
      rw [accepted, answered, heldInReset_alterPort, heldInReset, ← changes .pif (by decide)]
      exact held
    have train : trainOf (accepted .ops 0x72 12 (storeTrain d c s)) d = trainConfigured d c s := trainOf_storeTrain_same d c s
    have condition : conditionActive (accepted .ops 0x72 12 (storeTrain d c s)) (condOffSpec d) = (trainConfigured d c s).offSpec :=
      (offSpec_storeTrain d c s).trans (congrArg Train.offSpec train)
    have settings := trainConfigured_settings (d := d) (c := c) (s := s)
    rw [dryerOutputs_eq released, train]
    refine ⟨congrArg TrainSettings.enabled settings, congrArg TrainSettings.binding settings,
      congrArg TrainSettings.breakthrough settings, congrArg TrainSettings.specLimit settings,
      congrArg TrainSettings.hysteresis settings, congrArg TrainSettings.standby settings,
      fun faulted => trainConfigured_state.trans (trainStored_faulted _ _ _ faulted), fun sound disabled => ?_,
      fun off enabled h => ?_,
      fun r off enabled allowed valid first => trainConfigured_entered (trainStored_enabled_runs _ _ _ off enabled allowed valid first),
      fun i r parked enabled site was standby valid index entry => trainConfigured_entered
        (trainStored_resumes _ _ _ (by rw [parked]; nofun) enabled site parked was standby valid index entry),
      fun step enabled site changed => ?_, trainConfigured_afresh, trainConfigured_settled, condition,
      fun e other => trainOf_storeTrain_other d c s other, banks_storeTrain d c s, accepted_pif (changes .pif (by decide)).symm,
      (changes.mono (by decide)).trans ((accepted_changes _ _ _ _).mono (by decide))⟩
    · rw [trainConfigured_disabled sound disabled]
      exact ⟨rfl, rfl, rfl, rfl, rfl, rfl, rfl, outputs_off _ (.inl rfl), rfl⟩
    · rw [trainConfigured_state, trainConfigured_stepIndex]
      exact trainStored_enabled_parks _ _ _ off enabled h
    · rw [trainConfigured_state, trainConfigured_parkRequest]
      exact trainStored_requests _ _ _ (by rcases step with step | step <;> rw [step] <;> nofun) enabled site step changed
  · have changes := resetTrainFault_changes d s
    have train : trainOf (accepted .ops 0x73 1 (resetTrainFault d s)) d = trainReset d s := trainOf_resetTrainFault_same d s
    obtain ⟨cause, index, fault, bank, pending, tower⟩ := trainReset_fields (d := d) (s := s)
    refine ⟨_, exec_resetTrain_taken held faulted, ?_⟩
    rw [train]
    exact ⟨cause, index, fault, bank, pending, tower, trainReset_disabled, trainReset_parks, fun r => trainReset_runs,
      condTrain_resetTrainFault d s, fun e other => trainOf_resetTrainFault_other d s other,
      accepted_pif (changes .pif (by decide)).symm, (changes.mono (by decide)).trans ((accepted_changes _ _ _ _).mono (by decide))⟩

end Sys2Proof.Machine
